-- ==== Sys2Proof/Word.lean ====
section
/-! DEFINITION. The plain data the whole model is written with: bytes, dies, islands and ports (R3, R4). -/

namespace Sys2Proof

/-- Eight bits (Table 0-3). -/
abbrev Byte := BitVec 8

/-- The word of an action engine (Table 7-1) and of a register (Table 0-3). -/
abbrev Word := BitVec 32

/-- A pipeline die, PD0 to PD3 (R3). -/
abbrev Die := Fin 4

/-- A holder of a time island and of an event ring: PD0 to PD3, and 4 for the CD (R256, R382). -/
abbrev Isl := Fin 5

/-- A port of the device: 0–127 line, 128–131 field, 132 host (Table 0-2). -/
abbrev Port := Fin 133

/-- A line port, which is also the first of its lane slots (R4). -/
abbrev LinePort := Fin 128

/-- A field port 128 + k, by its k (R81). -/
abbrev FieldPort := Fin 4

/-- A traffic class. -/
abbrev Tc := Fin 8

end Sys2Proof
end

