-- ==== Sys2Proof/Data.lean ====
section
/-! DEFINITION. The structured data that commands carry and the state holds: the storyboard (R30), the image of a bank
(R39), the parser graph (R90), action programs (R142), the overlay (R35) and intents (R246, R247). -/

namespace Sys2Proof

/-! ### Parser graph (Table 5-1) -/

/-- The length of a header type: fixed, or a field of `width` bits at bit offset `bit`, most significant first, as
value × scale + add. -/
inductive HLen where
  | fixed (n : Nat)
  | field (bit width scale add : Nat)
  deriving DecidableEq, Repr

/-- The check classes of Table 5-2. -/
inductive CheckClass where
  | none | eth | ipv4 | ipv6 | ipv6Ext | ipv6Frag | udp | tcp
  deriving DecidableEq, Repr

/-- A transition: the masked next field and the type it leads to. -/
structure Transition where
  value : Nat
  mask : Nat
  next : Nat
  deriving DecidableEq, Repr

/-- A user check: a field and its inclusive range. -/
structure UserCheck where
  bit : Nat
  width : Nat
  lo : Nat
  hi : Nat
  deriving DecidableEq, Repr

/-- A header type with the attributes of Table 5-1. -/
structure HType where
  num : Nat
  len : HLen
  min : Nat := 1
  max : Nat := 384
  check : CheckClass := .none
  next : Option (Nat × Nat) := none
  trans : List Transition := []
  mandatory : Bool := false
  once : Bool := false
  user : List UserCheck := []
  extracts : List (Nat × Nat) := []
  deriving DecidableEq, Repr

/-! ### Storyboard (Table 2-1) -/

/-- The use of a lane slot (R49).  `g400` is slot 4·m of a 400G port and `part` one of its other three. -/
inductive SlotUse where
  | unused | g10 | g25 | g100 | g400 | part
  deriving DecidableEq, Repr

/-- A program of a die's program store: its listing (R142). -/
structure ProgList where
  die : Nat
  number : Nat
  start : Nat
  words : List Word
  deriving DecidableEq, Repr

/-- An overlay entry (Table 2-5). -/
structure OvlEntry where
  addr : Nat
  mask : Nat
  value : Nat
  pad : Nat := 0
  deriving DecidableEq, Repr

/-- The eleven sections of Table 2-1.  Per-die lists run over PD0 to PD3. -/
structure Storyboard where
  profile : Nat := 0
  active : Nat := 4
  slots : List SlotUse := []
  fec : List (Nat × Nat) := []
  lr : List Nat := []
  graph : List HType := []
  programs : List ProgList := []
  budget : List Nat := [32, 32, 32, 32]
  inspect : List Nat := []
  window : List Nat := [128, 128, 128, 128]
  rates : List Nat := [1500, 1500, 1500, 1500]
  idle : List (Nat × Nat) := []
  overlay : List OvlEntry := []
  deriving DecidableEq, Repr, Inhabited

/-- The header of an image (Table 2-7). -/
structure ImgHeader where
  magic : Nat := 0x42535856
  format : Nat := 1
  keyIndex : Nat := 0
  flags : Nat := 0
  sequence : Nat := 0
  length : Nat := 0
  rollback : Nat := 0
  ovlOffset : Nat := 0
  ovlLength : Nat := 0
  digest : Nat := 0
  pubkey : Nat := 0
  reserved : Nat := 0
  deriving DecidableEq, Repr

/-- An image as it stands in host memory, byte by byte (R39, Table 2-7). -/
structure Image where
  bytes : List Byte
  deriving DecidableEq, Repr

/-- The two banks of the image store (R38). -/
inductive Bank where
  | a | b
  deriving DecidableEq, Repr

/-- How a flash operation ends. -/
inductive FlashEnd where
  | ok | flashError | hostReadError
  deriving DecidableEq, Repr

/-- The form of an access to BAR0 (R340): one aligned-size doubleword with all byte enables, eight bytes, or any other. -/
inductive AccForm where
  | dword | qword | other
  deriving DecidableEq, Repr

/-! ### Placement objects (Tables 11-1, 11-3, 11-4, 6-3, 6-7, 8-1, 8-5, 10-4, 10-5) -/

/-- A layout field of a group (Table 11-4).  `occur` is 0–11 for an index, 12 for FIRST, 13 for LAST. -/
structure KeyField where
  source : Nat
  type : Nat := 0
  occur : Nat := 12
  extract : Nat := 0
  hi : Nat := 0
  lo : Nat := 0
  range : Bool := false
  deriving DecidableEq, Repr

/-- A rule record (Table 6-3).  `value` and `mask` are the key bits, bit 0 first. -/
structure RuleRec where
  id : Nat
  priority : Nat
  result : Nat
  value : Nat
  mask : Nat
  deriving DecidableEq, Repr

/-- A pattern record (Table 6-7).  Byte i of VALUE and of MASK is element i. -/
structure PatRec where
  id : Nat
  anchor : Nat
  lo : Nat := 0
  hi : Nat := 0
  value : List Nat
  mask : List Nat
  deriving DecidableEq, Repr

/-- The destination of an address entry (Table 8-1). -/
inductive Dest where
  | port (p : Nat)
  | group (g : Nat)
  | drop
  | host (code : Nat)
  deriving DecidableEq, Repr

/-- A static address entry as its intent gives it (R244). -/
structure StaticRec where
  mac : Nat
  fid : Nat
  dest : Dest
  cls : Option Nat := none
  stream : Option Nat := none
  deriving DecidableEq, Repr

/-- A meter or policer record (Table 10-4). -/
structure MeterRec where
  policer : Bool
  cir : Nat
  pir : Nat
  cbs : Nat
  pbs : Nat
  aware : Bool := false
  lenAdj : Int := 0
  yellowAction : Nat := 0
  yellowTc : Nat := 0
  redTc : Nat := 0
  redAction : Nat := 0
  deriving DecidableEq, Repr

/-- A mirror session record (Table 10-5). -/
structure MirrorRec where
  dest : Nat
  encap : Bool := false
  vid : Nat := 1
  tc : Nat := 0
  trunc : Nat := 0
  age : Nat := 1
  inPorts : List Nat := []
  outPorts : List Nat := []
  deriving DecidableEq, Repr

/-- A stream with its options (Table 8-5). -/
structure StreamRec where
  id : Nat
  port : Nat
  encode : Bool := false
  recover : Bool := false
  history : Nat := 1
  resetMs : Nat := 1
  takeNoSeq : Bool := false
  pop : Bool := false
  deriving DecidableEq, Repr

/-- What an object is (Table 11-1). -/
inductive ObjData where
  | rules (tree : Bool) (width : Nat) (fields : List KeyField) (ports : List Nat)
  | patterns (ports : List Nat)
  | static (r : StaticRec)
  | mcast (num : Nat) (members : List Nat)
  | meter (r : MeterRec)
  | cblock (entries : Nat)
  | mirror (r : MirrorRec)
  | stream (r : StreamRec)
  deriving DecidableEq, Repr

/-- The KIND of an object (Table 11-1). -/
def ObjData.kind : ObjData → Nat
  | .rules false _ _ _ => 1
  | .rules true _ _ _ => 2
  | .patterns _ => 3
  | .static _ => 4
  | .mcast _ _ => 5
  | .meter _ => 6
  | .cblock _ => 7
  | .mirror _ => 8
  | .stream _ => 9

/-- What every intent's descriptor carries (Table 11-2).  `readable` is whether the payload could be read and LENGTH holds
COUNT records, `clean` whether OP and KIND are known and every reserved field of the descriptor and its payload is 0. -/
structure IntentHead where
  handle : Nat
  op : Nat := 0
  batch : Bool := false
  irq : Bool := false
  readable : Bool := true
  clean : Bool := true
  deriving DecidableEq, Repr

/-- What an intent's OP asks for (Table 11-2, R246), with its payload.  A rule or pattern payload is a list of records of
the one form or the other; WHERE carries how many answer records its buffer holds, and its address. -/
inductive IntentBody where
  | create (data : ObjData) (rules : List RuleRec) (pats : List PatRec)
  | modify (data : ObjData)
  | delete (kind : Nat)
  | add (kind : Nat) (rules : List RuleRec) (pats : List PatRec)
  | change (kind : Nat) (rules : List RuleRec) (pats : List PatRec)
  | remove (kind : Nat) (ids : List Nat)
  | bind (slot : Nat)
  | ask (room addr : Nat)
  deriving DecidableEq, Repr

/-- An intent. -/
structure Intent where
  head : IntentHead
  body : IntentBody
  deriving DecidableEq, Repr

/-- A move of the sequencer's own (R252): associative-memory entries of a pipe or static entries of a die, each from one
place to another, or a new copy plan for a multicast group; with the handle of the intent it serves, 0 for none. -/
inductive SeqMove where
  | cam (die pipe : Nat) (moves : List (Nat × Nat)) (served : Nat)
  | static (die : Nat) (moves : List (Nat × Nat)) (served : Nat)
  | plan (die : Nat) (handle : Nat)
  deriving DecidableEq, Repr

/-- How the staging of a tree change on a die turned out: staged; the half lacks free nodes, so that a full build must
follow; or the trees do not fit one half. -/
inductive TreeEnd where
  | staged | lacksNodes | noFit
  deriving DecidableEq, Repr

/-! ### Lanes -/

/-- A lane with test machinery (R287): a line lane slot 0–127, lane k of the link of a die toward a peer, or a continuity
lane. -/
inductive LaneId where
  | line (slot : Nat)
  | fabric (die peer lane : Nat)
  | cont (k : Nat)
  deriving DecidableEq, Repr

/-- What the checker of a lane under test has counted: bits, bit errors, and invalid headers with block errors (R287). -/
structure Checked where
  bits : BitVec 64
  errors : BitVec 64
  syncs : BitVec 64
  deriving DecidableEq, Repr, Inhabited

/-- One count of the checkers of both ends of a lane under test: of the lane's own, and of a fabric lane's other end. -/
structure Counts where
  near : BitVec 64
  far : BitVec 64
  deriving DecidableEq, Repr

/-! ### Words with bad parity -/

/-- A memory word found bad by a parity check. -/
inductive BadWord where
  | graph (die addr : Nat)
  | cam (die pipe slot : Nat)
  | tree (die addr : Nat)
  | pattern (die addr : Nat)
  | prog (die addr : Nat)
  | addr (die idx : Nat)
  | vlan (die vid : Nat)
  | dup (die idx : Nat)
  | stream (die id : Nat)
  deriving DecidableEq, Repr

/-- Bytes that arrive, and the words with bad parity that a walk, search or scan reads as they do. -/
structure Arrived where
  bytes : List Byte := []
  bad : List BadWord := []
  deriving DecidableEq, Repr

/-- What a frame meets as it enters a pipe: the supplies without room for it (bit 0 search, bit 1 scan, bit 2 action slots) and
the words with bad parity that it reads. -/
structure Entered where
  slow : Fin 8 := 0
  bad : List BadWord := []
  deriving DecidableEq, Repr

/-- What the coding of a line port reports at the end of a frame: code errors in it, and the codewords that RS-FEC corrected
and could not correct since the last such report. -/
structure Coding where
  errors : Bool := false
  fec : Nat × Nat := (0, 0)
  deriving DecidableEq, Repr

/-! ### Host memory structures -/

/-- A DMA channel's descriptor (Table 17-1), field by field; `count` fields hold count − 1, `tail` is bytes 48–63. -/
structure DmDesc where
  src : Nat := 0
  dst : Nat := 0
  srcStep0 : Int := 0
  srcStep1 : Int := 0
  srcStep2 : Int := 0
  dstStep0 : Int := 0
  dstStep1 : Int := 0
  dstStep2 : Int := 0
  count0 : Nat := 0
  count1 : Nat := 0
  count2 : Nat := 0
  elem : Nat := 0
  space : Nat := 0
  tail : Nat := 0
  deriving DecidableEq, Repr

/-- A transmit descriptor (Table 17-5); `clean` says whether its reserved bytes and bits are 0. -/
structure TxDesc where
  buf : Nat
  len : Nat
  mode : Nat := 0
  tag : Nat := 0
  ref : Nat := 0
  clean : Bool := true
  deriving DecidableEq, Repr

/-- A key command (Table 19-7); `clean` says whether its reserved bytes are 0. -/
structure KeyCmd where
  magic : Nat
  op : Nat
  slot : Nat
  authSlot : Nat
  serial : Nat
  challenge : Nat
  newHash : Nat
  authPubkey : Nat
  signature : Nat
  clean : Bool := true
  deriving DecidableEq, Repr

/-- A ROM patch record of the vendor, of which the spec names only these parts (R404). -/
structure PatchRec where
  build : Nat
  revision : Nat
  level : Nat
  pubkey : Nat
  content : List Nat
  signature : Nat
  deriving DecidableEq, Repr

/-- What host memory holds for a request that a register write starts: an image and whether it could be read, a nonce, a key
command, a patch record, or nothing that could be read. -/
inductive HostInput where
  | nothing
  | image (i : Image)
  | nonce (v : Nat)
  | key (b : List Byte)
  | patch (p : PatchRec)
  deriving DecidableEq, Repr

end Sys2Proof
end

