-- ==== Sys2Proof/Syntax.lean ====
section
/-! DEFINITION. The commands: one constructor for each row of the opcode table, in the table's order, with the rule of the
spec that its row names.  The meaning of each, and what its operands stand for, is the `exec` definition of the same name
(Machine/Dispatch.lean).  An action instruction names the die, pipe and engine on which it issues. -/

namespace Sys2Proof

/-- A command to the block. -/
inductive Instr where
  /-- VAUX33_APPLY (R318). -/
  | vaux33Apply
  /-- VAUX33_LOSS (R318). -/
  | vaux33Loss
  /-- VIN12_RISE (R317). -/
  | vin12Rise
  /-- PWR_GOOD_RELEASE (R319). -/
  | pwrGoodRelease (straps : BitVec 8)
  /-- VIN12_LOW_RESET (R317). -/
  | vin12LowReset
  /-- VIN12_RESTART (R317). -/
  | vin12Restart (straps : BitVec 8)
  /-- VIN12_SAG_ALARM (R317). -/
  | vin12SagAlarm (mv : BitVec 64)
  /-- PORST_N_LOW (R319). -/
  | porstNLow
  /-- PORST_N_GLITCH (R319). -/
  | porstNGlitch (ns : BitVec 32)
  /-- PORST_N_RELEASE (R330). -/
  | porstNRelease (straps : BitVec 8)
  /-- ROM_PHASE_COMPLETE (R326). -/
  | romPhaseComplete (sfdp : Option Bool) (readA readB : Bool)
  /-- CONTINUE (R325). -/
  | continue_
  /-- BIST_START (R325). -/
  | bistStart
  /-- BIST_END (R325). -/
  | bistEnd (failedPd : BitVec 4) (failedCd : Bool)
  /-- BANK_VERIFY_DONE (R41). -/
  | bankVerifyDone (read : Bool)
  /-- DIE_POWER_UP (R33). -/
  | diePowerUp
  /-- STORYBOARD_LOAD_COMPLETE (R36). -/
  | storyboardLoadComplete
  /-- PERST_N_ASSERT (R320). -/
  | perstNAssert
  /-- PCIE_D3HOT_ENTER (R363). -/
  | pcieD3hotEnter
  /-- RAIL_FAULT (R335). -/
  | railFault (b : Fin 6)
  /-- THERM_ALERT_ASSERT (R332). -/
  | thermAlertAssert (temp : BitVec 8) (hottest : Fin 8)
  /-- THERM_ALERT_RELEASE (R332). -/
  | thermAlertRelease (temp : BitVec 8) (hottest : Fin 8)
  /-- THERMAL_SHUTDOWN (R332). -/
  | thermalShutdown (die : Fin 8) (temp : BitVec 8)
  /-- CUTAWAY_BEGIN (R327). -/
  | cutawayBegin
  /-- CUTAWAY_END (R327). -/
  | cutawayEnd
  /-- CUT_COMPLETE (R323). -/
  | cutComplete
  /-- SPILL_CUT (R328). -/
  | spillCut
  /-- SPILL_RELEASE (R328). -/
  | spillRelease
  /-- SPILL_TEST (R328). -/
  | spillTest
  /-- IM_WRITE_START (R44). -/
  | imWriteStart (idx : Image) (readable : Bool)
  /-- IM_WRITE_ABORT (R46). -/
  | imWriteAbort
  /-- IM_FLASH_OP_COMPLETE (R44). -/
  | imFlashOpComplete (r : FlashEnd)
  /-- LASER_FORCE_OFF (R58). -/
  | laserForceOff (v : Bool)
  /-- LASER_POLL (R59). -/
  | laserPoll (ackW ackE : Bool)
  /-- FIBRE_ENABLE_UPDATE (R59). -/
  | fibreEnableUpdate
  /-- LS_FAULT_FALL (R62). -/
  | lsFaultFall (w e : Option (Byte × Byte))
  /-- GROUP_LIGHT_REACHED (R61). -/
  | groupLightReached (g : Fin 16) (power : BitVec 16)
  /-- GROUP_LIGHT_LOST (R61). -/
  | groupLightLost (g : Fin 16) (power : BitVec 16)
  /-- GROUP_UNLIT_TIMEOUT (R61). -/
  | groupUnlitTimeout (g : Fin 16) (power : BitVec 16)
  /-- GROUP_RELIT (R61). -/
  | groupRelit (g : Fin 16) (power : BitVec 16)
  /-- PORT_ENABLE (R67). -/
  | portEnable (p : LinePort)
  /-- PORT_DISABLE (R67). -/
  | portDisable (p : LinePort)
  /-- PORT_SIGNAL_DETECT (R63). -/
  | portSignalDetect (p : LinePort)
  /-- PORT_LOCKED (R63). -/
  | portLocked (p : LinePort)
  /-- PORT_FAULT_CLEAR (R63). -/
  | portFaultClear (p : LinePort)
  /-- UP_DEBOUNCE_EXPIRE (R63). -/
  | upDebounceExpire (p : LinePort)
  /-- DOWN_CAUSE (R64). -/
  | downCause (p : LinePort) (cause : Fin 9)
  /-- HOLDOFF_EXPIRE (R64). -/
  | holdoffExpire (p : LinePort) (cause : Fin 9)
  /-- DOWN_CAUSE_CLEAR (R63). -/
  | downCauseClear (p : LinePort)
  /-- FP_PORT_ENABLE (R82). -/
  | fpPortEnable (k : FieldPort)
  /-- FP_PORT_DISABLE (R82). -/
  | fpPortDisable (k : FieldPort)
  /-- FPHY_INT_FALL (R82). -/
  | fphyIntFall
  /-- FRAME_HEAD_ARRIVAL (R18). -/
  | frameHeadArrival (p : Port) (head : List Byte) (back : Nat) (slow : Fin 8) (read : List BadWord)
  /-- ILLEGAL (R149). -/
  | illegal (n : Die) (p : Fin 4) (e : Fin 16)
  /-- NOP (R149). -/
  | nop (n : Die) (p : Fin 4) (e : Fin 16)
  /-- ADD (R149). -/
  | add (n : Die) (p : Fin 4) (e rd ra rb : Fin 16)
  /-- SUB (R149). -/
  | sub (n : Die) (p : Fin 4) (e rd ra rb : Fin 16)
  /-- AND (R149). -/
  | and (n : Die) (p : Fin 4) (e rd ra rb : Fin 16)
  /-- OR (R149). -/
  | or (n : Die) (p : Fin 4) (e rd ra rb : Fin 16)
  /-- XOR (R149). -/
  | xor (n : Die) (p : Fin 4) (e rd ra rb : Fin 16)
  /-- SHL (R149). -/
  | shl (n : Die) (p : Fin 4) (e rd ra rb : Fin 16)
  /-- SHR (R149). -/
  | shr (n : Die) (p : Fin 4) (e rd ra rb : Fin 16)
  /-- ADDI (R149). -/
  | addi (n : Die) (p : Fin 4) (e rd ra : Fin 16) (imm : BitVec 18)
  /-- ANDI (R149). -/
  | andi (n : Die) (p : Fin 4) (e rd ra : Fin 16) (imm : BitVec 18)
  /-- ORI (R149). -/
  | ori (n : Die) (p : Fin 4) (e rd ra : Fin 16) (imm : BitVec 18)
  /-- XORI (R149). -/
  | xori (n : Die) (p : Fin 4) (e rd ra : Fin 16) (imm : BitVec 18)
  /-- MOVI (R149). -/
  | movi (n : Die) (p : Fin 4) (e rd : Fin 16) (imm : BitVec 18)
  /-- MOVHI (R149). -/
  | movhi (n : Die) (p : Fin 4) (e rd : Fin 16) (imm : BitVec 16)
  /-- SHLI (R149). -/
  | shli (n : Die) (p : Fin 4) (e rd ra : Fin 16) (imm : BitVec 5)
  /-- SHRI (R149). -/
  | shri (n : Die) (p : Fin 4) (e rd ra : Fin 16) (imm : BitVec 5)
  /-- EXT (R149). -/
  | ext (n : Die) (p : Fin 4) (e rd ra : Fin 16) (pos len1 : BitVec 5)
  /-- INS (R149). -/
  | ins (n : Die) (p : Fin 4) (e rd ra : Fin 16) (pos len1 : BitVec 5)
  /-- HLD (R146). -/
  | hld (n : Die) (p : Fin 4) (e rd base rb : Fin 16) (size : Fin 3) (off : BitVec 9)
  /-- HST (R146). -/
  | hst (n : Die) (p : Fin 4) (e rs base rb : Fin 16) (size : Fin 3) (off : BitVec 9)
  /-- INSB (R153). -/
  | insb (n : Die) (p : Fin 4) (e rs base rb : Fin 16) (size : Fin 3) (off : BitVec 9)
  /-- DELB (R153). -/
  | delb (n : Die) (p : Fin 4) (e base rb : Fin 16) (n1 : BitVec 5) (off : BitVec 9)
  /-- CKSUM (R154). -/
  | cksum (n : Die) (p : Fin 4) (e : Fin 16) (mode : Fin 2) (k : Fin 16)
  /-- RTAG (R155). -/
  | rtag (n : Die) (p : Fin 4) (e : Fin 16) (mode : Fin 4) (idx : BitVec 12)
  /-- MRD (R147). -/
  | mrd (n : Die) (p : Fin 4) (e rd : Fin 16) (idx : Byte)
  /-- MWR (R147). -/
  | mwr (n : Die) (p : Fin 4) (e ra : Fin 16) (idx : Byte)
  /-- SETTC (R149). -/
  | settc (n : Die) (p : Fin 4) (e ra : Fin 16) (reg : Bool) (tc : Tc)
  /-- LOOKUP (R149). -/
  | lookup (n : Die) (p : Fin 4) (e : Fin 16)
  /-- REDIR (R157). -/
  | redir (n : Die) (p : Fin 4) (e ra : Fin 16) (reg : Bool) (port : Byte)
  /-- GROUP (R149). -/
  | group (n : Die) (p : Fin 4) (e : Fin 16) (slot : BitVec 12)
  /-- DROP (R149). -/
  | drop (n : Die) (p : Fin 4) (e : Fin 16)
  /-- TOHOST (R158). -/
  | tohost (n : Die) (p : Fin 4) (e : Fin 16) (copy : Bool) (code : Byte)
  /-- MIRROR (R158). -/
  | mirror (n : Die) (p : Fin 4) (e : Fin 16) (slot : BitVec 12)
  /-- METER (R150). -/
  | meter (n : Die) (p : Fin 4) (e rd : Fin 16) (slot : BitVec 12)
  /-- COUNT (R156). -/
  | count (n : Die) (p : Fin 4) (e ra : Fin 16) (slot : BitVec 12)
  /-- BEQ (R149). -/
  | beq (n : Die) (p : Fin 4) (e ra rb : Fin 16) (off : BitVec 14)
  /-- BNE (R149). -/
  | bne (n : Die) (p : Fin 4) (e ra rb : Fin 16) (off : BitVec 14)
  /-- BLT (R149). -/
  | blt (n : Die) (p : Fin 4) (e ra rb : Fin 16) (off : BitVec 14)
  /-- BGE (R149). -/
  | bge (n : Die) (p : Fin 4) (e ra rb : Fin 16) (off : BitVec 14)
  /-- BEQI (R149). -/
  | beqi (n : Die) (p : Fin 4) (e ra : Fin 16) (imm : BitVec 14) (off : Byte)
  /-- BNEI (R149). -/
  | bnei (n : Die) (p : Fin 4) (e ra : Fin 16) (imm : BitVec 14) (off : Byte)
  /-- BBS (R149). -/
  | bbs (n : Die) (p : Fin 4) (e ra : Fin 16) (bit : BitVec 5) (off : Byte)
  /-- BBC (R149). -/
  | bbc (n : Die) (p : Fin 4) (e ra : Fin 16) (bit : BitVec 5) (off : Byte)
  /-- JMP (R149). -/
  | jmp (n : Die) (p : Fin 4) (e : Fin 16) (off : BitVec 14)
  /-- JTAB (R149). -/
  | jtab (n : Die) (p : Fin 4) (e ra : Fin 16) (top : Byte)
  /-- EXIT (R159). -/
  | exit (n : Die) (p : Fin 4) (e : Fin 16)
  /-- ACTION_HANDOFF (R141). -/
  | actionHandoff (p : Port)
  /-- REPLICATE (R208). -/
  | replicate (n : Die)
  /-- SERVICE_CHANNEL_ENTRY (R129). -/
  | serviceChannelEntry (p : Port) (meets : Entered)
  /-- FP_BP_REPEAT (R85). -/
  | fpBpRepeat (k : FieldPort)
  /-- CELL_WRITTEN (R200). -/
  | cellWritten (p : Port) (more : Arrived)
  /-- FRAME_TAIL_END (R71). -/
  | frameTailEnd (p : Port) (rest : Arrived) (fcsOk octets : Bool) (code : Coding) (falseCarrier : Bool)
  /-- PFC_PAUSE_EXPIRE (R78). -/
  | pfcPauseExpire (p : Port) (c : Tc)
  /-- PFC_HELD_100MS (R78). -/
  | pfcHeld100ms (p : Port) (c : Tc)
  /-- PFC_TRANSMIT (R79). -/
  | pfcTransmit (p : Port)
  /-- PFC_REPEAT (R79). -/
  | pfcRepeat (p : LinePort)
  /-- ONE_SECOND_INTERVAL_END (R80). -/
  | oneSecondIntervalEnd (n : Isl)
  /-- FP_COLLISION (R83). -/
  | fpCollision (p : FieldPort) (late : Bool)
  /-- FP_BACKOFF_EXPIRE (R83): the port, and whether it senses carrier. -/
  | fpBackoffExpire (x : FieldPort × Bool)
  /-- GRAPH_WORD_RELOAD (R105). -/
  | graphWordReload (n : Die) (addr : Nat)
  /-- CL_WORD_REWRITE (R118). -/
  | clWordRewrite (b : BadWord)
  /-- PROGRAM_WORD_RELOAD (R164). -/
  | programWordReload (n : Die) (addr : Nat)
  /-- STATIC_ENTRY_REWRITE (R183). -/
  | staticEntryRewrite (n : Die) (idx : Nat)
  /-- MEMORY_SCRUB_PASS (R118). -/
  | memoryScrubPass (n : Die) (found : List BadWord)
  /-- TABLE_SCRUB_PASS (R183). -/
  | tableScrubPass (n : Die) (found : List BadWord)
  /-- CFG_SCRUB_PASS (R350). -/
  | cfgScrubPass (w : Fin 8) (bad : List (BitVec 22))
  /-- LEARN_QUEUE_APPLY (R176). -/
  | learnQueueApply (n : Die)
  /-- SWEEPER_VISIT (R180). -/
  | sweeperVisit (n : Die) (idx : Nat)
  /-- FLUSH_NOTICE (R182). -/
  | flushNotice (n : Die) (p : Nat)
  /-- FW_FLUSH_START (R182). -/
  | fwFlushStart (n : Die) (port : BitVec 8) (fid : BitVec 14) (byPort byFid : Bool)
  /-- FW_FLUSH_COMPLETE (R182). -/
  | fwFlushComplete (n : Die)
  /-- FW_PRP_CTL_WRITE (R188). -/
  | fwPrpCtlWrite (n : Die) (slot : Fin 32) (mode lan : Fin 4) (pair : Fin 32) (seq : BitVec 12)
  /-- DUP_FORGET (R191). -/
  | dupForget (n : Die) (src : Nat)
  /-- STREAM_RESET (R193). -/
  | streamReset (n : Die) (id : Nat)
  /-- CELL_TIME (R205). -/
  | cellTime (n : Die)
  /-- TOKEN_EXPIRE (R204). -/
  | tokenExpire (n : Die) (o : Fin 129) (c : Tc)
  /-- HEAD_SCAN (R209). -/
  | headScan (n : Die)
  /-- HOLD_EXPIRE (R212). -/
  | holdExpire (q : Port) (c : Tc)
  /-- FABRIC_CELL_RECEIVE (R215). -/
  | fabricCellReceive (a b : Die) (k : Fin 48) (crcOk : Bool)
  /-- FABRIC_CELL_MISSING (R280). -/
  | fabricCellMissing (a b : Die)
  /-- FRAME_TRANSMIT_START (R222). -/
  | frameTransmitStart (q : Port) (carrier : Bool)
  /-- FRAME_TRANSMIT_END (R130). -/
  | frameTransmitEnd (q : Port)
  /-- GATE_CONFIG_CHANGE (R228). -/
  | gateConfigChange (q : LinePort)
  /-- GATE_LIST_OPERATIONAL (R228). -/
  | gateListOperational (q : LinePort)
  /-- GATE_ENTRY_ADVANCE (R227). -/
  | gateEntryAdvance (q : LinePort)
  /-- GATE_EN_WRITE (R229). -/
  | gateEnWrite (q : LinePort) (en : Bool)
  /-- MIRROR_DEFER_RELEASE (R240). -/
  | mirrorDeferRelease (n : Die) (m : Fin 16)
  /-- DEFERRAL_AGE_SCAN (R240). -/
  | deferralAgeScan (n : Die)
  /-- TK_OPEN (R135). -/
  | tkOpen (at_ : Bool) (timeout : BitVec 16)
  /-- TK_COMMIT (R135). -/
  | tkCommit (at_ : Bool) (timeout : BitVec 16)
  /-- TK_ABORT (R135). -/
  | tkAbort (at_ : Bool) (timeout : BitVec 16)
  /-- COMMIT_ACTIVATE (R132). -/
  | commitActivate
  /-- COMMIT_SEAL (R132). -/
  | commitSeal
  /-- COMMIT_TIMEOUT (R133). -/
  | commitTimeout
  /-- TAKE_SWITCH (R132). -/
  | takeSwitch (n : Die)
  /-- COMMIT_CONFIRM (R132). -/
  | commitConfirm
  /-- TAKE_RETIRE (R131). -/
  | takeRetire (t : Fin 16)
  /-- RECLAIM_COMPLETE (R131). -/
  | reclaimComplete (t : Fin 16)
  /-- CL_TREE_REBUILD (R121). -/
  | clTreeRebuild (n : Die)
  /-- TREE_STAGE_COMPLETE (R121). -/
  | treeStageComplete (n : Die) (how : TreeEnd) (pct : Fin 101)
  /-- PL_TAIL_WRITE (R246). -/
  | plTailWrite (tail : BitVec 12)
  /-- PL_CTL_WRITE (R246). -/
  | plCtlWrite (enable : Bool) (log2 : Fin 16)
  /-- INTENT_CREATE (R247): the halves of the descriptor (Table 11-2), whether its payload can be read, and the payload. -/
  | intentCreate (ask result : List Byte) (readable : Bool) (payload : List Byte)
  /-- INTENT_MODIFY (R247). -/
  | intentModify (desc : List Byte) (payload : Option (List Byte))
  /-- INTENT_DELETE (R247). -/
  | intentDelete (desc : List Byte) (payload : Option (List Byte))
  /-- INTENT_ADD (R247). -/
  | intentAdd (ask result : List Byte) (readable : Bool) (payload : List Byte)
  /-- INTENT_CHANGE (R247). -/
  | intentChange (ask result : List Byte) (readable : Bool) (payload : List Byte)
  /-- INTENT_REMOVE (R247). -/
  | intentRemove (desc : List Byte) (readable : Bool) (payload : List Byte)
  /-- INTENT_BIND (R247). -/
  | intentBind (desc : List Byte) (payload : Option (List Byte))
  /-- INTENT_WHERE (R253). -/
  | intentWhere (desc : List Byte) (readable : Bool) (payload : List Byte)
  /-- INTENT_ROOM_TIMEOUT (R249). -/
  | intentRoomTimeout
  /-- SEQUENCER_MOVE (R252). -/
  | sequencerMove (m : SeqMove)
  /-- COPY_SLOT_MEASURE (R251). -/
  | copySlotMeasure (n : Die) (h : Nat)
  /-- TIME_TICK (R258). -/
  | timeTick (n : Isl)
  /-- CLAPPER_PULSE (R261). -/
  | clapperPulse (hear : BitVec 4) (inp : HostInput)
  /-- CLAPPER_MISSED (R261). -/
  | clapperMissed (n : Die)
  /-- TM_INC_WRITE (R258). -/
  | tmIncWrite (v : BitVec 40)
  /-- TM_SET_WRITE (R263). -/
  | tmSetWrite (v : BitVec 64)
  /-- TM_ADJ_WRITE (R263). -/
  | tmAdjWrite (v : BitVec 64)
  /-- TIMECLK_LOSS (R260). -/
  | timeclkLoss
  /-- TIMECLK_RETURN (R260). -/
  | timeclkReturn
  /-- TA_ARM (R271). -/
  | taArm (index : BitVec 8) (kind : Fin 16)
  /-- TA_CANCEL (R273). -/
  | taCancel (index : BitVec 8) (kind : Fin 16)
  /-- TA_DISPATCH (R272). -/
  | taDispatch (idx : BitVec 8)
  /-- TA_RUN (R272). -/
  | taRun (idx : BitVec 8) (inp : HostInput)
  /-- PPS_OUT_SECOND (R274). -/
  | ppsOutSecond
  /-- PPS_WIDTH_END (R274). -/
  | ppsWidthEnd
  /-- PPS_IN_EDGE (R275). -/
  | ppsInEdge
  /-- TM_SNAP (R275). -/
  | tmSnap (mode : Fin 4) (inEn : Bool) (width : BitVec 20)
  /-- LANE_PARK_WINDOW (R282). -/
  | laneParkWindow (a b : Die)
  /-- LANE_EXIT_END (R283). -/
  | laneExitEnd (a b : Die) (k : Fin 48) (margin : Byte)
  /-- LANE_LONG_EXIT_END (R283). -/
  | laneLongExitEnd (a b : Die) (k : Fin 48) (margin : Byte)
  /-- DRIFT_CHECK (R284). -/
  | driftCheck (n : Isl) (ms : List (Nat × Nat × Byte))
  /-- LANE_LOCK_LOST (R280). -/
  | laneLockLost (a b : Die) (k : Fin 48)
  /-- LANE_PEER_NOTICE (R279). -/
  | lanePeerNotice (a b : Die) (k : Fin 48)
  /-- LANE_DRAIN_COMPLETE (R280). -/
  | laneDrainComplete (a b : Die) (k : Fin 48)
  /-- LANE_CALIBRATION_DONE (R281). -/
  | laneCalibrationDone (a b : Die) (k : Fin 48) (marginA marginB : Byte)
  /-- LANE_QUALIFY_DONE (R281). -/
  | laneQualifyDone (a b : Die) (k : Fin 48) (marginA marginB : Byte) (blockError : Bool)
  /-- FB_LANE_OUT (R286). -/
  | fbLaneOut (a b : Die) (k : Fin 48) (out : Bool)
  /-- FB_LANE_CALIBRATE (R291). -/
  | fbLaneCalibrate (a b : Die) (k : Fin 48)
  /-- LN_TEST_START (R290). -/
  | lnTestStart (l : LaneId) (source : Fin 8) (loopback : Fin 4) (duration : BitVec 16)
  /-- LN_TEST_STOP (R290). -/
  | lnTestStop (l : LaneId) (bits errors syncs : Counts)
  /-- LN_TEST_CLEAR (R290). -/
  | lnTestClear (l : LaneId)
  /-- LN_INJECT (R289). -/
  | lnInject (l : LaneId) (kind : Fin 4) (len : BitVec 7) (count : BitVec 16) (looped : Bool)
  /-- LN_TEST_DURATION_END (R290). -/
  | lnTestDurationEnd (l : LaneId) (bits errors syncs : Counts)
  /-- DUO_EVAL (R305). -/
  | duoEval (peer own : Bool)
  /-- CLAIM_CHECK (R305). -/
  | claimCheck (edge : Bool)
  /-- INIT_TIMEOUT (R296). -/
  | initTimeout
  /-- HEALTH_BEACON (R298). -/
  | healthBeacon (k : Fin 7)
  /-- HW_WDOG_EXPIRE (R298). -/
  | hwWdogExpire (k : Fin 7)
  /-- SW_WDOG_EXPIRE (R298). -/
  | swWdogExpire
  /-- DU_FEED (R298). -/
  | duFeed
  /-- DU_CLAIM (R305). -/
  | duClaim
  /-- DU_RELEASE (R307). -/
  | duRelease
  /-- DU_CLEAR_FAULT (R296). -/
  | duClearFault
  /-- HEARTBEAT_SEND (R303). -/
  | heartbeatSend
  /-- HEARTBEAT_RECEIVE (R303). -/
  | heartbeatReceive (lane : Fin 4) (seq : BitVec 16) (crcOk : Bool) (role : Fin 5) (elig sees good : Bool)
      (cause : Fin 5) (take : Fin 16) (commits : BitVec 64)
  /-- TIME_MSG_RECEIVE (R304). -/
  | timeMsgReceive (lane : Fin 4) (seq : BitVec 16) (crcOk : Bool) (t1 : BitVec 96) (echo : Option (BitVec 96 × BitVec 96))
  /-- TAKE_MSG_RECEIVE (R308). -/
  | takeMsgReceive (lane : Fin 4) (seq : BitVec 16) (crcOk : Bool) (take : Fin 16) (at_ count : BitVec 64)
  /-- TAKE_REQUEST_RECEIVE (R308). -/
  | takeRequestReceive (lane : Fin 4) (seq : BitVec 16) (crcOk : Bool)
  /-- RELEASE_MSG_RECEIVE (R307). -/
  | releaseMsgReceive (lane : Fin 4) (seq : BitVec 16) (crcOk : Bool)
  /-- CT_LINK_LOST (R303). -/
  | ctLinkLost
  /-- CT_LINK_UP (R303). -/
  | ctLinkUp (k : Fin 4)
  /-- REGISTER_WRITE (R341). -/
  | registerWrite (a : BitVec 28) (data : BitVec 64) (form : AccForm) (inp : HostInput)
  /-- RC_READ (R341). -/
  | rcRead (a : BitVec 28) (form : AccForm)
  /-- WMB_READ (R345). -/
  | wmbRead (w : Fin 16)
  /-- WMB_WRITE (R346). -/
  | wmbWrite (w : Fin 16)
  /-- WMB_D3_READ (R345). -/
  | wmbD3Read (w : Fin 16)
  /-- ERRLOG_CLEAR (R349). -/
  | errlogClear
  /-- IRQ_ENABLE_WRITE (R352). -/
  | irqEnableWrite (hi : Bool) (v : BitVec 32)
  /-- DM_START (R356). -/
  | dmStart (k : Fin 16) (irq : Bool) (limit : Fin 8)
  /-- DM_ABORT (R363). -/
  | dmAbort (k : Fin 16) (irq : Bool) (limit : Fin 8)
  /-- DM_DESC_FETCH_DONE (R359). -/
  | dmDescFetchDone (k : Fin 16) (desc : List Byte)
  /-- DM_ACCESS_COMPLETE (R357). -/
  | dmAccessComplete (k : Fin 16) (data : List Byte) (inp : HostInput)
  /-- DM_ACCESS_FAIL (R361). -/
  | dmAccessFail (k : Fin 16) (how : Fin 3) (inp : HostInput)
  /-- DM_RETRY (R361). -/
  | dmRetry (k : Fin 16)
  /-- DM_HOST_READ_TIMEOUT (R361). -/
  | dmHostReadTimeout (k : Fin 16) (inp : HostInput)
  /-- DM_RING_CTL_WRITE (R419). -/
  | dmRingCtlWrite (c : Option Tc) (v : BitVec 32)
  /-- DM_TX_TAIL_WRITE (R365). -/
  | dmTxTailWrite (c : Tc) (tail : BitVec 12)
  /-- DM_TX_FRAME (R365). -/
  | dmTxFrame (desc : List Byte) (data : Option (List Byte)) (meets : Entered)
  /-- DM_RX_TAIL_WRITE (R367). -/
  | dmRxTailWrite (tail : BitVec 12)
  /-- DM_RX_RECORD (R367). -/
  | dmRxRecord (buf : BitVec 64)
  /-- OB_SNAP (R372). -/
  | obSnap (n : Die) (slot : Fin 32)
  /-- BW_WINDOW_END (R374). -/
  | bwWindowEnd (q : LinePort)
  /-- RECORD_DELIVER (R384). -/
  | recordDeliver
  /-- SUMMARY_RAISE (R386). -/
  | summaryRaise (r : Isl)
  /-- INCIDENT_END (R388). -/
  | incidentEnd (r : Isl)
  /-- OB_TRIGGER (R388). -/
  | obTrigger (r : Isl)
  /-- FTB_RELEASE (R389). -/
  | ftbRelease (r : Isl)
  /-- OB_FATAL (R391). -/
  | obFatal
  /-- OB_D_RPTR_WRITE (R383). -/
  | obDRptrWrite (v : BitVec 20)
  /-- HOST_RING_FULL_1MS (R383). -/
  | hostRingFull1ms
  /-- SC_READ_SLATE (R399). -/
  | scReadSlate
  /-- SC_QUOTE (R400). -/
  | scQuote (nonce : Option (BitVec 512))
  /-- SC_GET_CHALLENGE (R401). -/
  | scGetChallenge
  /-- SC_KEY_COMMAND (R402). -/
  | scKeyCommand (k : Option (List Byte))
  /-- SC_ADVANCE_ROLLBACK (R403). -/
  | scAdvanceRollback
  /-- SC_APPLY_PATCH (R404). -/
  | scApplyPatch (p : Option PatchRec)
  /-- SC_REQUEST_DONE (R398). -/
  | scRequestDone (otpOk : Bool)
  /-- CHALLENGE_EXPIRE (R401). -/
  | challengeExpire
  /-- PERST_N_DEASSERT (R320). -/
  | perstNDeassert
  /-- PCIE_D3HOT_EXIT (R338). -/
  | pcieD3hotExit
  /-- LS_FAULT_N_RISE (R62). -/
  | lsFaultNRise
  /-- FPHY_INT_N_RISE (R82). -/
  | fphyIntNRise
  /-- LN_CHECKER_LOCK (R287): the lane, and the bits received. -/
  | lnCheckerLock (x : LaneId × List Bool)
  /-- LN_CHECKER_LOCK_LOST (R287): the lane, and the errors found within 64 bits. -/
  | lnCheckerLockLost (x : LaneId × Fin 65)
  /-- CT_LANE_LOCK_LOST (R303). -/
  | ctLaneLockLost (k : Fin 4)
  /-- INTENT_RECLAIM_WAIT_1MS (R255). -/
  | intentReclaimWait1ms
  /-- OPTICAL_POWER_CALIBRATION (R291). -/
  | opticalPowerCalibration (slot : LinePort) (tx rx : BitVec 16)
  deriving DecidableEq, Repr

end Sys2Proof
end

