-- ==== Sys2Proof/Config.lean ====
section
/-! DEFINITION. What an implementation fixes and the spec does not state: free values.  Each is an opaque constant without
a body, so that no proof can see its value; the assumption log names each. -/

namespace Sys2Proof.Config

/-- The sections that the body bytes of an image spell, but for the overlay: the spec does not give their binary form
(R39). -/
opaque sections : List Byte → Storyboard

/-- The ROM image of the factory storyboard, byte by byte (R42, R47). -/
opaque romImage : List Byte

/-- SHAKE256 with 64-byte output of a string of bytes (FIPS 202, by the standard's name only). -/
opaque shake256 : List Nat → Nat

/-- Whether an SLH-DSA-SHAKE-256s signature of the first 0xA0 bytes of an image header verifies (FIPS 205). -/
opaque headerVerifies : ImgHeader → List Byte → Bool

/-- Whether an SLH-DSA-SHAKE-256s signature over a string of bytes verifies under a public key (FIPS 205). -/
opaque sigVerifies : Nat → List Nat → Nat → Bool

/-- The word a program memory read with bad parity shows, by the die and the word; the spec states no value there (R165). -/
opaque badProgWord : Nat → Nat → BitVec 32

/-- The draws that the spec leaves to chance: the n-th value, reduced to its range where it is used. -/
opaque draw : Nat → Nat

/-- The copy slot that the sequencer's plan for a die gives a copy of a multicast group: by the die, the group's handle,
the number of times it was re-planned, and the place of the copy (R251, Table 11-7). -/
opaque copyPlan : Nat → Nat → Nat → Nat → Nat

/-- The first index of room that an object holds in a memory whose allocation the spec does not give: by the memory code,
the die, the handle and the record (Table 11-9). -/
opaque roomAt : Nat → Nat → Nat → Nat → Nat

/-- The nodes that the trees of a group hold in a die's half, by the die and the handle (Table 11-9). -/
opaque nodeRun : Nat → Nat → Nat

/-- BASE_MAC of the device's slate, written at the factory (R89, R399). -/
opaque baseMac : Nat

/-- SERIAL of the slate, written at the factory (R399). -/
opaque serial : Nat

/-- The identity public key, generated from the identity seed (R395, R397). -/
opaque identityPubkey : Nat

/-- The device certificate, written at the factory (Table 19-4). -/
opaque deviceCert : List Byte

/-- The CA certificate in ROM (R399). -/
opaque caCert : List Byte

/-- The vendor root hash, written at the factory (Table 19-2). -/
opaque vendorRootHash : Nat

/-- The ROM build that runs (Table 19-4). -/
opaque romBuild : BitVec 16

/-- The SLH-DSA-SHAKE-256f signature of a quote's bytes by the identity key, byte by byte (R400). -/
opaque quoteSignature : List Byte → Nat → Byte

/-- The code that refuses a patch record which names another ROM build or revision, or no higher level; the spec gives none
(R404, Table 19-5). -/
opaque patchRefusal : Nat

/-- The number of an OTP item in event 0x0F06, by its row of Table 19-2; the spec gives none (Table 19-9). -/
opaque otpItem : Nat → BitVec 8

/-- The n-th challenge that the entropy source draws (R401). -/
opaque challenge : Nat → BitVec 256

/-- What a field that lies past the end of its frame reads, by its byte offset; the spec states no value there. -/
opaque pastEnd : Nat → Byte

/-- RX_DELAY of a line lane slot for a rate in Mb/s, measured at the factory, in 1/16 ns (R68). -/
opaque rxDelay : Nat → Nat → BitVec 16

/-- TX_DELAY of a line lane slot for a rate in Mb/s, measured at the factory, in 1/16 ns (R68). -/
opaque txDelay : Nat → Nat → BitVec 16

/-- What a mailbox read of an address entry with bad parity shows; the spec states no value there (R183, R194). -/
opaque badEntry : Nat → BitVec 128

/-- The n-th measurement that the PW shows of its input (R336). -/
opaque measured : Nat → BitVec 64

/-- The KIND that AE_BIND shows of a slot bound to an object of another kind than the five it names (R166). -/
opaque otherKind : Nat → BitVec 3

/-- The n-th counts of a checker whose test something else than the test ends (R290). -/
opaque checked : Nat → Checked

/-- What PHASE_ERR shows of a phase error that its 16 bits do not hold; the spec states no value there (R261). -/
opaque phaseClip : Int → BitVec 16

/-- What a standby writes to TM_INC for an offset from its peer, in 1/16 ns, and the value in force; the spec does not give
the law of its steering (R304). -/
opaque steerInc : Int → Nat → BitVec 40

end Sys2Proof.Config
end

