-- ==== Sys2Proof/Machine/RegMap.lean ====
section
/-! DEFINITION. The register map: every register of the BAR0 windows with the addresses its map line gives
(R339, Tables 16-2 to 16-4, 13-5), and every field with its bits, access type, default and source (R7, R8,
Tables 0-4). The names are those of the spec's map lines and field tables. -/

namespace Sys2Proof.Machine

/-- Windows that hold a register (Table 16-2): the CD, a pipeline die, an optical engine, the PW, or every window. -/
inductive WinKind where
  | cd | pd | oe | pw | all
  deriving DecidableEq, Repr

/-- Access types of Table 0-4.  RO is kept for HI_ID.REVISION; LK, WO and W1S are defined by the spec and used by
no field of it. -/
inductive Access where
  | rw | ro | w1c | w1s | rc | sc | hu | lk | wo
  deriving DecidableEq, Repr

/-- The registers, one constructor for each map line's name. -/
inductive Reg where
  | imBootStatus | imBootSeq | imWriteCtl | imWriteLen | imWriteStatus | imOverlayStatus
  | dvLaserCtl | ptPortCtl | ptPortStatus | lnTsDelay | lnTsTrim | opReach
  | opFibreStatus | opLanePower | ptMacCtl | ptPfcCtl | ptMacThresh | ptPfcStatus
  | fpPortCtl | fpPortStatus | fpStatus | psPortCtl | psPortStatus | psMalAction
  | psMalMirror | psStatus | tkCtl | tkStatus | clPortCtl | clPipeStatus
  | clInspectStatus | clInspectPorts | clInspectUse | clTreeCtl | tkInflight | aeCtl
  | aeStatus | aeFaultLast | fwCtl | fwStatus | fwFlush | fwReadIndex
  | fwDupCtl | fwPortCtl | fwPrpCtl | swCtl | swStatus | swClassCtl
  | swClassVoq | swAgeLimit | swPortCtl | swHoldLo | swHoldHi | swPortStatus
  | egClassMap | egSched | egWeight | egCbs | egMaxrate | egGateCtl
  | egGateStatus | poStorm | poStormTypes | poHostCir | poHostPir | poReadHandle
  | miSession | plCtl | plHead | plTail | plStatus | tmCtl
  | tmStatus | tmTaCtl | tmTaArg | tmTaMask | tmTaValue | tmTaStatus
  | tmTaEntry | tmDieStatus | tmCapStatus | tmPortPtp | fbLaneCtl | fbLaneStatus
  | fbLinkCtl | fbLinkStatus | fbCtl | lnTestCtl | lnInjCtl | lnTestStatus
  | dvBistCtl | duCtl | duStatus | duCtTrim | btStraps | btSceneStatus
  | btBootCtl | btCutawayCtl | btResetCause | dvTherm | dvFaultCtl | pwStatus
  | hiId | hiErrlogStatus | hiParityStatus | hiIrqCauseLo | hiIrqCauseHi | hiIrqEnableLo
  | hiIrqEnableHi | wmbSel | wmbCtl | wmbD | dmChCtl | dmChStatus
  | dmChIndex | dmChIndex2 | dmRxCtl | dmTxCtl | dmRxPtr | dmTxPtr
  | obPmcCtl | obPmcStatus | obPmcSel | obBwCtl | obSampleCtl | obSampleStatus
  | obSnapCtl | obIncCtl | obRingStatus | obDCtl | obDWptr | obDRptr
  | obAlarmSummary | obFatal | scCmd | scStatus | scOtpStatus | msixTable
  | msixPba
  deriving DecidableEq, Repr

/-- The fields, named REGISTER.FIELD in the spec.  Reserved bits are no field: they read 0 (R9). -/
inductive Fld where
  | imBootStatus_bank | imBootStatus_aResult | imBootStatus_bResult | imBootSeq_seq | imWriteCtl_start
  | imWriteCtl_abort | imWriteLen_len | imWriteStatus_state | imWriteStatus_target | imWriteStatus_code
  | imWriteStatus_progress | imOverlayStatus_applied | imOverlayStatus_rejected | dvLaserCtl_forceOff | dvLaserCtl_lsEnState
  | dvLaserCtl_lsFault | dvLaserCtl_lsFaultSticky | dvLaserCtl_addrW | dvLaserCtl_addrE | ptPortCtl_enable
  | ptPortCtl_upDebounce | ptPortCtl_downHoldoff | ptPortStatus_state | ptPortStatus_speed | ptPortStatus_fec
  | ptPortStatus_lastCause | ptPortStatus_downCount | lnTsDelay_rxDelay | lnTsDelay_txDelay | lnTsTrim_rxTrim
  | lnTsTrim_txTrim | opReach_lr | opReach_lit | opFibreStatus_inputPower | opFibreStatus_dark
  | opFibreStatus_darkSticky | opLanePower_txPower | opLanePower_rxPower | ptMacCtl_maxlen | ptPfcCtl_txEn
  | ptPfcCtl_rxEn | ptPfcCtl_quanta | ptMacThresh_thresh | ptMacThresh_exceededSticky | ptPfcStatus_txXoff
  | ptPfcStatus_rxPaused | fpPortCtl_enable | fpPortCtl_speed | fpPortCtl_duplex | fpPortCtl_bpEn
  | fpPortCtl_thresh | fpPortCtl_maxlen | fpPortStatus_up | fpPortStatus_bpActive | fpPortStatus_exceededSticky
  | fpStatus_phyInt | fpStatus_phyIntSticky | psPortCtl_startType | psPortCtl_padLimit | psPortCtl_thresh
  | psPortStatus_lastReason | psPortStatus_malformedSticky | psPortStatus_exceededSticky | psMalAction_action | psMalAction_tc
  | psMalAction_trace | psMalMirror_handle | psStatus_graphParitySticky | psStatus_noSessionSticky | tkCtl_open
  | tkCtl_commit | tkCtl_abort | tkCtl_at | tkCtl_timeout | tkStatus_current
  | tkStatus_drainOld | tkStatus_drainNew | tkStatus_live | tkStatus_batchOpen | tkStatus_waiting
  | tkStatus_code | tkStatus_late | clPortCtl_missEntry | clPortCtl_parityDrop | clPipeStatus_slotsUsed
  | clPipeStatus_paritySticky | clPipeStatus_rateSticky | clInspectStatus_window | clInspectStatus_treeHalf | clInspectStatus_patternBank
  | clInspectStatus_build | clInspectStatus_scanWaitSticky | clInspectStatus_treeParitySticky | clInspectPorts_ports | clInspectUse_ruleUnits
  | clInspectUse_nodePct | clTreeCtl_rebuild | clTreeCtl_patterns | tkInflight_count | aeCtl_budget
  | aeCtl_badEntryAction | aeCtl_trace | aeStatus_rateSticky | aeStatus_paritySticky | aeStatus_faultSticky
  | aeStatus_programs | aeFaultLast_addr | aeFaultLast_cause | aeFaultLast_prog | fwCtl_learnEn
  | fwCtl_dstRefresh | fwCtl_fillThresh | fwStatus_fill | fwStatus_paritySticky | fwStatus_learnFailSticky
  | fwStatus_fillSticky | fwFlush_port | fwFlush_fid | fwFlush_byPort | fwFlush_byFid
  | fwFlush_start | fwReadIndex_index | fwDupCtl_forget | fwPortCtl_defaultVid | fwPortCtl_learnEn
  | fwPortCtl_sticky | fwPortCtl_ingressFilter | fwPortCtl_flushOnDown | fwPortCtl_violation | fwPortCtl_learnLimit
  | fwPrpCtl_mode | fwPrpCtl_lan | fwPrpCtl_pair | fwPrpCtl_seqIndex | fwPrpCtl_pairErr
  | swCtl_gxoffFree | swStatus_cellsUsed | swStatus_globalXoff | swStatus_bufFullSticky | swStatus_fabricErrSticky
  | swStatus_overrunSticky | swClassCtl_xoff | swClassCtl_xon | swClassVoq_voqLimit | swAgeLimit_limit
  | swPortCtl_cutThrough | swPortCtl_headroom | swHoldLo_tc0 | swHoldLo_tc1 | swHoldLo_tc2
  | swHoldLo_tc3 | swHoldHi_tc4 | swHoldHi_tc5 | swHoldHi_tc6 | swHoldHi_tc7
  | swPortStatus_holding | swPortStatus_discarding | swPortStatus_xoff | swPortStatus_downBp | swPortStatus_overrunSticky
  | egClassMap_pcpMap | egClassMap_defaultTc | egSched_strict | egSched_cbsEn | egSched_maxrateEn
  | egWeight_weight | egCbs_idleSlope | egMaxrate_rate | egMaxrate_burst | egGateCtl_adminLen
  | egGateCtl_configChange | egGateCtl_gateEn | egGateCtl_adminGates | egGateStatus_gates | egGateStatus_operList
  | egGateStatus_code | egGateStatus_entry | poStorm_rate | poStorm_burst | poStormTypes_types
  | poHostCir_cir | poHostCir_cbs | poHostPir_pir | poHostPir_pbs | poReadHandle_handle
  | miSession_handle | plCtl_enable | plCtl_ringLog2 | plHead_head | plTail_tail
  | plStatus_busy | plStatus_waitRoom | plStatus_moving | plStatus_tailErrSticky | plStatus_failSticky
  | plStatus_lastCode | tmCtl_ppsOutMode | tmCtl_ppsInEn | tmCtl_snap | tmCtl_ppsWidth
  | tmStatus_set | tmStatus_stepPending | tmStatus_incPending | tmStatus_timeclkLost | tmStatus_timeclkLostSticky
  | tmStatus_steerIgnoredSticky | tmStatus_aligned | tmTaCtl_index | tmTaCtl_kind | tmTaCtl_arm
  | tmTaCtl_cancel | tmTaArg_arg | tmTaMask_mask | tmTaValue_value | tmTaStatus_code
  | tmTaStatus_index | tmTaStatus_used | tmTaEntry_state | tmTaEntry_kind | tmDieStatus_phaseErr
  | tmDieStatus_missed | tmDieStatus_aligned | tmDieStatus_capOverflowSticky | tmDieStatus_capCount | tmCapStatus_full
  | tmPortPtp_mode | tmPortPtp_transport | fbLaneCtl_out | fbLaneCtl_calibrate | fbLaneStatus_state
  | fbLaneStatus_txIdle | fbLaneStatus_lastCause | fbLaneStatus_removals | fbLinkCtl_policy | fbLinkCtl_minAwake
  | fbLinkCtl_entryUs | fbLinkCtl_minService | fbLinkStatus_inService | fbLinkStatus_awake | fbLinkStatus_belowMinSticky
  | fbLinkStatus_longExitSticky | fbCtl_driftSteps | fbCtl_cellErrLimit | fbCtl_exitSteps | fbCtl_minMargin
  | lnTestCtl_source | lnTestCtl_loopback | lnTestCtl_start | lnTestCtl_stop | lnTestCtl_clear
  | lnTestCtl_duration | lnInjCtl_kind | lnInjCtl_len | lnInjCtl_inject | lnInjCtl_count
  | lnTestStatus_state | lnTestStatus_lock | lnTestStatus_lockLostSticky | lnTestStatus_code | lnTestStatus_margin
  | lnTestStatus_baseline | dvBistCtl_start | dvBistCtl_code | dvBistCtl_failedPd | dvBistCtl_failedCd
  | duCtl_autoClaim | duCtl_claim | duCtl_release | duCtl_feed | duCtl_clearFault
  | duCtl_hwWdogUs | duCtl_swWdogMs | duStatus_duo | duStatus_unit | duStatus_role
  | duStatus_peerClaim | duStatus_claimGood | duStatus_ctUp | duStatus_ctLanes | duStatus_peerSeesClaim
  | duStatus_peerRole | duStatus_timeLocked | duStatus_takeLag | duStatus_faultCause | duStatus_interlockLostSticky
  | duStatus_ctLostSticky | duStatus_contentionSticky | duStatus_splitSticky | duStatus_takeoverSticky | duCtTrim_trim
  | btStraps_unit | btStraps_duoEn | btStraps_pcieRev | btStraps_istoreSize | btStraps_spillEn
  | btStraps_bootHold | btStraps_spare | btSceneStatus_scene | btSceneStatus_cutting | btSceneStatus_spillSticky
  | btSceneStatus_phase | btBootCtl_continue | btBootCtl_spillRelease | btBootCtl_spillTest | btCutawayCtl_maxUs
  | btCutawayCtl_minRunMs | btResetCause_cause | dvTherm_alert | dvTherm_temp | dvTherm_hottest
  | dvTherm_alertActive | dvTherm_alertSticky | dvFaultCtl_alarmEn | dvFaultCtl_force | dvFaultCtl_faultNState
  | pwStatus_railOn | pwStatus_railFaultSticky | pwStatus_vin12LowSticky | hiId_revision | hiId_pdPowered
  | hiId_oePowered | hiErrlogStatus_count | hiErrlogStatus_overflowSticky | hiErrlogStatus_clear | hiParityStatus_safe
  | hiParityStatus_sticky | hiIrqCauseLo_cause | hiIrqCauseHi_cause | hiIrqEnableLo_enable | hiIrqEnableHi_enable
  | wmbSel_selector | wmbSel_part | wmbCtl_read | wmbCtl_write | wmbCtl_valid
  | wmbCtl_busy | wmbCtl_code | wmbCtl_collideSticky | wmbD_data | dmChCtl_start
  | dmChCtl_abort | dmChCtl_irq | dmChCtl_retryLimit | dmChStatus_state | dmChStatus_overlap
  | dmChStatus_code | dmChStatus_retryOk | dmChStatus_failWrite | dmChStatus_failDevice | dmChStatus_failType
  | dmChStatus_retries | dmChIndex_i0 | dmChIndex_i1 | dmChIndex2_i2 | dmRxCtl_enable
  | dmRxCtl_ringLog2 | dmRxCtl_bufKib | dmRxCtl_irqCh | dmRxCtl_irqEn | dmTxCtl_enable
  | dmTxCtl_ringLog2 | dmTxCtl_irqCh | dmTxCtl_irqEn | dmRxPtr_head | dmRxPtr_tail
  | dmTxPtr_head | dmTxPtr_tail | obPmcCtl_globalEn | obPmcCtl_freezeOnOvf | obPmcCtl_chain
  | obPmcStatus_ovf | obPmcSel_event | obPmcSel_pipes | obPmcSel_classes | obPmcSel_port
  | obBwCtl_windowUs | obSampleCtl_enable | obSampleCtl_overwrite | obSampleCtl_jitter | obSampleCtl_pipes
  | obSampleCtl_period | obSampleStatus_count | obSampleStatus_fullSticky | obSnapCtl_port | obSnapCtl_snap
  | obIncCtl_trigger | obIncCtl_ftbRelease | obIncCtl_alarmTrigger | obIncCtl_fillTrigger | obIncCtl_logRate
  | obIncCtl_logBurst | obRingStatus_fill | obRingStatus_incident | obRingStatus_incidentSticky | obRingStatus_ftbState
  | obRingStatus_ftbCount | obRingStatus_lastCause | obDCtl_enable | obDCtl_ringLog2 | obDWptr_wptr
  | obDRptr_rptr | obAlarmSummary_pd | obAlarmSummary_cd | obFatal_fatal | obFatal_cause
  | obFatal_fatalSticky | scCmd_op | scCmd_start | scStatus_state | scStatus_busySticky
  | scStatus_code | scOtpStatus_programmed | scOtpStatus_revoked | scOtpStatus_broken | scOtpStatus_advancesLeft
  | scOtpStatus_patchLevel | scOtpStatus_patchesLeft | msixTable_dword | msixPba_pending
  deriving DecidableEq, Repr

/-- One array of addresses of a register: offset = base + sI·i + sJ·j for i < nI and j < nJ.  An array of fabric-lane
test registers carries its peer die as j + j0 with j0 = 1, so that it shares the register's name with the line and
continuity lanes (Table 13-5). -/
structure Layout where
  win : WinKind
  base : Nat
  nI : Nat := 1
  sI : Nat := 0
  nJ : Nat := 1
  sJ : Nat := 0
  j0 : Nat := 0
  deriving DecidableEq, Repr

/-- What a field table says of one field. -/
structure FInfo where
  reg : Reg
  hi : Nat
  lo : Nat
  acc : Access
  dflt : Nat
  image : Bool := false
  deriving DecidableEq, Repr

/-- The addresses of each register, from its map line. -/
def Reg.layouts : Reg → List Layout
  | .imBootStatus => [⟨.cd, 0x040100, 1, 0x0, 1, 0x0, 0⟩]
  | .imBootSeq => [⟨.cd, 0x040104, 1, 0x0, 1, 0x0, 0⟩]
  | .imWriteCtl => [⟨.cd, 0x040110, 1, 0x0, 1, 0x0, 0⟩]
  | .imWriteLen => [⟨.cd, 0x040114, 1, 0x0, 1, 0x0, 0⟩]
  | .imWriteStatus => [⟨.cd, 0x040118, 1, 0x0, 1, 0x0, 0⟩]
  | .imOverlayStatus => [⟨.cd, 0x04011C, 1, 0x0, 1, 0x0, 0⟩]
  | .dvLaserCtl => [⟨.cd, 0x000200, 1, 0x0, 1, 0x0, 0⟩]
  | .ptPortCtl => [⟨.pd, 0x040000, 32, 0x100, 1, 0x0, 0⟩]
  | .ptPortStatus => [⟨.pd, 0x040004, 32, 0x100, 1, 0x0, 0⟩]
  | .lnTsDelay => [⟨.pd, 0x042000, 32, 0x40, 1, 0x0, 0⟩]
  | .lnTsTrim => [⟨.pd, 0x042004, 32, 0x40, 1, 0x0, 0⟩]
  | .opReach => [⟨.oe, 0x000010, 1, 0x0, 1, 0x0, 0⟩]
  | .opFibreStatus => [⟨.oe, 0x000100, 8, 0x4, 1, 0x0, 0⟩]
  | .opLanePower => [⟨.oe, 0x000200, 64, 0x4, 1, 0x0, 0⟩]
  | .ptMacCtl => [⟨.pd, 0x040008, 32, 0x100, 1, 0x0, 0⟩]
  | .ptPfcCtl => [⟨.pd, 0x04000C, 32, 0x100, 1, 0x0, 0⟩]
  | .ptMacThresh => [⟨.pd, 0x040010, 32, 0x100, 1, 0x0, 0⟩]
  | .ptPfcStatus => [⟨.pd, 0x040014, 32, 0x100, 1, 0x0, 0⟩]
  | .fpPortCtl => [⟨.cd, 0x200000, 4, 0x40, 1, 0x0, 0⟩]
  | .fpPortStatus => [⟨.cd, 0x200004, 4, 0x40, 1, 0x0, 0⟩]
  | .fpStatus => [⟨.cd, 0x200100, 1, 0x0, 1, 0x0, 0⟩]
  | .psPortCtl => [⟨.pd, 0x080000, 37, 0x10, 1, 0x0, 0⟩]
  | .psPortStatus => [⟨.pd, 0x080004, 37, 0x10, 1, 0x0, 0⟩]
  | .psMalAction => [⟨.pd, 0x080800, 16, 0x4, 1, 0x0, 0⟩]
  | .psMalMirror => [⟨.pd, 0x080840, 1, 0x0, 1, 0x0, 0⟩]
  | .psStatus => [⟨.pd, 0x080900, 1, 0x0, 1, 0x0, 0⟩]
  | .tkCtl => [⟨.cd, 0x082000, 1, 0x0, 1, 0x0, 0⟩]
  | .tkStatus => [⟨.cd, 0x082004, 1, 0x0, 1, 0x0, 0⟩]
  | .clPortCtl => [⟨.pd, 0x0C0000, 37, 0x10, 1, 0x0, 0⟩]
  | .clPipeStatus => [⟨.pd, 0x0C0800, 4, 0x10, 1, 0x0, 0⟩]
  | .clInspectStatus => [⟨.pd, 0x0C0900, 1, 0x0, 1, 0x0, 0⟩]
  | .clInspectPorts => [⟨.pd, 0x0C0904, 1, 0x0, 1, 0x0, 0⟩]
  | .clInspectUse => [⟨.pd, 0x0C0908, 1, 0x0, 1, 0x0, 0⟩]
  | .clTreeCtl => [⟨.pd, 0x0C090C, 1, 0x0, 1, 0x0, 0⟩]
  | .tkInflight => [⟨.pd, 0x0C0A00, 16, 0x4, 1, 0x0, 0⟩]
  | .aeCtl => [⟨.pd, 0x100000, 1, 0x0, 1, 0x0, 0⟩]
  | .aeStatus => [⟨.pd, 0x100004, 1, 0x0, 1, 0x0, 0⟩]
  | .aeFaultLast => [⟨.pd, 0x100008, 1, 0x0, 1, 0x0, 0⟩]
  | .fwCtl => [⟨.pd, 0x140000, 1, 0x0, 1, 0x0, 0⟩]
  | .fwStatus => [⟨.pd, 0x140004, 1, 0x0, 1, 0x0, 0⟩]
  | .fwFlush => [⟨.pd, 0x140008, 1, 0x0, 1, 0x0, 0⟩]
  | .fwReadIndex => [⟨.pd, 0x14000C, 1, 0x0, 1, 0x0, 0⟩]
  | .fwDupCtl => [⟨.pd, 0x140010, 1, 0x0, 1, 0x0, 0⟩]
  | .fwPortCtl => [⟨.pd, 0x140100, 37, 0x10, 1, 0x0, 0⟩]
  | .fwPrpCtl => [⟨.pd, 0x140104, 32, 0x10, 1, 0x0, 0⟩]
  | .swCtl => [⟨.pd, 0x180000, 1, 0x0, 1, 0x0, 0⟩]
  | .swStatus => [⟨.pd, 0x180004, 1, 0x0, 1, 0x0, 0⟩]
  | .swClassCtl => [⟨.pd, 0x180040, 8, 0x4, 1, 0x0, 0⟩]
  | .swClassVoq => [⟨.pd, 0x180060, 8, 0x4, 1, 0x0, 0⟩]
  | .swAgeLimit => [⟨.pd, 0x180080, 8, 0x4, 1, 0x0, 0⟩]
  | .swPortCtl => [⟨.pd, 0x180100, 37, 0x10, 1, 0x0, 0⟩]
  | .swHoldLo => [⟨.pd, 0x180104, 37, 0x10, 1, 0x0, 0⟩]
  | .swHoldHi => [⟨.pd, 0x180108, 37, 0x10, 1, 0x0, 0⟩]
  | .swPortStatus => [⟨.pd, 0x18010C, 37, 0x10, 1, 0x0, 0⟩]
  | .egClassMap => [⟨.pd, 0x1C0000, 37, 0x10, 1, 0x0, 0⟩]
  | .egSched => [⟨.pd, 0x1C0004, 37, 0x10, 1, 0x0, 0⟩]
  | .egWeight => [⟨.pd, 0x1C0008, 37, 0x10, 1, 0x0, 0⟩]
  | .egCbs => [⟨.pd, 0x1C1000, 37, 0x40, 8, 0x4, 0⟩]
  | .egMaxrate => [⟨.pd, 0x1C2000, 37, 0x40, 8, 0x4, 0⟩]
  | .egGateCtl => [⟨.pd, 0x1C3000, 32, 0x10, 1, 0x0, 0⟩]
  | .egGateStatus => [⟨.pd, 0x1C3004, 32, 0x10, 1, 0x0, 0⟩]
  | .poStorm => [⟨.pd, 0x1C4000, 37, 0x40, 8, 0x4, 0⟩]
  | .poStormTypes => [⟨.pd, 0x1C4020, 37, 0x40, 1, 0x0, 0⟩]
  | .poHostCir => [⟨.pd, 0x1C4C00, 8, 0x8, 1, 0x0, 0⟩]
  | .poHostPir => [⟨.pd, 0x1C4C04, 8, 0x8, 1, 0x0, 0⟩]
  | .poReadHandle => [⟨.pd, 0x1C4D00, 1, 0x0, 1, 0x0, 0⟩]
  | .miSession => [⟨.pd, 0x1C5000, 16, 0x4, 1, 0x0, 0⟩]
  | .plCtl => [⟨.cd, 0x080000, 1, 0x0, 1, 0x0, 0⟩]
  | .plHead => [⟨.cd, 0x080004, 1, 0x0, 1, 0x0, 0⟩]
  | .plTail => [⟨.cd, 0x080008, 1, 0x0, 1, 0x0, 0⟩]
  | .plStatus => [⟨.cd, 0x08000C, 1, 0x0, 1, 0x0, 0⟩]
  | .tmCtl => [⟨.cd, 0x140000, 1, 0x0, 1, 0x0, 0⟩]
  | .tmStatus => [⟨.cd, 0x140004, 1, 0x0, 1, 0x0, 0⟩]
  | .tmTaCtl => [⟨.cd, 0x140020, 1, 0x0, 1, 0x0, 0⟩]
  | .tmTaArg => [⟨.cd, 0x140024, 1, 0x0, 1, 0x0, 0⟩]
  | .tmTaMask => [⟨.cd, 0x140028, 1, 0x0, 1, 0x0, 0⟩]
  | .tmTaValue => [⟨.cd, 0x14002C, 1, 0x0, 1, 0x0, 0⟩]
  | .tmTaStatus => [⟨.cd, 0x140030, 1, 0x0, 1, 0x0, 0⟩]
  | .tmTaEntry => [⟨.cd, 0x140400, 256, 0x4, 1, 0x0, 0⟩]
  | .tmDieStatus => [⟨.pd, 0x200000, 1, 0x0, 1, 0x0, 0⟩]
  | .tmCapStatus => [⟨.pd, 0x200004, 1, 0x0, 1, 0x0, 0⟩]
  | .tmPortPtp => [⟨.pd, 0x200100, 36, 0x10, 1, 0x0, 0⟩]
  | .fbLaneCtl => [⟨.pd, 0x240000, 48, 0x40, 4, 0x1000, 0⟩]
  | .fbLaneStatus => [⟨.pd, 0x240004, 48, 0x40, 4, 0x1000, 0⟩]
  | .fbLinkCtl => [⟨.pd, 0x244000, 4, 0x10, 1, 0x0, 0⟩]
  | .fbLinkStatus => [⟨.pd, 0x244004, 4, 0x10, 1, 0x0, 0⟩]
  | .fbCtl => [⟨.pd, 0x245000, 1, 0x0, 1, 0x0, 0⟩]
  | .lnTestCtl => [⟨.pd, 0x042010, 32, 0x40, 1, 0x0, 0⟩, ⟨.pd, 0x240010, 48, 0x40, 4, 0x1000, 1⟩, ⟨.cd, 0x180800, 4, 0x40, 1, 0x0, 0⟩]
  | .lnInjCtl => [⟨.pd, 0x042014, 32, 0x40, 1, 0x0, 0⟩, ⟨.pd, 0x240014, 48, 0x40, 4, 0x1000, 1⟩, ⟨.cd, 0x180804, 4, 0x40, 1, 0x0, 0⟩]
  | .lnTestStatus => [⟨.pd, 0x042018, 32, 0x40, 1, 0x0, 0⟩, ⟨.pd, 0x240018, 48, 0x40, 4, 0x1000, 1⟩, ⟨.cd, 0x180808, 4, 0x40, 1, 0x0, 0⟩]
  | .dvBistCtl => [⟨.cd, 0x000300, 1, 0x0, 1, 0x0, 0⟩]
  | .duCtl => [⟨.cd, 0x180000, 1, 0x0, 1, 0x0, 0⟩]
  | .duStatus => [⟨.cd, 0x180004, 1, 0x0, 1, 0x0, 0⟩]
  | .duCtTrim => [⟨.cd, 0x180008, 1, 0x0, 1, 0x0, 0⟩]
  | .btStraps => [⟨.cd, 0x040000, 1, 0x0, 1, 0x0, 0⟩]
  | .btSceneStatus => [⟨.cd, 0x040004, 1, 0x0, 1, 0x0, 0⟩]
  | .btBootCtl => [⟨.cd, 0x040008, 1, 0x0, 1, 0x0, 0⟩]
  | .btCutawayCtl => [⟨.cd, 0x04000C, 1, 0x0, 1, 0x0, 0⟩]
  | .btResetCause => [⟨.cd, 0x040010, 1, 0x0, 1, 0x0, 0⟩]
  | .dvTherm => [⟨.cd, 0x000400, 1, 0x0, 1, 0x0, 0⟩]
  | .dvFaultCtl => [⟨.cd, 0x000404, 1, 0x0, 1, 0x0, 0⟩]
  | .pwStatus => [⟨.pw, 0x000000, 1, 0x0, 1, 0x0, 0⟩]
  | .hiId => [⟨.cd, 0x1C0000, 1, 0x0, 1, 0x0, 0⟩]
  | .hiErrlogStatus => [⟨.cd, 0x1C0010, 1, 0x0, 1, 0x0, 0⟩]
  | .hiParityStatus => [⟨.cd, 0x1C0020, 1, 0x0, 1, 0x0, 0⟩]
  | .hiIrqCauseLo => [⟨.cd, 0x1C0040, 1, 0x0, 1, 0x0, 0⟩]
  | .hiIrqCauseHi => [⟨.cd, 0x1C0044, 1, 0x0, 1, 0x0, 0⟩]
  | .hiIrqEnableLo => [⟨.cd, 0x1C0048, 1, 0x0, 1, 0x0, 0⟩]
  | .hiIrqEnableHi => [⟨.cd, 0x1C004C, 1, 0x0, 1, 0x0, 0⟩]
  | .wmbSel => [⟨.all, 0x3FFF00, 1, 0x0, 1, 0x0, 0⟩]
  | .wmbCtl => [⟨.all, 0x3FFF04, 1, 0x0, 1, 0x0, 0⟩]
  | .wmbD => [⟨.all, 0x3FFF10, 4, 0x4, 1, 0x0, 0⟩]
  | .dmChCtl => [⟨.cd, 0x0C0000, 16, 0x40, 1, 0x0, 0⟩]
  | .dmChStatus => [⟨.cd, 0x0C0004, 16, 0x40, 1, 0x0, 0⟩]
  | .dmChIndex => [⟨.cd, 0x0C0008, 16, 0x40, 1, 0x0, 0⟩]
  | .dmChIndex2 => [⟨.cd, 0x0C000C, 16, 0x40, 1, 0x0, 0⟩]
  | .dmRxCtl => [⟨.cd, 0x0C0800, 1, 0x0, 1, 0x0, 0⟩]
  | .dmTxCtl => [⟨.cd, 0x0C0900, 8, 0x8, 1, 0x0, 0⟩]
  | .dmRxPtr => [⟨.cd, 0x0C0804, 1, 0x0, 1, 0x0, 0⟩]
  | .dmTxPtr => [⟨.cd, 0x0C0904, 8, 0x8, 1, 0x0, 0⟩]
  | .obPmcCtl => [⟨.pd, 0x280000, 1, 0x0, 1, 0x0, 0⟩]
  | .obPmcStatus => [⟨.pd, 0x280004, 1, 0x0, 1, 0x0, 0⟩]
  | .obPmcSel => [⟨.pd, 0x280010, 8, 0x4, 1, 0x0, 0⟩]
  | .obBwCtl => [⟨.pd, 0x280100, 32, 0x4, 1, 0x0, 0⟩]
  | .obSampleCtl => [⟨.pd, 0x280200, 1, 0x0, 1, 0x0, 0⟩]
  | .obSampleStatus => [⟨.pd, 0x280204, 1, 0x0, 1, 0x0, 0⟩]
  | .obSnapCtl => [⟨.pd, 0x280300, 1, 0x0, 1, 0x0, 0⟩]
  | .obIncCtl => [⟨.pd, 0x280400, 1, 0x0, 1, 0x0, 0⟩, ⟨.cd, 0x240400, 1, 0x0, 1, 0x0, 0⟩]
  | .obRingStatus => [⟨.pd, 0x280404, 1, 0x0, 1, 0x0, 0⟩, ⟨.cd, 0x240404, 1, 0x0, 1, 0x0, 0⟩]
  | .obDCtl => [⟨.cd, 0x240000, 1, 0x0, 1, 0x0, 0⟩]
  | .obDWptr => [⟨.cd, 0x240004, 1, 0x0, 1, 0x0, 0⟩]
  | .obDRptr => [⟨.cd, 0x240008, 1, 0x0, 1, 0x0, 0⟩]
  | .obAlarmSummary => [⟨.cd, 0x24000C, 1, 0x0, 1, 0x0, 0⟩]
  | .obFatal => [⟨.cd, 0x240010, 1, 0x0, 1, 0x0, 0⟩]
  | .scCmd => [⟨.cd, 0x100000, 1, 0x0, 1, 0x0, 0⟩]
  | .scStatus => [⟨.cd, 0x100004, 1, 0x0, 1, 0x0, 0⟩]
  | .scOtpStatus => [⟨.cd, 0x100008, 1, 0x0, 1, 0x0, 0⟩]
  | .msixTable => [⟨.cd, 0x1C2000, 256, 0x4, 1, 0x0, 0⟩]
  | .msixPba => [⟨.cd, 0x1C3000, 2, 0x4, 1, 0x0, 0⟩]

/-- Bits, access, default and source of each field, from its field table.  A dash in the Default column is 0 here. -/
def Fld.info : Fld → FInfo
  | .imBootStatus_bank => ⟨.imBootStatus, 1, 0, .hu, 0x0, false⟩
  | .imBootStatus_aResult => ⟨.imBootStatus, 7, 4, .hu, 0x0, false⟩
  | .imBootStatus_bResult => ⟨.imBootStatus, 11, 8, .hu, 0x0, false⟩
  | .imBootSeq_seq => ⟨.imBootSeq, 31, 0, .hu, 0x0, false⟩
  | .imWriteCtl_start => ⟨.imWriteCtl, 0, 0, .sc, 0x0, false⟩
  | .imWriteCtl_abort => ⟨.imWriteCtl, 1, 1, .sc, 0x0, false⟩
  | .imWriteLen_len => ⟨.imWriteLen, 25, 0, .rw, 0x0, false⟩
  | .imWriteStatus_state => ⟨.imWriteStatus, 2, 0, .hu, 0x0, false⟩
  | .imWriteStatus_target => ⟨.imWriteStatus, 4, 3, .hu, 0x0, false⟩
  | .imWriteStatus_code => ⟨.imWriteStatus, 11, 8, .hu, 0x0, false⟩
  | .imWriteStatus_progress => ⟨.imWriteStatus, 31, 16, .hu, 0x0, false⟩
  | .imOverlayStatus_applied => ⟨.imOverlayStatus, 15, 0, .hu, 0x0, false⟩
  | .imOverlayStatus_rejected => ⟨.imOverlayStatus, 31, 16, .hu, 0x0, false⟩
  | .dvLaserCtl_forceOff => ⟨.dvLaserCtl, 0, 0, .rw, 0x0, true⟩
  | .dvLaserCtl_lsEnState => ⟨.dvLaserCtl, 1, 1, .hu, 0x0, false⟩
  | .dvLaserCtl_lsFault => ⟨.dvLaserCtl, 2, 2, .hu, 0x0, false⟩
  | .dvLaserCtl_lsFaultSticky => ⟨.dvLaserCtl, 3, 3, .w1c, 0x0, false⟩
  | .dvLaserCtl_addrW => ⟨.dvLaserCtl, 14, 8, .rw, 0x50, true⟩
  | .dvLaserCtl_addrE => ⟨.dvLaserCtl, 22, 16, .rw, 0x51, true⟩
  | .ptPortCtl_enable => ⟨.ptPortCtl, 0, 0, .rw, 0x0, true⟩
  | .ptPortCtl_upDebounce => ⟨.ptPortCtl, 15, 8, .rw, 0xA, true⟩
  | .ptPortCtl_downHoldoff => ⟨.ptPortCtl, 31, 16, .rw, 0x0, true⟩
  | .ptPortStatus_state => ⟨.ptPortStatus, 2, 0, .hu, 0x0, false⟩
  | .ptPortStatus_speed => ⟨.ptPortStatus, 5, 4, .hu, 0x0, false⟩
  | .ptPortStatus_fec => ⟨.ptPortStatus, 7, 6, .hu, 0x0, false⟩
  | .ptPortStatus_lastCause => ⟨.ptPortStatus, 11, 8, .hu, 0x0, false⟩
  | .ptPortStatus_downCount => ⟨.ptPortStatus, 31, 16, .rc, 0x0, false⟩
  | .lnTsDelay_rxDelay => ⟨.lnTsDelay, 15, 0, .hu, 0x0, false⟩
  | .lnTsDelay_txDelay => ⟨.lnTsDelay, 31, 16, .hu, 0x0, false⟩
  | .lnTsTrim_rxTrim => ⟨.lnTsTrim, 15, 0, .rw, 0x0, true⟩
  | .lnTsTrim_txTrim => ⟨.lnTsTrim, 31, 16, .rw, 0x0, true⟩
  | .opReach_lr => ⟨.opReach, 7, 0, .hu, 0x0, false⟩
  | .opReach_lit => ⟨.opReach, 15, 8, .hu, 0x0, false⟩
  | .opFibreStatus_inputPower => ⟨.opFibreStatus, 15, 0, .hu, 0x0, false⟩
  | .opFibreStatus_dark => ⟨.opFibreStatus, 16, 16, .hu, 0x0, false⟩
  | .opFibreStatus_darkSticky => ⟨.opFibreStatus, 17, 17, .w1c, 0x0, false⟩
  | .opLanePower_txPower => ⟨.opLanePower, 15, 0, .hu, 0x0, false⟩
  | .opLanePower_rxPower => ⟨.opLanePower, 31, 16, .hu, 0x0, false⟩
  | .ptMacCtl_maxlen => ⟨.ptMacCtl, 13, 0, .rw, 0x5F2, true⟩
  | .ptPfcCtl_txEn => ⟨.ptPfcCtl, 7, 0, .rw, 0xFF, true⟩
  | .ptPfcCtl_rxEn => ⟨.ptPfcCtl, 15, 8, .rw, 0xFF, true⟩
  | .ptPfcCtl_quanta => ⟨.ptPfcCtl, 31, 16, .rw, 0xFFFF, true⟩
  | .ptMacThresh_thresh => ⟨.ptMacThresh, 15, 0, .rw, 0x0, true⟩
  | .ptMacThresh_exceededSticky => ⟨.ptMacThresh, 16, 16, .w1c, 0x0, false⟩
  | .ptPfcStatus_txXoff => ⟨.ptPfcStatus, 7, 0, .hu, 0x0, false⟩
  | .ptPfcStatus_rxPaused => ⟨.ptPfcStatus, 15, 8, .hu, 0x0, false⟩
  | .fpPortCtl_enable => ⟨.fpPortCtl, 0, 0, .rw, 0x0, true⟩
  | .fpPortCtl_speed => ⟨.fpPortCtl, 1, 1, .rw, 0x1, true⟩
  | .fpPortCtl_duplex => ⟨.fpPortCtl, 2, 2, .rw, 0x1, true⟩
  | .fpPortCtl_bpEn => ⟨.fpPortCtl, 3, 3, .rw, 0x1, true⟩
  | .fpPortCtl_thresh => ⟨.fpPortCtl, 15, 4, .rw, 0x0, true⟩
  | .fpPortCtl_maxlen => ⟨.fpPortCtl, 29, 16, .rw, 0x5F2, true⟩
  | .fpPortStatus_up => ⟨.fpPortStatus, 0, 0, .hu, 0x0, false⟩
  | .fpPortStatus_bpActive => ⟨.fpPortStatus, 1, 1, .hu, 0x0, false⟩
  | .fpPortStatus_exceededSticky => ⟨.fpPortStatus, 2, 2, .w1c, 0x0, false⟩
  | .fpStatus_phyInt => ⟨.fpStatus, 0, 0, .hu, 0x0, false⟩
  | .fpStatus_phyIntSticky => ⟨.fpStatus, 1, 1, .w1c, 0x0, false⟩
  | .psPortCtl_startType => ⟨.psPortCtl, 5, 0, .rw, 0x0, true⟩
  | .psPortCtl_padLimit => ⟨.psPortCtl, 15, 8, .rw, 0x6, true⟩
  | .psPortCtl_thresh => ⟨.psPortCtl, 31, 16, .rw, 0x0, true⟩
  | .psPortStatus_lastReason => ⟨.psPortStatus, 3, 0, .hu, 0x0, false⟩
  | .psPortStatus_malformedSticky => ⟨.psPortStatus, 4, 4, .w1c, 0x0, false⟩
  | .psPortStatus_exceededSticky => ⟨.psPortStatus, 5, 5, .w1c, 0x0, false⟩
  | .psMalAction_action => ⟨.psMalAction, 1, 0, .rw, 0x0, true⟩
  | .psMalAction_tc => ⟨.psMalAction, 6, 4, .rw, 0x0, true⟩
  | .psMalAction_trace => ⟨.psMalAction, 8, 8, .rw, 0x0, true⟩
  | .psMalMirror_handle => ⟨.psMalMirror, 31, 0, .rw, 0x0, true⟩
  | .psStatus_graphParitySticky => ⟨.psStatus, 0, 0, .w1c, 0x0, false⟩
  | .psStatus_noSessionSticky => ⟨.psStatus, 1, 1, .w1c, 0x0, false⟩
  | .tkCtl_open => ⟨.tkCtl, 0, 0, .sc, 0x0, false⟩
  | .tkCtl_commit => ⟨.tkCtl, 1, 1, .sc, 0x0, false⟩
  | .tkCtl_abort => ⟨.tkCtl, 2, 2, .sc, 0x0, false⟩
  | .tkCtl_at => ⟨.tkCtl, 3, 3, .rw, 0x0, false⟩
  | .tkCtl_timeout => ⟨.tkCtl, 31, 16, .rw, 0xA, true⟩
  | .tkStatus_current => ⟨.tkStatus, 3, 0, .hu, 0x0, false⟩
  | .tkStatus_drainOld => ⟨.tkStatus, 7, 4, .hu, 0x0, false⟩
  | .tkStatus_drainNew => ⟨.tkStatus, 11, 8, .hu, 0x0, false⟩
  | .tkStatus_live => ⟨.tkStatus, 13, 12, .hu, 0x1, false⟩
  | .tkStatus_batchOpen => ⟨.tkStatus, 14, 14, .hu, 0x0, false⟩
  | .tkStatus_waiting => ⟨.tkStatus, 15, 15, .hu, 0x0, false⟩
  | .tkStatus_code => ⟨.tkStatus, 19, 16, .hu, 0x0, false⟩
  | .tkStatus_late => ⟨.tkStatus, 20, 20, .hu, 0x0, false⟩
  | .clPortCtl_missEntry => ⟨.clPortCtl, 13, 0, .rw, 0x0, true⟩
  | .clPortCtl_parityDrop => ⟨.clPortCtl, 14, 14, .rw, 0x1, true⟩
  | .clPipeStatus_slotsUsed => ⟨.clPipeStatus, 13, 0, .hu, 0x0, false⟩
  | .clPipeStatus_paritySticky => ⟨.clPipeStatus, 14, 14, .w1c, 0x0, false⟩
  | .clPipeStatus_rateSticky => ⟨.clPipeStatus, 15, 15, .w1c, 0x0, false⟩
  | .clInspectStatus_window => ⟨.clInspectStatus, 1, 0, .hu, 0x0, false⟩
  | .clInspectStatus_treeHalf => ⟨.clInspectStatus, 2, 2, .hu, 0x0, false⟩
  | .clInspectStatus_patternBank => ⟨.clInspectStatus, 3, 3, .hu, 0x0, false⟩
  | .clInspectStatus_build => ⟨.clInspectStatus, 5, 4, .hu, 0x0, false⟩
  | .clInspectStatus_scanWaitSticky => ⟨.clInspectStatus, 6, 6, .w1c, 0x0, false⟩
  | .clInspectStatus_treeParitySticky => ⟨.clInspectStatus, 7, 7, .w1c, 0x0, false⟩
  | .clInspectPorts_ports => ⟨.clInspectPorts, 31, 0, .hu, 0x0, false⟩
  | .clInspectUse_ruleUnits => ⟨.clInspectUse, 18, 0, .hu, 0x0, false⟩
  | .clInspectUse_nodePct => ⟨.clInspectUse, 26, 20, .hu, 0x0, false⟩
  | .clTreeCtl_rebuild => ⟨.clTreeCtl, 0, 0, .sc, 0x0, false⟩
  | .clTreeCtl_patterns => ⟨.clTreeCtl, 28, 16, .hu, 0x0, false⟩
  | .tkInflight_count => ⟨.tkInflight, 31, 0, .hu, 0x0, false⟩
  | .aeCtl_budget => ⟨.aeCtl, 1, 0, .hu, 0x0, false⟩
  | .aeCtl_badEntryAction => ⟨.aeCtl, 5, 4, .rw, 0x0, true⟩
  | .aeCtl_trace => ⟨.aeCtl, 8, 8, .rw, 0x0, true⟩
  | .aeStatus_rateSticky => ⟨.aeStatus, 3, 0, .w1c, 0x0, false⟩
  | .aeStatus_paritySticky => ⟨.aeStatus, 4, 4, .w1c, 0x0, false⟩
  | .aeStatus_faultSticky => ⟨.aeStatus, 5, 5, .w1c, 0x0, false⟩
  | .aeStatus_programs => ⟨.aeStatus, 26, 16, .hu, 0x0, false⟩
  | .aeFaultLast_addr => ⟨.aeFaultLast, 13, 0, .hu, 0x0, false⟩
  | .aeFaultLast_cause => ⟨.aeFaultLast, 17, 14, .hu, 0x0, false⟩
  | .aeFaultLast_prog => ⟨.aeFaultLast, 27, 18, .hu, 0x0, false⟩
  | .fwCtl_learnEn => ⟨.fwCtl, 0, 0, .rw, 0x1, true⟩
  | .fwCtl_dstRefresh => ⟨.fwCtl, 1, 1, .rw, 0x0, true⟩
  | .fwCtl_fillThresh => ⟨.fwCtl, 14, 8, .rw, 0x5A, true⟩
  | .fwStatus_fill => ⟨.fwStatus, 6, 0, .hu, 0x0, false⟩
  | .fwStatus_paritySticky => ⟨.fwStatus, 8, 8, .w1c, 0x0, false⟩
  | .fwStatus_learnFailSticky => ⟨.fwStatus, 9, 9, .w1c, 0x0, false⟩
  | .fwStatus_fillSticky => ⟨.fwStatus, 10, 10, .w1c, 0x0, false⟩
  | .fwFlush_port => ⟨.fwFlush, 7, 0, .rw, 0x0, false⟩
  | .fwFlush_fid => ⟨.fwFlush, 21, 8, .rw, 0x0, false⟩
  | .fwFlush_byPort => ⟨.fwFlush, 22, 22, .rw, 0x0, false⟩
  | .fwFlush_byFid => ⟨.fwFlush, 23, 23, .rw, 0x0, false⟩
  | .fwFlush_start => ⟨.fwFlush, 24, 24, .sc, 0x0, false⟩
  | .fwReadIndex_index => ⟨.fwReadIndex, 22, 0, .rw, 0x0, false⟩
  | .fwDupCtl_forget => ⟨.fwDupCtl, 15, 0, .rw, 0x190, true⟩
  | .fwPortCtl_defaultVid => ⟨.fwPortCtl, 11, 0, .rw, 0x1, true⟩
  | .fwPortCtl_learnEn => ⟨.fwPortCtl, 12, 12, .rw, 0x1, true⟩
  | .fwPortCtl_sticky => ⟨.fwPortCtl, 13, 13, .rw, 0x0, true⟩
  | .fwPortCtl_ingressFilter => ⟨.fwPortCtl, 14, 14, .rw, 0x1, true⟩
  | .fwPortCtl_flushOnDown => ⟨.fwPortCtl, 15, 15, .rw, 0x1, true⟩
  | .fwPortCtl_violation => ⟨.fwPortCtl, 16, 16, .rw, 0x0, true⟩
  | .fwPortCtl_learnLimit => ⟨.fwPortCtl, 31, 18, .rw, 0x0, true⟩
  | .fwPrpCtl_mode => ⟨.fwPrpCtl, 1, 0, .rw, 0x0, true⟩
  | .fwPrpCtl_lan => ⟨.fwPrpCtl, 2, 2, .rw, 0x0, true⟩
  | .fwPrpCtl_pair => ⟨.fwPrpCtl, 8, 4, .rw, 0x0, true⟩
  | .fwPrpCtl_seqIndex => ⟨.fwPrpCtl, 23, 12, .rw, 0x0, true⟩
  | .fwPrpCtl_pairErr => ⟨.fwPrpCtl, 24, 24, .hu, 0x0, false⟩
  | .swCtl_gxoffFree => ⟨.swCtl, 19, 0, .rw, 0x4000, true⟩
  | .swStatus_cellsUsed => ⟨.swStatus, 19, 0, .hu, 0x0, false⟩
  | .swStatus_globalXoff => ⟨.swStatus, 20, 20, .hu, 0x0, false⟩
  | .swStatus_bufFullSticky => ⟨.swStatus, 21, 21, .w1c, 0x0, false⟩
  | .swStatus_fabricErrSticky => ⟨.swStatus, 22, 22, .w1c, 0x0, false⟩
  | .swStatus_overrunSticky => ⟨.swStatus, 23, 23, .w1c, 0x0, false⟩
  | .swClassCtl_xoff => ⟨.swClassCtl, 15, 0, .rw, 0x300, true⟩
  | .swClassCtl_xon => ⟨.swClassCtl, 31, 16, .rw, 0x200, true⟩
  | .swClassVoq_voqLimit => ⟨.swClassVoq, 15, 0, .rw, 0x300, true⟩
  | .swAgeLimit_limit => ⟨.swAgeLimit, 20, 0, .rw, 0x30D40, true⟩
  | .swPortCtl_cutThrough => ⟨.swPortCtl, 7, 0, .rw, 0xE0, true⟩
  | .swPortCtl_headroom => ⟨.swPortCtl, 31, 16, .rw, 0xC80, true⟩
  | .swHoldLo_tc0 => ⟨.swHoldLo, 7, 0, .rw, 0xA, true⟩
  | .swHoldLo_tc1 => ⟨.swHoldLo, 15, 8, .rw, 0xA, true⟩
  | .swHoldLo_tc2 => ⟨.swHoldLo, 23, 16, .rw, 0xA, true⟩
  | .swHoldLo_tc3 => ⟨.swHoldLo, 31, 24, .rw, 0xA, true⟩
  | .swHoldHi_tc4 => ⟨.swHoldHi, 7, 0, .rw, 0xA, true⟩
  | .swHoldHi_tc5 => ⟨.swHoldHi, 15, 8, .rw, 0xA, true⟩
  | .swHoldHi_tc6 => ⟨.swHoldHi, 23, 16, .rw, 0x0, true⟩
  | .swHoldHi_tc7 => ⟨.swHoldHi, 31, 24, .rw, 0x0, true⟩
  | .swPortStatus_holding => ⟨.swPortStatus, 7, 0, .hu, 0x0, false⟩
  | .swPortStatus_discarding => ⟨.swPortStatus, 15, 8, .hu, 0xFF, false⟩
  | .swPortStatus_xoff => ⟨.swPortStatus, 23, 16, .hu, 0x0, false⟩
  | .swPortStatus_downBp => ⟨.swPortStatus, 24, 24, .hu, 0x0, false⟩
  | .swPortStatus_overrunSticky => ⟨.swPortStatus, 25, 25, .w1c, 0x0, false⟩
  | .egClassMap_pcpMap => ⟨.egClassMap, 23, 0, .rw, 0xFAC688, true⟩
  | .egClassMap_defaultTc => ⟨.egClassMap, 26, 24, .rw, 0x0, true⟩
  | .egSched_strict => ⟨.egSched, 7, 0, .rw, 0xE0, true⟩
  | .egSched_cbsEn => ⟨.egSched, 15, 8, .rw, 0x0, true⟩
  | .egSched_maxrateEn => ⟨.egSched, 23, 16, .rw, 0x0, true⟩
  | .egWeight_weight => ⟨.egWeight, 31, 0, .rw, 0x11148221, true⟩
  | .egCbs_idleSlope => ⟨.egCbs, 19, 0, .rw, 0x0, true⟩
  | .egMaxrate_rate => ⟨.egMaxrate, 19, 0, .rw, 0x0, true⟩
  | .egMaxrate_burst => ⟨.egMaxrate, 31, 20, .rw, 0x10, true⟩
  | .egGateCtl_adminLen => ⟨.egGateCtl, 10, 0, .rw, 0x1, true⟩
  | .egGateCtl_configChange => ⟨.egGateCtl, 12, 12, .sc, 0x0, false⟩
  | .egGateCtl_gateEn => ⟨.egGateCtl, 13, 13, .rw, 0x0, true⟩
  | .egGateCtl_adminGates => ⟨.egGateCtl, 23, 16, .rw, 0xFF, true⟩
  | .egGateStatus_gates => ⟨.egGateStatus, 7, 0, .hu, 0xFF, false⟩
  | .egGateStatus_operList => ⟨.egGateStatus, 8, 8, .hu, 0x0, false⟩
  | .egGateStatus_code => ⟨.egGateStatus, 11, 9, .hu, 0x0, false⟩
  | .egGateStatus_entry => ⟨.egGateStatus, 21, 12, .hu, 0x0, false⟩
  | .poStorm_rate => ⟨.poStorm, 19, 0, .rw, 0x0, true⟩
  | .poStorm_burst => ⟨.poStorm, 31, 20, .rw, 0x40, true⟩
  | .poStormTypes_types => ⟨.poStormTypes, 2, 0, .rw, 0x7, true⟩
  | .poHostCir_cir => ⟨.poHostCir, 19, 0, .rw, 0x64, true⟩
  | .poHostCir_cbs => ⟨.poHostCir, 31, 20, .rw, 0x40, true⟩
  | .poHostPir_pir => ⟨.poHostPir, 19, 0, .rw, 0x1F4, true⟩
  | .poHostPir_pbs => ⟨.poHostPir, 31, 20, .rw, 0x40, true⟩
  | .poReadHandle_handle => ⟨.poReadHandle, 31, 0, .rw, 0x0, false⟩
  | .miSession_handle => ⟨.miSession, 31, 0, .hu, 0x0, false⟩
  | .plCtl_enable => ⟨.plCtl, 0, 0, .rw, 0x1, true⟩
  | .plCtl_ringLog2 => ⟨.plCtl, 11, 8, .rw, 0x8, true⟩
  | .plHead_head => ⟨.plHead, 11, 0, .hu, 0x0, false⟩
  | .plTail_tail => ⟨.plTail, 11, 0, .rw, 0x0, false⟩
  | .plStatus_busy => ⟨.plStatus, 0, 0, .hu, 0x0, false⟩
  | .plStatus_waitRoom => ⟨.plStatus, 1, 1, .hu, 0x0, false⟩
  | .plStatus_moving => ⟨.plStatus, 2, 2, .hu, 0x0, false⟩
  | .plStatus_tailErrSticky => ⟨.plStatus, 3, 3, .w1c, 0x0, false⟩
  | .plStatus_failSticky => ⟨.plStatus, 4, 4, .w1c, 0x0, false⟩
  | .plStatus_lastCode => ⟨.plStatus, 15, 8, .hu, 0x0, false⟩
  | .tmCtl_ppsOutMode => ⟨.tmCtl, 1, 0, .rw, 0x0, true⟩
  | .tmCtl_ppsInEn => ⟨.tmCtl, 2, 2, .rw, 0x0, true⟩
  | .tmCtl_snap => ⟨.tmCtl, 3, 3, .sc, 0x0, false⟩
  | .tmCtl_ppsWidth => ⟨.tmCtl, 23, 4, .rw, 0x186A0, true⟩
  | .tmStatus_set => ⟨.tmStatus, 0, 0, .hu, 0x0, false⟩
  | .tmStatus_stepPending => ⟨.tmStatus, 1, 1, .hu, 0x0, false⟩
  | .tmStatus_incPending => ⟨.tmStatus, 2, 2, .hu, 0x0, false⟩
  | .tmStatus_timeclkLost => ⟨.tmStatus, 3, 3, .hu, 0x0, false⟩
  | .tmStatus_timeclkLostSticky => ⟨.tmStatus, 4, 4, .w1c, 0x0, false⟩
  | .tmStatus_steerIgnoredSticky => ⟨.tmStatus, 5, 5, .w1c, 0x0, false⟩
  | .tmStatus_aligned => ⟨.tmStatus, 9, 6, .hu, 0x0, false⟩
  | .tmTaCtl_index => ⟨.tmTaCtl, 7, 0, .rw, 0x0, false⟩
  | .tmTaCtl_kind => ⟨.tmTaCtl, 11, 8, .rw, 0x0, false⟩
  | .tmTaCtl_arm => ⟨.tmTaCtl, 12, 12, .sc, 0x0, false⟩
  | .tmTaCtl_cancel => ⟨.tmTaCtl, 13, 13, .sc, 0x0, false⟩
  | .tmTaArg_arg => ⟨.tmTaArg, 31, 0, .rw, 0x0, false⟩
  | .tmTaMask_mask => ⟨.tmTaMask, 31, 0, .rw, 0x0, false⟩
  | .tmTaValue_value => ⟨.tmTaValue, 31, 0, .rw, 0x0, false⟩
  | .tmTaStatus_code => ⟨.tmTaStatus, 3, 0, .hu, 0x0, false⟩
  | .tmTaStatus_index => ⟨.tmTaStatus, 11, 4, .hu, 0x0, false⟩
  | .tmTaStatus_used => ⟨.tmTaStatus, 20, 12, .hu, 0x0, false⟩
  | .tmTaEntry_state => ⟨.tmTaEntry, 1, 0, .hu, 0x0, false⟩
  | .tmTaEntry_kind => ⟨.tmTaEntry, 5, 2, .hu, 0x0, false⟩
  | .tmDieStatus_phaseErr => ⟨.tmDieStatus, 15, 0, .hu, 0x0, false⟩
  | .tmDieStatus_missed => ⟨.tmDieStatus, 23, 16, .hu, 0x0, false⟩
  | .tmDieStatus_aligned => ⟨.tmDieStatus, 24, 24, .hu, 0x0, false⟩
  | .tmDieStatus_capOverflowSticky => ⟨.tmDieStatus, 25, 25, .w1c, 0x0, false⟩
  | .tmDieStatus_capCount => ⟨.tmDieStatus, 31, 26, .hu, 0x0, false⟩
  | .tmCapStatus_full => ⟨.tmCapStatus, 0, 0, .hu, 0x0, false⟩
  | .tmPortPtp_mode => ⟨.tmPortPtp, 1, 0, .rw, 0x0, true⟩
  | .tmPortPtp_transport => ⟨.tmPortPtp, 4, 2, .rw, 0x7, true⟩
  | .fbLaneCtl_out => ⟨.fbLaneCtl, 0, 0, .rw, 0x0, false⟩
  | .fbLaneCtl_calibrate => ⟨.fbLaneCtl, 1, 1, .sc, 0x0, false⟩
  | .fbLaneStatus_state => ⟨.fbLaneStatus, 2, 0, .hu, 0x7, false⟩
  | .fbLaneStatus_txIdle => ⟨.fbLaneStatus, 5, 4, .hu, 0x0, false⟩
  | .fbLaneStatus_lastCause => ⟨.fbLaneStatus, 10, 8, .hu, 0x0, false⟩
  | .fbLaneStatus_removals => ⟨.fbLaneStatus, 23, 16, .hu, 0x0, false⟩
  | .fbLinkCtl_policy => ⟨.fbLinkCtl, 0, 0, .hu, 0x0, false⟩
  | .fbLinkCtl_minAwake => ⟨.fbLinkCtl, 13, 8, .rw, 0x0, true⟩
  | .fbLinkCtl_entryUs => ⟨.fbLinkCtl, 25, 16, .rw, 0x14, true⟩
  | .fbLinkCtl_minService => ⟨.fbLinkCtl, 31, 26, .rw, 0x28, true⟩
  | .fbLinkStatus_inService => ⟨.fbLinkStatus, 5, 0, .hu, 0x0, false⟩
  | .fbLinkStatus_awake => ⟨.fbLinkStatus, 13, 8, .hu, 0x0, false⟩
  | .fbLinkStatus_belowMinSticky => ⟨.fbLinkStatus, 16, 16, .w1c, 0x0, false⟩
  | .fbLinkStatus_longExitSticky => ⟨.fbLinkStatus, 17, 17, .w1c, 0x0, false⟩
  | .fbCtl_driftSteps => ⟨.fbCtl, 7, 0, .rw, 0x8, true⟩
  | .fbCtl_cellErrLimit => ⟨.fbCtl, 15, 8, .rw, 0x4, true⟩
  | .fbCtl_exitSteps => ⟨.fbCtl, 23, 16, .rw, 0x6, true⟩
  | .fbCtl_minMargin => ⟨.fbCtl, 31, 24, .rw, 0x20, true⟩
  | .lnTestCtl_source => ⟨.lnTestCtl, 2, 0, .rw, 0x3, false⟩
  | .lnTestCtl_loopback => ⟨.lnTestCtl, 5, 4, .rw, 0x0, false⟩
  | .lnTestCtl_start => ⟨.lnTestCtl, 8, 8, .sc, 0x0, false⟩
  | .lnTestCtl_stop => ⟨.lnTestCtl, 9, 9, .sc, 0x0, false⟩
  | .lnTestCtl_clear => ⟨.lnTestCtl, 10, 10, .sc, 0x0, false⟩
  | .lnTestCtl_duration => ⟨.lnTestCtl, 31, 16, .rw, 0x0, false⟩
  | .lnInjCtl_kind => ⟨.lnInjCtl, 1, 0, .rw, 0x0, false⟩
  | .lnInjCtl_len => ⟨.lnInjCtl, 8, 2, .rw, 0x2, false⟩
  | .lnInjCtl_inject => ⟨.lnInjCtl, 9, 9, .sc, 0x0, false⟩
  | .lnInjCtl_count => ⟨.lnInjCtl, 31, 16, .rw, 0x1, false⟩
  | .lnTestStatus_state => ⟨.lnTestStatus, 2, 0, .hu, 0x0, false⟩
  | .lnTestStatus_lock => ⟨.lnTestStatus, 3, 3, .hu, 0x0, false⟩
  | .lnTestStatus_lockLostSticky => ⟨.lnTestStatus, 4, 4, .w1c, 0x0, false⟩
  | .lnTestStatus_code => ⟨.lnTestStatus, 11, 8, .hu, 0x0, false⟩
  | .lnTestStatus_margin => ⟨.lnTestStatus, 23, 16, .hu, 0x0, false⟩
  | .lnTestStatus_baseline => ⟨.lnTestStatus, 31, 24, .hu, 0x0, false⟩
  | .dvBistCtl_start => ⟨.dvBistCtl, 0, 0, .sc, 0x0, false⟩
  | .dvBistCtl_code => ⟨.dvBistCtl, 7, 4, .hu, 0x0, false⟩
  | .dvBistCtl_failedPd => ⟨.dvBistCtl, 11, 8, .hu, 0x0, false⟩
  | .dvBistCtl_failedCd => ⟨.dvBistCtl, 12, 12, .hu, 0x0, false⟩
  | .duCtl_autoClaim => ⟨.duCtl, 0, 0, .rw, 0x1, true⟩
  | .duCtl_claim => ⟨.duCtl, 1, 1, .sc, 0x0, false⟩
  | .duCtl_release => ⟨.duCtl, 2, 2, .sc, 0x0, false⟩
  | .duCtl_feed => ⟨.duCtl, 3, 3, .sc, 0x0, false⟩
  | .duCtl_clearFault => ⟨.duCtl, 4, 4, .sc, 0x0, false⟩
  | .duCtl_hwWdogUs => ⟨.duCtl, 15, 8, .rw, 0x32, true⟩
  | .duCtl_swWdogMs => ⟨.duCtl, 31, 16, .rw, 0x0, true⟩
  | .duStatus_duo => ⟨.duStatus, 0, 0, .hu, 0x0, false⟩
  | .duStatus_unit => ⟨.duStatus, 1, 1, .hu, 0x0, false⟩
  | .duStatus_role => ⟨.duStatus, 4, 2, .hu, 0x0, false⟩
  | .duStatus_peerClaim => ⟨.duStatus, 5, 5, .hu, 0x0, false⟩
  | .duStatus_claimGood => ⟨.duStatus, 6, 6, .hu, 0x0, false⟩
  | .duStatus_ctUp => ⟨.duStatus, 7, 7, .hu, 0x0, false⟩
  | .duStatus_ctLanes => ⟨.duStatus, 11, 8, .hu, 0x0, false⟩
  | .duStatus_peerSeesClaim => ⟨.duStatus, 12, 12, .hu, 0x0, false⟩
  | .duStatus_peerRole => ⟨.duStatus, 15, 13, .hu, 0x0, false⟩
  | .duStatus_timeLocked => ⟨.duStatus, 16, 16, .hu, 0x0, false⟩
  | .duStatus_takeLag => ⟨.duStatus, 17, 17, .hu, 0x0, false⟩
  | .duStatus_faultCause => ⟨.duStatus, 20, 18, .hu, 0x0, false⟩
  | .duStatus_interlockLostSticky => ⟨.duStatus, 21, 21, .w1c, 0x0, false⟩
  | .duStatus_ctLostSticky => ⟨.duStatus, 22, 22, .w1c, 0x0, false⟩
  | .duStatus_contentionSticky => ⟨.duStatus, 23, 23, .w1c, 0x0, false⟩
  | .duStatus_splitSticky => ⟨.duStatus, 24, 24, .w1c, 0x0, false⟩
  | .duStatus_takeoverSticky => ⟨.duStatus, 25, 25, .w1c, 0x0, false⟩
  | .duCtTrim_trim => ⟨.duCtTrim, 15, 0, .rw, 0x0, true⟩
  | .btStraps_unit => ⟨.btStraps, 0, 0, .hu, 0x0, false⟩
  | .btStraps_duoEn => ⟨.btStraps, 1, 1, .hu, 0x0, false⟩
  | .btStraps_pcieRev => ⟨.btStraps, 2, 2, .hu, 0x0, false⟩
  | .btStraps_istoreSize => ⟨.btStraps, 3, 3, .hu, 0x0, false⟩
  | .btStraps_spillEn => ⟨.btStraps, 4, 4, .hu, 0x0, false⟩
  | .btStraps_bootHold => ⟨.btStraps, 5, 5, .hu, 0x0, false⟩
  | .btStraps_spare => ⟨.btStraps, 7, 6, .hu, 0x0, false⟩
  | .btSceneStatus_scene => ⟨.btSceneStatus, 1, 0, .hu, 0x0, false⟩
  | .btSceneStatus_cutting => ⟨.btSceneStatus, 2, 2, .hu, 0x0, false⟩
  | .btSceneStatus_spillSticky => ⟨.btSceneStatus, 3, 3, .w1c, 0x0, false⟩
  | .btSceneStatus_phase => ⟨.btSceneStatus, 6, 4, .hu, 0x0, false⟩
  | .btBootCtl_continue => ⟨.btBootCtl, 0, 0, .sc, 0x0, false⟩
  | .btBootCtl_spillRelease => ⟨.btBootCtl, 1, 1, .sc, 0x0, false⟩
  | .btBootCtl_spillTest => ⟨.btBootCtl, 2, 2, .sc, 0x0, false⟩
  | .btCutawayCtl_maxUs => ⟨.btCutawayCtl, 11, 0, .rw, 0xFA0, true⟩
  | .btCutawayCtl_minRunMs => ⟨.btCutawayCtl, 25, 16, .rw, 0xC, true⟩
  | .btResetCause_cause => ⟨.btResetCause, 3, 0, .hu, 0x0, false⟩
  | .dvTherm_alert => ⟨.dvTherm, 7, 0, .rw, 0x69, true⟩
  | .dvTherm_temp => ⟨.dvTherm, 15, 8, .hu, 0x0, false⟩
  | .dvTherm_hottest => ⟨.dvTherm, 18, 16, .hu, 0x0, false⟩
  | .dvTherm_alertActive => ⟨.dvTherm, 19, 19, .hu, 0x0, false⟩
  | .dvTherm_alertSticky => ⟨.dvTherm, 20, 20, .w1c, 0x0, false⟩
  | .dvFaultCtl_alarmEn => ⟨.dvFaultCtl, 0, 0, .rw, 0x0, true⟩
  | .dvFaultCtl_force => ⟨.dvFaultCtl, 1, 1, .rw, 0x0, false⟩
  | .dvFaultCtl_faultNState => ⟨.dvFaultCtl, 2, 2, .hu, 0x0, false⟩
  | .pwStatus_railOn => ⟨.pwStatus, 5, 0, .hu, 0x0, false⟩
  | .pwStatus_railFaultSticky => ⟨.pwStatus, 13, 8, .w1c, 0x0, false⟩
  | .pwStatus_vin12LowSticky => ⟨.pwStatus, 16, 16, .w1c, 0x0, false⟩
  | .hiId_revision => ⟨.hiId, 7, 0, .ro, 0xA0, false⟩
  | .hiId_pdPowered => ⟨.hiId, 11, 8, .hu, 0x0, false⟩
  | .hiId_oePowered => ⟨.hiId, 13, 12, .hu, 0x0, false⟩
  | .hiErrlogStatus_count => ⟨.hiErrlogStatus, 4, 0, .hu, 0x0, false⟩
  | .hiErrlogStatus_overflowSticky => ⟨.hiErrlogStatus, 5, 5, .w1c, 0x0, false⟩
  | .hiErrlogStatus_clear => ⟨.hiErrlogStatus, 8, 8, .sc, 0x0, false⟩
  | .hiParityStatus_safe => ⟨.hiParityStatus, 7, 0, .hu, 0x0, false⟩
  | .hiParityStatus_sticky => ⟨.hiParityStatus, 15, 8, .w1c, 0x0, false⟩
  | .hiIrqCauseLo_cause => ⟨.hiIrqCauseLo, 31, 0, .w1c, 0x0, false⟩
  | .hiIrqCauseHi_cause => ⟨.hiIrqCauseHi, 31, 0, .w1c, 0x0, false⟩
  | .hiIrqEnableLo_enable => ⟨.hiIrqEnableLo, 31, 0, .rw, 0xFFFFFFFF, true⟩
  | .hiIrqEnableHi_enable => ⟨.hiIrqEnableHi, 31, 0, .rw, 0x0, true⟩
  | .wmbSel_selector => ⟨.wmbSel, 19, 0, .rw, 0x0, false⟩
  | .wmbSel_part => ⟨.wmbSel, 21, 20, .rw, 0x0, false⟩
  | .wmbCtl_read => ⟨.wmbCtl, 0, 0, .sc, 0x0, false⟩
  | .wmbCtl_write => ⟨.wmbCtl, 1, 1, .sc, 0x0, false⟩
  | .wmbCtl_valid => ⟨.wmbCtl, 2, 2, .hu, 0x0, false⟩
  | .wmbCtl_busy => ⟨.wmbCtl, 3, 3, .hu, 0x0, false⟩
  | .wmbCtl_code => ⟨.wmbCtl, 7, 4, .hu, 0x0, false⟩
  | .wmbCtl_collideSticky => ⟨.wmbCtl, 8, 8, .w1c, 0x0, false⟩
  | .wmbD_data => ⟨.wmbD, 31, 0, .rw, 0x0, false⟩
  | .dmChCtl_start => ⟨.dmChCtl, 0, 0, .sc, 0x0, false⟩
  | .dmChCtl_abort => ⟨.dmChCtl, 1, 1, .sc, 0x0, false⟩
  | .dmChCtl_irq => ⟨.dmChCtl, 2, 2, .rw, 0x0, false⟩
  | .dmChCtl_retryLimit => ⟨.dmChCtl, 6, 4, .rw, 0x3, true⟩
  | .dmChStatus_state => ⟨.dmChStatus, 2, 0, .hu, 0x0, false⟩
  | .dmChStatus_overlap => ⟨.dmChStatus, 3, 3, .hu, 0x0, false⟩
  | .dmChStatus_code => ⟨.dmChStatus, 7, 4, .hu, 0x0, false⟩
  | .dmChStatus_retryOk => ⟨.dmChStatus, 8, 8, .hu, 0x0, false⟩
  | .dmChStatus_failWrite => ⟨.dmChStatus, 9, 9, .hu, 0x0, false⟩
  | .dmChStatus_failDevice => ⟨.dmChStatus, 10, 10, .hu, 0x0, false⟩
  | .dmChStatus_failType => ⟨.dmChStatus, 15, 12, .hu, 0x0, false⟩
  | .dmChStatus_retries => ⟨.dmChStatus, 18, 16, .hu, 0x0, false⟩
  | .dmChIndex_i0 => ⟨.dmChIndex, 15, 0, .hu, 0x0, false⟩
  | .dmChIndex_i1 => ⟨.dmChIndex, 31, 16, .hu, 0x0, false⟩
  | .dmChIndex2_i2 => ⟨.dmChIndex2, 15, 0, .hu, 0x0, false⟩
  | .dmRxCtl_enable => ⟨.dmRxCtl, 0, 0, .rw, 0x0, false⟩
  | .dmRxCtl_ringLog2 => ⟨.dmRxCtl, 11, 8, .rw, 0x8, false⟩
  | .dmRxCtl_bufKib => ⟨.dmRxCtl, 19, 16, .rw, 0xA, false⟩
  | .dmRxCtl_irqCh => ⟨.dmRxCtl, 27, 24, .rw, 0x0, false⟩
  | .dmRxCtl_irqEn => ⟨.dmRxCtl, 28, 28, .rw, 0x0, false⟩
  | .dmTxCtl_enable => ⟨.dmTxCtl, 0, 0, .rw, 0x0, false⟩
  | .dmTxCtl_ringLog2 => ⟨.dmTxCtl, 11, 8, .rw, 0x8, false⟩
  | .dmTxCtl_irqCh => ⟨.dmTxCtl, 27, 24, .rw, 0x0, false⟩
  | .dmTxCtl_irqEn => ⟨.dmTxCtl, 28, 28, .rw, 0x0, false⟩
  | .dmRxPtr_head => ⟨.dmRxPtr, 11, 0, .hu, 0x0, false⟩
  | .dmRxPtr_tail => ⟨.dmRxPtr, 27, 16, .rw, 0x0, false⟩
  | .dmTxPtr_head => ⟨.dmTxPtr, 11, 0, .hu, 0x0, false⟩
  | .dmTxPtr_tail => ⟨.dmTxPtr, 27, 16, .rw, 0x0, false⟩
  | .obPmcCtl_globalEn => ⟨.obPmcCtl, 0, 0, .rw, 0x0, false⟩
  | .obPmcCtl_freezeOnOvf => ⟨.obPmcCtl, 1, 1, .rw, 0x0, false⟩
  | .obPmcCtl_chain => ⟨.obPmcCtl, 14, 8, .rw, 0x0, false⟩
  | .obPmcStatus_ovf => ⟨.obPmcStatus, 7, 0, .w1c, 0x0, false⟩
  | .obPmcSel_event => ⟨.obPmcSel, 7, 0, .rw, 0x0, false⟩
  | .obPmcSel_pipes => ⟨.obPmcSel, 11, 8, .rw, 0x0, false⟩
  | .obPmcSel_classes => ⟨.obPmcSel, 19, 12, .rw, 0x0, false⟩
  | .obPmcSel_port => ⟨.obPmcSel, 27, 20, .rw, 0xFF, false⟩
  | .obBwCtl_windowUs => ⟨.obBwCtl, 23, 0, .rw, 0xF4240, true⟩
  | .obSampleCtl_enable => ⟨.obSampleCtl, 0, 0, .rw, 0x0, true⟩
  | .obSampleCtl_overwrite => ⟨.obSampleCtl, 1, 1, .rw, 0x0, true⟩
  | .obSampleCtl_jitter => ⟨.obSampleCtl, 2, 2, .rw, 0x1, true⟩
  | .obSampleCtl_pipes => ⟨.obSampleCtl, 7, 4, .rw, 0xF, true⟩
  | .obSampleCtl_period => ⟨.obSampleCtl, 31, 8, .rw, 0x2710, true⟩
  | .obSampleStatus_count => ⟨.obSampleStatus, 10, 0, .hu, 0x0, false⟩
  | .obSampleStatus_fullSticky => ⟨.obSampleStatus, 11, 11, .w1c, 0x0, false⟩
  | .obSnapCtl_port => ⟨.obSnapCtl, 4, 0, .rw, 0x0, false⟩
  | .obSnapCtl_snap => ⟨.obSnapCtl, 8, 8, .sc, 0x0, false⟩
  | .obIncCtl_trigger => ⟨.obIncCtl, 0, 0, .sc, 0x0, false⟩
  | .obIncCtl_ftbRelease => ⟨.obIncCtl, 1, 1, .sc, 0x0, false⟩
  | .obIncCtl_alarmTrigger => ⟨.obIncCtl, 2, 2, .rw, 0x1, true⟩
  | .obIncCtl_fillTrigger => ⟨.obIncCtl, 15, 8, .rw, 0x4B, true⟩
  | .obIncCtl_logRate => ⟨.obIncCtl, 23, 16, .rw, 0x64, true⟩
  | .obIncCtl_logBurst => ⟨.obIncCtl, 31, 24, .rw, 0x20, true⟩
  | .obRingStatus_fill => ⟨.obRingStatus, 13, 0, .hu, 0x0, false⟩
  | .obRingStatus_incident => ⟨.obRingStatus, 14, 14, .hu, 0x0, false⟩
  | .obRingStatus_incidentSticky => ⟨.obRingStatus, 15, 15, .w1c, 0x0, false⟩
  | .obRingStatus_ftbState => ⟨.obRingStatus, 17, 16, .hu, 0x0, false⟩
  | .obRingStatus_ftbCount => ⟨.obRingStatus, 26, 18, .hu, 0x0, false⟩
  | .obRingStatus_lastCause => ⟨.obRingStatus, 29, 27, .hu, 0x0, false⟩
  | .obDCtl_enable => ⟨.obDCtl, 0, 0, .rw, 0x0, false⟩
  | .obDCtl_ringLog2 => ⟨.obDCtl, 12, 8, .rw, 0xE, false⟩
  | .obDWptr_wptr => ⟨.obDWptr, 19, 0, .hu, 0x0, false⟩
  | .obDRptr_rptr => ⟨.obDRptr, 19, 0, .rw, 0x0, false⟩
  | .obAlarmSummary_pd => ⟨.obAlarmSummary, 3, 0, .hu, 0x0, false⟩
  | .obAlarmSummary_cd => ⟨.obAlarmSummary, 4, 4, .hu, 0x0, false⟩
  | .obFatal_fatal => ⟨.obFatal, 0, 0, .sc, 0x0, false⟩
  | .obFatal_cause => ⟨.obFatal, 3, 1, .hu, 0x0, false⟩
  | .obFatal_fatalSticky => ⟨.obFatal, 4, 4, .w1c, 0x0, false⟩
  | .scCmd_op => ⟨.scCmd, 3, 0, .rw, 0x0, false⟩
  | .scCmd_start => ⟨.scCmd, 4, 4, .sc, 0x0, false⟩
  | .scStatus_state => ⟨.scStatus, 1, 0, .hu, 0x0, false⟩
  | .scStatus_busySticky => ⟨.scStatus, 2, 2, .w1c, 0x0, false⟩
  | .scStatus_code => ⟨.scStatus, 7, 3, .hu, 0x0, false⟩
  | .scOtpStatus_programmed => ⟨.scOtpStatus, 3, 0, .hu, 0x0, false⟩
  | .scOtpStatus_revoked => ⟨.scOtpStatus, 7, 4, .hu, 0x0, false⟩
  | .scOtpStatus_broken => ⟨.scOtpStatus, 11, 8, .hu, 0x0, false⟩
  | .scOtpStatus_advancesLeft => ⟨.scOtpStatus, 19, 12, .hu, 0x0, false⟩
  | .scOtpStatus_patchLevel => ⟨.scOtpStatus, 23, 20, .hu, 0x0, false⟩
  | .scOtpStatus_patchesLeft => ⟨.scOtpStatus, 27, 24, .hu, 0x0, false⟩
  | .msixTable_dword => ⟨.msixTable, 31, 0, .rw, 0x0, false⟩
  | .msixPba_pending => ⟨.msixPba, 31, 0, .hu, 0x0, false⟩

/-- The fields of a register, lowest bit first. -/
def Reg.flds : Reg → List Fld
  | .imBootStatus => [.imBootStatus_bank, .imBootStatus_aResult, .imBootStatus_bResult]
  | .imBootSeq => [.imBootSeq_seq]
  | .imWriteCtl => [.imWriteCtl_start, .imWriteCtl_abort]
  | .imWriteLen => [.imWriteLen_len]
  | .imWriteStatus => [.imWriteStatus_state, .imWriteStatus_target, .imWriteStatus_code, .imWriteStatus_progress]
  | .imOverlayStatus => [.imOverlayStatus_applied, .imOverlayStatus_rejected]
  | .dvLaserCtl => [.dvLaserCtl_forceOff, .dvLaserCtl_lsEnState, .dvLaserCtl_lsFault, .dvLaserCtl_lsFaultSticky, .dvLaserCtl_addrW, .dvLaserCtl_addrE]
  | .ptPortCtl => [.ptPortCtl_enable, .ptPortCtl_upDebounce, .ptPortCtl_downHoldoff]
  | .ptPortStatus => [.ptPortStatus_state, .ptPortStatus_speed, .ptPortStatus_fec, .ptPortStatus_lastCause, .ptPortStatus_downCount]
  | .lnTsDelay => [.lnTsDelay_rxDelay, .lnTsDelay_txDelay]
  | .lnTsTrim => [.lnTsTrim_rxTrim, .lnTsTrim_txTrim]
  | .opReach => [.opReach_lr, .opReach_lit]
  | .opFibreStatus => [.opFibreStatus_inputPower, .opFibreStatus_dark, .opFibreStatus_darkSticky]
  | .opLanePower => [.opLanePower_txPower, .opLanePower_rxPower]
  | .ptMacCtl => [.ptMacCtl_maxlen]
  | .ptPfcCtl => [.ptPfcCtl_txEn, .ptPfcCtl_rxEn, .ptPfcCtl_quanta]
  | .ptMacThresh => [.ptMacThresh_thresh, .ptMacThresh_exceededSticky]
  | .ptPfcStatus => [.ptPfcStatus_txXoff, .ptPfcStatus_rxPaused]
  | .fpPortCtl => [.fpPortCtl_enable, .fpPortCtl_speed, .fpPortCtl_duplex, .fpPortCtl_bpEn, .fpPortCtl_thresh, .fpPortCtl_maxlen]
  | .fpPortStatus => [.fpPortStatus_up, .fpPortStatus_bpActive, .fpPortStatus_exceededSticky]
  | .fpStatus => [.fpStatus_phyInt, .fpStatus_phyIntSticky]
  | .psPortCtl => [.psPortCtl_startType, .psPortCtl_padLimit, .psPortCtl_thresh]
  | .psPortStatus => [.psPortStatus_lastReason, .psPortStatus_malformedSticky, .psPortStatus_exceededSticky]
  | .psMalAction => [.psMalAction_action, .psMalAction_tc, .psMalAction_trace]
  | .psMalMirror => [.psMalMirror_handle]
  | .psStatus => [.psStatus_graphParitySticky, .psStatus_noSessionSticky]
  | .tkCtl => [.tkCtl_open, .tkCtl_commit, .tkCtl_abort, .tkCtl_at, .tkCtl_timeout]
  | .tkStatus => [.tkStatus_current, .tkStatus_drainOld, .tkStatus_drainNew, .tkStatus_live, .tkStatus_batchOpen, .tkStatus_waiting, .tkStatus_code, .tkStatus_late]
  | .clPortCtl => [.clPortCtl_missEntry, .clPortCtl_parityDrop]
  | .clPipeStatus => [.clPipeStatus_slotsUsed, .clPipeStatus_paritySticky, .clPipeStatus_rateSticky]
  | .clInspectStatus => [.clInspectStatus_window, .clInspectStatus_treeHalf, .clInspectStatus_patternBank, .clInspectStatus_build, .clInspectStatus_scanWaitSticky, .clInspectStatus_treeParitySticky]
  | .clInspectPorts => [.clInspectPorts_ports]
  | .clInspectUse => [.clInspectUse_ruleUnits, .clInspectUse_nodePct]
  | .clTreeCtl => [.clTreeCtl_rebuild, .clTreeCtl_patterns]
  | .tkInflight => [.tkInflight_count]
  | .aeCtl => [.aeCtl_budget, .aeCtl_badEntryAction, .aeCtl_trace]
  | .aeStatus => [.aeStatus_rateSticky, .aeStatus_paritySticky, .aeStatus_faultSticky, .aeStatus_programs]
  | .aeFaultLast => [.aeFaultLast_addr, .aeFaultLast_cause, .aeFaultLast_prog]
  | .fwCtl => [.fwCtl_learnEn, .fwCtl_dstRefresh, .fwCtl_fillThresh]
  | .fwStatus => [.fwStatus_fill, .fwStatus_paritySticky, .fwStatus_learnFailSticky, .fwStatus_fillSticky]
  | .fwFlush => [.fwFlush_port, .fwFlush_fid, .fwFlush_byPort, .fwFlush_byFid, .fwFlush_start]
  | .fwReadIndex => [.fwReadIndex_index]
  | .fwDupCtl => [.fwDupCtl_forget]
  | .fwPortCtl => [.fwPortCtl_defaultVid, .fwPortCtl_learnEn, .fwPortCtl_sticky, .fwPortCtl_ingressFilter, .fwPortCtl_flushOnDown, .fwPortCtl_violation, .fwPortCtl_learnLimit]
  | .fwPrpCtl => [.fwPrpCtl_mode, .fwPrpCtl_lan, .fwPrpCtl_pair, .fwPrpCtl_seqIndex, .fwPrpCtl_pairErr]
  | .swCtl => [.swCtl_gxoffFree]
  | .swStatus => [.swStatus_cellsUsed, .swStatus_globalXoff, .swStatus_bufFullSticky, .swStatus_fabricErrSticky, .swStatus_overrunSticky]
  | .swClassCtl => [.swClassCtl_xoff, .swClassCtl_xon]
  | .swClassVoq => [.swClassVoq_voqLimit]
  | .swAgeLimit => [.swAgeLimit_limit]
  | .swPortCtl => [.swPortCtl_cutThrough, .swPortCtl_headroom]
  | .swHoldLo => [.swHoldLo_tc0, .swHoldLo_tc1, .swHoldLo_tc2, .swHoldLo_tc3]
  | .swHoldHi => [.swHoldHi_tc4, .swHoldHi_tc5, .swHoldHi_tc6, .swHoldHi_tc7]
  | .swPortStatus => [.swPortStatus_holding, .swPortStatus_discarding, .swPortStatus_xoff, .swPortStatus_downBp, .swPortStatus_overrunSticky]
  | .egClassMap => [.egClassMap_pcpMap, .egClassMap_defaultTc]
  | .egSched => [.egSched_strict, .egSched_cbsEn, .egSched_maxrateEn]
  | .egWeight => [.egWeight_weight]
  | .egCbs => [.egCbs_idleSlope]
  | .egMaxrate => [.egMaxrate_rate, .egMaxrate_burst]
  | .egGateCtl => [.egGateCtl_adminLen, .egGateCtl_configChange, .egGateCtl_gateEn, .egGateCtl_adminGates]
  | .egGateStatus => [.egGateStatus_gates, .egGateStatus_operList, .egGateStatus_code, .egGateStatus_entry]
  | .poStorm => [.poStorm_rate, .poStorm_burst]
  | .poStormTypes => [.poStormTypes_types]
  | .poHostCir => [.poHostCir_cir, .poHostCir_cbs]
  | .poHostPir => [.poHostPir_pir, .poHostPir_pbs]
  | .poReadHandle => [.poReadHandle_handle]
  | .miSession => [.miSession_handle]
  | .plCtl => [.plCtl_enable, .plCtl_ringLog2]
  | .plHead => [.plHead_head]
  | .plTail => [.plTail_tail]
  | .plStatus => [.plStatus_busy, .plStatus_waitRoom, .plStatus_moving, .plStatus_tailErrSticky, .plStatus_failSticky, .plStatus_lastCode]
  | .tmCtl => [.tmCtl_ppsOutMode, .tmCtl_ppsInEn, .tmCtl_snap, .tmCtl_ppsWidth]
  | .tmStatus => [.tmStatus_set, .tmStatus_stepPending, .tmStatus_incPending, .tmStatus_timeclkLost, .tmStatus_timeclkLostSticky, .tmStatus_steerIgnoredSticky, .tmStatus_aligned]
  | .tmTaCtl => [.tmTaCtl_index, .tmTaCtl_kind, .tmTaCtl_arm, .tmTaCtl_cancel]
  | .tmTaArg => [.tmTaArg_arg]
  | .tmTaMask => [.tmTaMask_mask]
  | .tmTaValue => [.tmTaValue_value]
  | .tmTaStatus => [.tmTaStatus_code, .tmTaStatus_index, .tmTaStatus_used]
  | .tmTaEntry => [.tmTaEntry_state, .tmTaEntry_kind]
  | .tmDieStatus => [.tmDieStatus_phaseErr, .tmDieStatus_missed, .tmDieStatus_aligned, .tmDieStatus_capOverflowSticky, .tmDieStatus_capCount]
  | .tmCapStatus => [.tmCapStatus_full]
  | .tmPortPtp => [.tmPortPtp_mode, .tmPortPtp_transport]
  | .fbLaneCtl => [.fbLaneCtl_out, .fbLaneCtl_calibrate]
  | .fbLaneStatus => [.fbLaneStatus_state, .fbLaneStatus_txIdle, .fbLaneStatus_lastCause, .fbLaneStatus_removals]
  | .fbLinkCtl => [.fbLinkCtl_policy, .fbLinkCtl_minAwake, .fbLinkCtl_entryUs, .fbLinkCtl_minService]
  | .fbLinkStatus => [.fbLinkStatus_inService, .fbLinkStatus_awake, .fbLinkStatus_belowMinSticky, .fbLinkStatus_longExitSticky]
  | .fbCtl => [.fbCtl_driftSteps, .fbCtl_cellErrLimit, .fbCtl_exitSteps, .fbCtl_minMargin]
  | .lnTestCtl => [.lnTestCtl_source, .lnTestCtl_loopback, .lnTestCtl_start, .lnTestCtl_stop, .lnTestCtl_clear, .lnTestCtl_duration]
  | .lnInjCtl => [.lnInjCtl_kind, .lnInjCtl_len, .lnInjCtl_inject, .lnInjCtl_count]
  | .lnTestStatus => [.lnTestStatus_state, .lnTestStatus_lock, .lnTestStatus_lockLostSticky, .lnTestStatus_code, .lnTestStatus_margin, .lnTestStatus_baseline]
  | .dvBistCtl => [.dvBistCtl_start, .dvBistCtl_code, .dvBistCtl_failedPd, .dvBistCtl_failedCd]
  | .duCtl => [.duCtl_autoClaim, .duCtl_claim, .duCtl_release, .duCtl_feed, .duCtl_clearFault, .duCtl_hwWdogUs, .duCtl_swWdogMs]
  | .duStatus => [.duStatus_duo, .duStatus_unit, .duStatus_role, .duStatus_peerClaim, .duStatus_claimGood, .duStatus_ctUp, .duStatus_ctLanes, .duStatus_peerSeesClaim, .duStatus_peerRole, .duStatus_timeLocked, .duStatus_takeLag, .duStatus_faultCause, .duStatus_interlockLostSticky, .duStatus_ctLostSticky, .duStatus_contentionSticky, .duStatus_splitSticky, .duStatus_takeoverSticky]
  | .duCtTrim => [.duCtTrim_trim]
  | .btStraps => [.btStraps_unit, .btStraps_duoEn, .btStraps_pcieRev, .btStraps_istoreSize, .btStraps_spillEn, .btStraps_bootHold, .btStraps_spare]
  | .btSceneStatus => [.btSceneStatus_scene, .btSceneStatus_cutting, .btSceneStatus_spillSticky, .btSceneStatus_phase]
  | .btBootCtl => [.btBootCtl_continue, .btBootCtl_spillRelease, .btBootCtl_spillTest]
  | .btCutawayCtl => [.btCutawayCtl_maxUs, .btCutawayCtl_minRunMs]
  | .btResetCause => [.btResetCause_cause]
  | .dvTherm => [.dvTherm_alert, .dvTherm_temp, .dvTherm_hottest, .dvTherm_alertActive, .dvTherm_alertSticky]
  | .dvFaultCtl => [.dvFaultCtl_alarmEn, .dvFaultCtl_force, .dvFaultCtl_faultNState]
  | .pwStatus => [.pwStatus_railOn, .pwStatus_railFaultSticky, .pwStatus_vin12LowSticky]
  | .hiId => [.hiId_revision, .hiId_pdPowered, .hiId_oePowered]
  | .hiErrlogStatus => [.hiErrlogStatus_count, .hiErrlogStatus_overflowSticky, .hiErrlogStatus_clear]
  | .hiParityStatus => [.hiParityStatus_safe, .hiParityStatus_sticky]
  | .hiIrqCauseLo => [.hiIrqCauseLo_cause]
  | .hiIrqCauseHi => [.hiIrqCauseHi_cause]
  | .hiIrqEnableLo => [.hiIrqEnableLo_enable]
  | .hiIrqEnableHi => [.hiIrqEnableHi_enable]
  | .wmbSel => [.wmbSel_selector, .wmbSel_part]
  | .wmbCtl => [.wmbCtl_read, .wmbCtl_write, .wmbCtl_valid, .wmbCtl_busy, .wmbCtl_code, .wmbCtl_collideSticky]
  | .wmbD => [.wmbD_data]
  | .dmChCtl => [.dmChCtl_start, .dmChCtl_abort, .dmChCtl_irq, .dmChCtl_retryLimit]
  | .dmChStatus => [.dmChStatus_state, .dmChStatus_overlap, .dmChStatus_code, .dmChStatus_retryOk, .dmChStatus_failWrite, .dmChStatus_failDevice, .dmChStatus_failType, .dmChStatus_retries]
  | .dmChIndex => [.dmChIndex_i0, .dmChIndex_i1]
  | .dmChIndex2 => [.dmChIndex2_i2]
  | .dmRxCtl => [.dmRxCtl_enable, .dmRxCtl_ringLog2, .dmRxCtl_bufKib, .dmRxCtl_irqCh, .dmRxCtl_irqEn]
  | .dmTxCtl => [.dmTxCtl_enable, .dmTxCtl_ringLog2, .dmTxCtl_irqCh, .dmTxCtl_irqEn]
  | .dmRxPtr => [.dmRxPtr_head, .dmRxPtr_tail]
  | .dmTxPtr => [.dmTxPtr_head, .dmTxPtr_tail]
  | .obPmcCtl => [.obPmcCtl_globalEn, .obPmcCtl_freezeOnOvf, .obPmcCtl_chain]
  | .obPmcStatus => [.obPmcStatus_ovf]
  | .obPmcSel => [.obPmcSel_event, .obPmcSel_pipes, .obPmcSel_classes, .obPmcSel_port]
  | .obBwCtl => [.obBwCtl_windowUs]
  | .obSampleCtl => [.obSampleCtl_enable, .obSampleCtl_overwrite, .obSampleCtl_jitter, .obSampleCtl_pipes, .obSampleCtl_period]
  | .obSampleStatus => [.obSampleStatus_count, .obSampleStatus_fullSticky]
  | .obSnapCtl => [.obSnapCtl_port, .obSnapCtl_snap]
  | .obIncCtl => [.obIncCtl_trigger, .obIncCtl_ftbRelease, .obIncCtl_alarmTrigger, .obIncCtl_fillTrigger, .obIncCtl_logRate, .obIncCtl_logBurst]
  | .obRingStatus => [.obRingStatus_fill, .obRingStatus_incident, .obRingStatus_incidentSticky, .obRingStatus_ftbState, .obRingStatus_ftbCount, .obRingStatus_lastCause]
  | .obDCtl => [.obDCtl_enable, .obDCtl_ringLog2]
  | .obDWptr => [.obDWptr_wptr]
  | .obDRptr => [.obDRptr_rptr]
  | .obAlarmSummary => [.obAlarmSummary_pd, .obAlarmSummary_cd]
  | .obFatal => [.obFatal_fatal, .obFatal_cause, .obFatal_fatalSticky]
  | .scCmd => [.scCmd_op, .scCmd_start]
  | .scStatus => [.scStatus_state, .scStatus_busySticky, .scStatus_code]
  | .scOtpStatus => [.scOtpStatus_programmed, .scOtpStatus_revoked, .scOtpStatus_broken, .scOtpStatus_advancesLeft, .scOtpStatus_patchLevel, .scOtpStatus_patchesLeft]
  | .msixTable => [.msixTable_dword]
  | .msixPba => [.msixPba_pending]

/-- Every register, in the order of the spec's map lines. -/
def Reg.all : List Reg := [
  .imBootStatus, .imBootSeq, .imWriteCtl, .imWriteLen, .imWriteStatus, .imOverlayStatus,
  .dvLaserCtl, .ptPortCtl, .ptPortStatus, .lnTsDelay, .lnTsTrim, .opReach,
  .opFibreStatus, .opLanePower, .ptMacCtl, .ptPfcCtl, .ptMacThresh, .ptPfcStatus,
  .fpPortCtl, .fpPortStatus, .fpStatus, .psPortCtl, .psPortStatus, .psMalAction,
  .psMalMirror, .psStatus, .tkCtl, .tkStatus, .clPortCtl, .clPipeStatus,
  .clInspectStatus, .clInspectPorts, .clInspectUse, .clTreeCtl, .tkInflight, .aeCtl,
  .aeStatus, .aeFaultLast, .fwCtl, .fwStatus, .fwFlush, .fwReadIndex,
  .fwDupCtl, .fwPortCtl, .fwPrpCtl, .swCtl, .swStatus, .swClassCtl,
  .swClassVoq, .swAgeLimit, .swPortCtl, .swHoldLo, .swHoldHi, .swPortStatus,
  .egClassMap, .egSched, .egWeight, .egCbs, .egMaxrate, .egGateCtl,
  .egGateStatus, .poStorm, .poStormTypes, .poHostCir, .poHostPir, .poReadHandle,
  .miSession, .plCtl, .plHead, .plTail, .plStatus, .tmCtl,
  .tmStatus, .tmTaCtl, .tmTaArg, .tmTaMask, .tmTaValue, .tmTaStatus,
  .tmTaEntry, .tmDieStatus, .tmCapStatus, .tmPortPtp, .fbLaneCtl, .fbLaneStatus,
  .fbLinkCtl, .fbLinkStatus, .fbCtl, .lnTestCtl, .lnInjCtl, .lnTestStatus,
  .dvBistCtl, .duCtl, .duStatus, .duCtTrim, .btStraps, .btSceneStatus,
  .btBootCtl, .btCutawayCtl, .btResetCause, .dvTherm, .dvFaultCtl, .pwStatus,
  .hiId, .hiErrlogStatus, .hiParityStatus, .hiIrqCauseLo, .hiIrqCauseHi, .hiIrqEnableLo,
  .hiIrqEnableHi, .wmbSel, .wmbCtl, .wmbD, .dmChCtl, .dmChStatus,
  .dmChIndex, .dmChIndex2, .dmRxCtl, .dmTxCtl, .dmRxPtr, .dmTxPtr,
  .obPmcCtl, .obPmcStatus, .obPmcSel, .obBwCtl, .obSampleCtl, .obSampleStatus,
  .obSnapCtl, .obIncCtl, .obRingStatus, .obDCtl, .obDWptr, .obDRptr,
  .obAlarmSummary, .obFatal, .scCmd, .scStatus, .scOtpStatus, .msixTable,
  .msixPba]

end Sys2Proof.Machine
end

