-- ==== Sys2Proof/Machine/WideMap.lean ====
section
/-! DEFINITION. The wide values of the mailboxes: selectors, widths, accesses and values at reset, one constructor for
each row of the spec's wide-value tables (R47, R89, R106, R137, R166, R194, R217, R241, R254, R277, R292, R313, R336,
R353, R368, R393, R406).  A Layout of this file counts selectors where one of the register map counts bytes. -/

namespace Sys2Proof.Machine

/-- The wide values, one constructor for each row of the wide-value tables. -/
inductive Wide where
  | imWriteSrc | imRunningDigest | ptMacAddr | fpMacAddr | fpCutawayCount | fpCutawayTime
  | psMalCount | psHostLoop | tkAtTime | tkSwitchTime | tkLateness | tkCommitCount
  | clMissCount | clParityDrop | clScanWait | aeProg | aeDropCount | aeFaultCount
  | aeCauseCount | aeHostLoop | aeMirrorExcess | aeSeq | aeBind | fwVlanMember
  | fwVlanUntag | fwVlanCtl | fwSweepPeriod | fwLearned | fwStatic | fwReadEntry
  | fwLearnCount | fwLearnFail | fwLearnDrop | fwLearnLimitHit | fwMove | fwConflict
  | fwViolationDrop | fwAged | fwParity | fwFlood | fwUnknownDrop | fwSamePortDrop
  | fwStaticDrop | fwVlanIngressDrop | fwEgressFilterDrop | fwSrcMcast | fwNoDest | fwEvict
  | fwSrRogue | fwSrTagless | fwRedundancy | fwSrPassed | fwSrDiscarded | swAgeDiscard
  | swDownFlush | swDownDiscard | swHeadroomOverrun | swDownBp | swCtAbort | swCtDiscard
  | swBufferFull | swFabricCellError | swCtUnderrun | egGcl0 | egGcl1 | egGateBase
  | egGateCycle | egGateChange | egGateOversize | poStormDrop | poHostDrop | poRead
  | poReadState | miCounters | plRingBase | plDoneCount | plFailCount | plMoveCount
  | plObjects | tmTime | tmSet | tmAdj | tmInc | tmTaTime
  | tmPpsInStamp | tmPpsInCount | tmPpsInIgnored | tmTaLateCount | tmTaLastLateness | tmStepCount
  | tmCapture | tmCapOverflow | tmPtpUpdated | tmPtpSkipped | tmDieTime | tmPortPdelay
  | lnUserPattern | lnBits | lnBitErrors | lnSyncErrors | fbCellErrors | fbLongExits
  | duTakeoverCount | duLastTakeover | duCtBadMsg | duTimeOffset | duCommitCount | duPeerCommitCount
  | duStandbyDiscard | duRoleFlush | pwVin12 | pwIin | pwPower | pwEnergy
  | hiErrlog | hiErrDropped | hiHuCollision | hiReadAbort | hiParityCount | hiParityLast
  | dmDescAddr | dmFailAddr | dmBytes | dmRxBase | dmTxBase | dmTxDiscard
  | obStat | obSnap | obBw | obCycles | obPmc | obSample
  | obSampleLost | obRuleQuery | obRuleCount | obCblkQuery | obCblkPackets | obCblkBytes
  | obAlarmState | obFtb | obLoss | obRaised | obFtbMissed | obDBase
  | obDDelivered | obDLateOrder | scInAddr | scOutAddr | scOutLen | scRollback
  | scSerial | scIdentityPubkey | scChallenge | scKeyHash | scRefused
  deriving DecidableEq, Repr

/-- Width in bits, whether the mailbox may write it, and the value it holds at reset. -/
structure WInfo where
  width : Nat
  acc : Access
  dflt : Nat
  deriving DecidableEq, Repr

/-- The selectors of each wide value. -/
def Wide.layouts : Wide → List Layout
  | .imWriteSrc => [⟨.cd, 0x400, 1, 0x0, 1, 0x0, 0⟩]
  | .imRunningDigest => [⟨.cd, 0x401, 1, 0x0, 1, 0x0, 0⟩]
  | .ptMacAddr => [⟨.pd, 0x480, 32, 0x1, 1, 0x0, 0⟩]
  | .fpMacAddr => [⟨.cd, 0x800, 4, 0x1, 1, 0x0, 0⟩]
  | .fpCutawayCount => [⟨.cd, 0x810, 1, 0x0, 1, 0x0, 0⟩]
  | .fpCutawayTime => [⟨.cd, 0x811, 1, 0x0, 1, 0x0, 0⟩]
  | .psMalCount => [⟨.pd, 0xC00, 37, 0x10, 16, 0x1, 0⟩]
  | .psHostLoop => [⟨.pd, 0xE80, 1, 0x0, 1, 0x0, 0⟩]
  | .tkAtTime => [⟨.cd, 0x500, 1, 0x0, 1, 0x0, 0⟩]
  | .tkSwitchTime => [⟨.cd, 0x501, 1, 0x0, 1, 0x0, 0⟩]
  | .tkLateness => [⟨.cd, 0x502, 1, 0x0, 1, 0x0, 0⟩]
  | .tkCommitCount => [⟨.cd, 0x503, 1, 0x0, 1, 0x0, 0⟩]
  | .clMissCount => [⟨.pd, 0xF00, 37, 0x1, 1, 0x0, 0⟩]
  | .clParityDrop => [⟨.pd, 0xF40, 1, 0x0, 1, 0x0, 0⟩]
  | .clScanWait => [⟨.pd, 0xF41, 1, 0x0, 1, 0x0, 0⟩]
  | .aeProg => [⟨.pd, 0x1000, 1024, 0x1, 1, 0x0, 0⟩]
  | .aeDropCount => [⟨.pd, 0x1400, 1024, 0x1, 1, 0x0, 0⟩]
  | .aeFaultCount => [⟨.pd, 0x1800, 1024, 0x1, 1, 0x0, 0⟩]
  | .aeCauseCount => [⟨.pd, 0x1C00, 9, 0x1, 1, 0x0, 0⟩]
  | .aeHostLoop => [⟨.pd, 0x1C10, 1, 0x0, 1, 0x0, 0⟩]
  | .aeMirrorExcess => [⟨.pd, 0x1C11, 1, 0x0, 1, 0x0, 0⟩]
  | .aeSeq => [⟨.pd, 0x2000, 4096, 0x1, 1, 0x0, 0⟩]
  | .aeBind => [⟨.pd, 0x3000, 4096, 0x1, 1, 0x0, 0⟩]
  | .fwVlanMember => [⟨.pd, 0x4000, 4096, 0x1, 1, 0x0, 0⟩]
  | .fwVlanUntag => [⟨.pd, 0x5000, 4096, 0x1, 1, 0x0, 0⟩]
  | .fwVlanCtl => [⟨.pd, 0x6000, 4096, 0x1, 1, 0x0, 0⟩]
  | .fwSweepPeriod => [⟨.pd, 0x7000, 1, 0x0, 1, 0x0, 0⟩]
  | .fwLearned => [⟨.pd, 0x7001, 1, 0x0, 1, 0x0, 0⟩]
  | .fwStatic => [⟨.pd, 0x7002, 1, 0x0, 1, 0x0, 0⟩]
  | .fwReadEntry => [⟨.pd, 0x7003, 1, 0x0, 1, 0x0, 0⟩]
  | .fwLearnCount => [⟨.pd, 0x7010, 1, 0x0, 1, 0x0, 0⟩]
  | .fwLearnFail => [⟨.pd, 0x7011, 1, 0x0, 1, 0x0, 0⟩]
  | .fwLearnDrop => [⟨.pd, 0x7012, 1, 0x0, 1, 0x0, 0⟩]
  | .fwLearnLimitHit => [⟨.pd, 0x7013, 1, 0x0, 1, 0x0, 0⟩]
  | .fwMove => [⟨.pd, 0x7014, 1, 0x0, 1, 0x0, 0⟩]
  | .fwConflict => [⟨.pd, 0x7015, 1, 0x0, 1, 0x0, 0⟩]
  | .fwViolationDrop => [⟨.pd, 0x7016, 1, 0x0, 1, 0x0, 0⟩]
  | .fwAged => [⟨.pd, 0x7017, 1, 0x0, 1, 0x0, 0⟩]
  | .fwParity => [⟨.pd, 0x7018, 1, 0x0, 1, 0x0, 0⟩]
  | .fwFlood => [⟨.pd, 0x7019, 1, 0x0, 1, 0x0, 0⟩]
  | .fwUnknownDrop => [⟨.pd, 0x701A, 1, 0x0, 1, 0x0, 0⟩]
  | .fwSamePortDrop => [⟨.pd, 0x701B, 1, 0x0, 1, 0x0, 0⟩]
  | .fwStaticDrop => [⟨.pd, 0x701C, 1, 0x0, 1, 0x0, 0⟩]
  | .fwVlanIngressDrop => [⟨.pd, 0x701D, 1, 0x0, 1, 0x0, 0⟩]
  | .fwEgressFilterDrop => [⟨.pd, 0x701E, 1, 0x0, 1, 0x0, 0⟩]
  | .fwSrcMcast => [⟨.pd, 0x701F, 1, 0x0, 1, 0x0, 0⟩]
  | .fwNoDest => [⟨.pd, 0x7020, 1, 0x0, 1, 0x0, 0⟩]
  | .fwEvict => [⟨.pd, 0x7021, 1, 0x0, 1, 0x0, 0⟩]
  | .fwSrRogue => [⟨.pd, 0x7022, 1, 0x0, 1, 0x0, 0⟩]
  | .fwSrTagless => [⟨.pd, 0x7023, 1, 0x0, 1, 0x0, 0⟩]
  | .fwRedundancy => [⟨.pd, 0x7100, 32, 0x8, 6, 0x1, 0⟩]
  | .fwSrPassed => [⟨.pd, 0x8000, 16384, 0x1, 1, 0x0, 0⟩]
  | .fwSrDiscarded => [⟨.pd, 0xC000, 16384, 0x1, 1, 0x0, 0⟩]
  | .swAgeDiscard => [⟨.pd, 0x10000, 133, 0x8, 8, 0x1, 0⟩]
  | .swDownFlush => [⟨.pd, 0x11000, 133, 0x8, 8, 0x1, 0⟩]
  | .swDownDiscard => [⟨.pd, 0x12000, 133, 0x8, 8, 0x1, 0⟩]
  | .swHeadroomOverrun => [⟨.pd, 0x13000, 37, 0x8, 8, 0x1, 0⟩]
  | .swDownBp => [⟨.pd, 0x13400, 37, 0x1, 1, 0x0, 0⟩]
  | .swCtAbort => [⟨.pd, 0x13800, 37, 0x1, 1, 0x0, 0⟩]
  | .swCtDiscard => [⟨.pd, 0x13C00, 37, 0x1, 1, 0x0, 0⟩]
  | .swBufferFull => [⟨.pd, 0x14000, 1, 0x0, 1, 0x0, 0⟩]
  | .swFabricCellError => [⟨.pd, 0x14001, 1, 0x0, 1, 0x0, 0⟩]
  | .swCtUnderrun => [⟨.pd, 0x14002, 1, 0x0, 1, 0x0, 0⟩]
  | .egGcl0 => [⟨.pd, 0x20000, 32, 0x800, 1024, 0x1, 0⟩]
  | .egGcl1 => [⟨.pd, 0x20400, 32, 0x800, 1024, 0x1, 0⟩]
  | .egGateBase => [⟨.pd, 0x30000, 32, 0x1, 1, 0x0, 0⟩]
  | .egGateCycle => [⟨.pd, 0x30020, 32, 0x1, 1, 0x0, 0⟩]
  | .egGateChange => [⟨.pd, 0x30040, 32, 0x1, 1, 0x0, 0⟩]
  | .egGateOversize => [⟨.pd, 0x30100, 32, 0x8, 8, 0x1, 0⟩]
  | .poStormDrop => [⟨.pd, 0x30200, 37, 0x8, 8, 0x1, 0⟩]
  | .poHostDrop => [⟨.pd, 0x30400, 8, 0x1, 1, 0x0, 0⟩]
  | .poRead => [⟨.pd, 0x30410, 7, 0x1, 1, 0x0, 0⟩]
  | .poReadState => [⟨.pd, 0x30417, 1, 0x0, 1, 0x0, 0⟩]
  | .miCounters => [⟨.pd, 0x30500, 16, 0x4, 4, 0x1, 0⟩]
  | .plRingBase => [⟨.cd, 0x600, 1, 0x0, 1, 0x0, 0⟩]
  | .plDoneCount => [⟨.cd, 0x601, 1, 0x0, 1, 0x0, 0⟩]
  | .plFailCount => [⟨.cd, 0x602, 1, 0x0, 1, 0x0, 0⟩]
  | .plMoveCount => [⟨.cd, 0x603, 1, 0x0, 1, 0x0, 0⟩]
  | .plObjects => [⟨.cd, 0x604, 1, 0x0, 1, 0x0, 0⟩]
  | .tmTime => [⟨.cd, 0xA00, 1, 0x0, 1, 0x0, 0⟩]
  | .tmSet => [⟨.cd, 0xA01, 1, 0x0, 1, 0x0, 0⟩]
  | .tmAdj => [⟨.cd, 0xA02, 1, 0x0, 1, 0x0, 0⟩]
  | .tmInc => [⟨.cd, 0xA03, 1, 0x0, 1, 0x0, 0⟩]
  | .tmTaTime => [⟨.cd, 0xA04, 1, 0x0, 1, 0x0, 0⟩]
  | .tmPpsInStamp => [⟨.cd, 0xA05, 1, 0x0, 1, 0x0, 0⟩]
  | .tmPpsInCount => [⟨.cd, 0xA06, 1, 0x0, 1, 0x0, 0⟩]
  | .tmPpsInIgnored => [⟨.cd, 0xA07, 1, 0x0, 1, 0x0, 0⟩]
  | .tmTaLateCount => [⟨.cd, 0xA08, 1, 0x0, 1, 0x0, 0⟩]
  | .tmTaLastLateness => [⟨.cd, 0xA09, 1, 0x0, 1, 0x0, 0⟩]
  | .tmStepCount => [⟨.cd, 0xA0A, 1, 0x0, 1, 0x0, 0⟩]
  | .tmCapture => [⟨.pd, 0x40000, 1, 0x0, 1, 0x0, 0⟩]
  | .tmCapOverflow => [⟨.pd, 0x40001, 1, 0x0, 1, 0x0, 0⟩]
  | .tmPtpUpdated => [⟨.pd, 0x40002, 1, 0x0, 1, 0x0, 0⟩]
  | .tmPtpSkipped => [⟨.pd, 0x40003, 1, 0x0, 1, 0x0, 0⟩]
  | .tmDieTime => [⟨.pd, 0x40004, 1, 0x0, 1, 0x0, 0⟩]
  | .tmPortPdelay => [⟨.pd, 0x40100, 36, 0x1, 1, 0x0, 0⟩]
  | .lnUserPattern => [⟨.pd, 0x50000, 32, 0x10, 1, 0x0, 0⟩, ⟨.pd, 0x51000, 48, 0x10, 4, 0x400, 1⟩, ⟨.cd, 0xC00, 4, 0x10, 1, 0x0, 0⟩]
  | .lnBits => [⟨.pd, 0x50001, 32, 0x10, 1, 0x0, 0⟩, ⟨.pd, 0x51001, 48, 0x10, 4, 0x400, 1⟩, ⟨.cd, 0xC01, 4, 0x10, 1, 0x0, 0⟩]
  | .lnBitErrors => [⟨.pd, 0x50002, 32, 0x10, 1, 0x0, 0⟩, ⟨.pd, 0x51002, 48, 0x10, 4, 0x400, 1⟩, ⟨.cd, 0xC02, 4, 0x10, 1, 0x0, 0⟩]
  | .lnSyncErrors => [⟨.pd, 0x50003, 32, 0x10, 1, 0x0, 0⟩, ⟨.pd, 0x51003, 48, 0x10, 4, 0x400, 1⟩, ⟨.cd, 0xC03, 4, 0x10, 1, 0x0, 0⟩]
  | .fbCellErrors => [⟨.pd, 0x51004, 48, 0x10, 4, 0x400, 0⟩]
  | .fbLongExits => [⟨.pd, 0x51005, 48, 0x10, 4, 0x400, 0⟩]
  | .duTakeoverCount => [⟨.cd, 0xD00, 1, 0x0, 1, 0x0, 0⟩]
  | .duLastTakeover => [⟨.cd, 0xD01, 1, 0x0, 1, 0x0, 0⟩]
  | .duCtBadMsg => [⟨.cd, 0xD02, 1, 0x0, 1, 0x0, 0⟩]
  | .duTimeOffset => [⟨.cd, 0xD03, 1, 0x0, 1, 0x0, 0⟩]
  | .duCommitCount => [⟨.cd, 0xD04, 1, 0x0, 1, 0x0, 0⟩]
  | .duPeerCommitCount => [⟨.cd, 0xD05, 1, 0x0, 1, 0x0, 0⟩]
  | .duStandbyDiscard => [⟨.pd, 0x60000, 1, 0x0, 1, 0x0, 0⟩]
  | .duRoleFlush => [⟨.pd, 0x60001, 1, 0x0, 1, 0x0, 0⟩]
  | .pwVin12 => [⟨.pw, 0x100, 1, 0x0, 1, 0x0, 0⟩]
  | .pwIin => [⟨.pw, 0x101, 1, 0x0, 1, 0x0, 0⟩]
  | .pwPower => [⟨.pw, 0x102, 1, 0x0, 1, 0x0, 0⟩]
  | .pwEnergy => [⟨.pw, 0x103, 1, 0x0, 1, 0x0, 0⟩]
  | .hiErrlog => [⟨.cd, 0xE00, 16, 0x1, 1, 0x0, 0⟩]
  | .hiErrDropped => [⟨.cd, 0xE10, 1, 0x0, 1, 0x0, 0⟩]
  | .hiHuCollision => [⟨.cd, 0xE11, 1, 0x0, 1, 0x0, 0⟩]
  | .hiReadAbort => [⟨.cd, 0xE12, 1, 0x0, 1, 0x0, 0⟩]
  | .hiParityCount => [⟨.cd, 0xE13, 1, 0x0, 1, 0x0, 0⟩]
  | .hiParityLast => [⟨.cd, 0xE14, 1, 0x0, 1, 0x0, 0⟩]
  | .dmDescAddr => [⟨.cd, 0x700, 16, 0x1, 1, 0x0, 0⟩]
  | .dmFailAddr => [⟨.cd, 0x710, 16, 0x1, 1, 0x0, 0⟩]
  | .dmBytes => [⟨.cd, 0x720, 16, 0x1, 1, 0x0, 0⟩]
  | .dmRxBase => [⟨.cd, 0x740, 1, 0x0, 1, 0x0, 0⟩]
  | .dmTxBase => [⟨.cd, 0x748, 8, 0x1, 1, 0x0, 0⟩]
  | .dmTxDiscard => [⟨.cd, 0x750, 1, 0x0, 1, 0x0, 0⟩]
  | .obStat => [⟨.pd, 0x70000, 32, 0x80, 64, 0x1, 0⟩, ⟨.cd, 0x2000, 5, 0x80, 64, 0x1, 0⟩]
  | .obSnap => [⟨.pd, 0x71000, 64, 0x1, 1, 0x0, 0⟩]
  | .obBw => [⟨.pd, 0x72000, 32, 0x10, 6, 0x1, 0⟩]
  | .obCycles => [⟨.pd, 0x73000, 1, 0x0, 1, 0x0, 0⟩]
  | .obPmc => [⟨.pd, 0x73008, 8, 0x1, 1, 0x0, 0⟩]
  | .obSample => [⟨.pd, 0x74000, 1, 0x0, 1, 0x0, 0⟩]
  | .obSampleLost => [⟨.pd, 0x74001, 1, 0x0, 1, 0x0, 0⟩]
  | .obRuleQuery => [⟨.pd, 0x74010, 1, 0x0, 1, 0x0, 0⟩]
  | .obRuleCount => [⟨.pd, 0x74011, 1, 0x0, 1, 0x0, 0⟩]
  | .obCblkQuery => [⟨.pd, 0x74020, 1, 0x0, 1, 0x0, 0⟩]
  | .obCblkPackets => [⟨.pd, 0x74021, 1, 0x0, 1, 0x0, 0⟩]
  | .obCblkBytes => [⟨.pd, 0x74022, 1, 0x0, 1, 0x0, 0⟩]
  | .obAlarmState => [⟨.pd, 0x75000, 256, 0x1, 1, 0x0, 0⟩, ⟨.cd, 0x2400, 256, 0x1, 1, 0x0, 0⟩]
  | .obFtb => [⟨.pd, 0x76000, 256, 0x1, 1, 0x0, 0⟩, ⟨.cd, 0x2500, 256, 0x1, 1, 0x0, 0⟩]
  | .obLoss => [⟨.pd, 0x77000, 3, 0x3, 3, 0x1, 0⟩, ⟨.cd, 0x2600, 3, 0x3, 3, 0x1, 0⟩]
  | .obRaised => [⟨.pd, 0x77010, 1, 0x0, 1, 0x0, 0⟩, ⟨.cd, 0x2610, 1, 0x0, 1, 0x0, 0⟩]
  | .obFtbMissed => [⟨.pd, 0x77011, 1, 0x0, 1, 0x0, 0⟩, ⟨.cd, 0x2611, 1, 0x0, 1, 0x0, 0⟩]
  | .obDBase => [⟨.cd, 0x2300, 1, 0x0, 1, 0x0, 0⟩]
  | .obDDelivered => [⟨.cd, 0x2301, 1, 0x0, 1, 0x0, 0⟩]
  | .obDLateOrder => [⟨.cd, 0x2302, 1, 0x0, 1, 0x0, 0⟩]
  | .scInAddr => [⟨.cd, 0xF00, 1, 0x0, 1, 0x0, 0⟩]
  | .scOutAddr => [⟨.cd, 0xF01, 1, 0x0, 1, 0x0, 0⟩]
  | .scOutLen => [⟨.cd, 0xF02, 1, 0x0, 1, 0x0, 0⟩]
  | .scRollback => [⟨.cd, 0xF03, 1, 0x0, 1, 0x0, 0⟩]
  | .scSerial => [⟨.cd, 0xF04, 1, 0x0, 1, 0x0, 0⟩]
  | .scIdentityPubkey => [⟨.cd, 0xF05, 1, 0x0, 1, 0x0, 0⟩]
  | .scChallenge => [⟨.cd, 0xF06, 1, 0x0, 1, 0x0, 0⟩]
  | .scKeyHash => [⟨.cd, 0xF10, 4, 0x1, 1, 0x0, 0⟩]
  | .scRefused => [⟨.cd, 0xF20, 1, 0x0, 1, 0x0, 0⟩]

/-- Width, access and reset value of each wide value. -/
def Wide.info : Wide → WInfo
  | .imWriteSrc => ⟨64, .rw, 0⟩
  | .imRunningDigest => ⟨512, .ro, 0⟩
  | .ptMacAddr => ⟨48, .rw, 0⟩
  | .fpMacAddr => ⟨48, .rw, 0⟩
  | .fpCutawayCount => ⟨64, .ro, 0⟩
  | .fpCutawayTime => ⟨64, .ro, 0⟩
  | .psMalCount => ⟨64, .rw, 0⟩
  | .psHostLoop => ⟨64, .rw, 0⟩
  | .tkAtTime => ⟨64, .rw, 0⟩
  | .tkSwitchTime => ⟨64, .ro, 0⟩
  | .tkLateness => ⟨64, .ro, 0⟩
  | .tkCommitCount => ⟨64, .ro, 0⟩
  | .clMissCount => ⟨64, .rw, 0⟩
  | .clParityDrop => ⟨64, .rw, 0⟩
  | .clScanWait => ⟨64, .rw, 0⟩
  | .aeProg => ⟨64, .ro, 0⟩
  | .aeDropCount => ⟨64, .rw, 0⟩
  | .aeFaultCount => ⟨64, .rw, 0⟩
  | .aeCauseCount => ⟨64, .rw, 0⟩
  | .aeHostLoop => ⟨64, .rw, 0⟩
  | .aeMirrorExcess => ⟨64, .rw, 0⟩
  | .aeSeq => ⟨16, .rw, 0⟩
  | .aeBind => ⟨64, .ro, 0⟩
  | .fwVlanMember => ⟨128, .rw, 0⟩
  | .fwVlanUntag => ⟨128, .rw, 0⟩
  | .fwVlanCtl => ⟨64, .rw, 0⟩
  | .fwSweepPeriod => ⟨64, .rw, 0x174876e800⟩
  | .fwLearned => ⟨64, .ro, 0⟩
  | .fwStatic => ⟨64, .ro, 0⟩
  | .fwReadEntry => ⟨128, .ro, 0⟩
  | .fwLearnCount => ⟨64, .rw, 0⟩
  | .fwLearnFail => ⟨64, .rw, 0⟩
  | .fwLearnDrop => ⟨64, .rw, 0⟩
  | .fwLearnLimitHit => ⟨64, .rw, 0⟩
  | .fwMove => ⟨64, .rw, 0⟩
  | .fwConflict => ⟨64, .rw, 0⟩
  | .fwViolationDrop => ⟨64, .rw, 0⟩
  | .fwAged => ⟨64, .rw, 0⟩
  | .fwParity => ⟨64, .rw, 0⟩
  | .fwFlood => ⟨64, .rw, 0⟩
  | .fwUnknownDrop => ⟨64, .rw, 0⟩
  | .fwSamePortDrop => ⟨64, .rw, 0⟩
  | .fwStaticDrop => ⟨64, .rw, 0⟩
  | .fwVlanIngressDrop => ⟨64, .rw, 0⟩
  | .fwEgressFilterDrop => ⟨64, .rw, 0⟩
  | .fwSrcMcast => ⟨64, .rw, 0⟩
  | .fwNoDest => ⟨64, .rw, 0⟩
  | .fwEvict => ⟨64, .rw, 0⟩
  | .fwSrRogue => ⟨64, .rw, 0⟩
  | .fwSrTagless => ⟨64, .rw, 0⟩
  | .fwRedundancy => ⟨64, .rw, 0⟩
  | .fwSrPassed => ⟨64, .rw, 0⟩
  | .fwSrDiscarded => ⟨64, .rw, 0⟩
  | .swAgeDiscard => ⟨64, .rw, 0⟩
  | .swDownFlush => ⟨64, .rw, 0⟩
  | .swDownDiscard => ⟨64, .rw, 0⟩
  | .swHeadroomOverrun => ⟨64, .rw, 0⟩
  | .swDownBp => ⟨64, .rw, 0⟩
  | .swCtAbort => ⟨64, .rw, 0⟩
  | .swCtDiscard => ⟨64, .rw, 0⟩
  | .swBufferFull => ⟨64, .rw, 0⟩
  | .swFabricCellError => ⟨64, .rw, 0⟩
  | .swCtUnderrun => ⟨64, .rw, 0⟩
  | .egGcl0 => ⟨64, .rw, 0⟩
  | .egGcl1 => ⟨64, .rw, 0⟩
  | .egGateBase => ⟨64, .rw, 0⟩
  | .egGateCycle => ⟨64, .rw, 0⟩
  | .egGateChange => ⟨64, .ro, 0⟩
  | .egGateOversize => ⟨64, .rw, 0⟩
  | .poStormDrop => ⟨64, .rw, 0⟩
  | .poHostDrop => ⟨64, .rw, 0⟩
  | .poRead => ⟨64, .ro, 0⟩
  | .poReadState => ⟨64, .ro, 0⟩
  | .miCounters => ⟨64, .rw, 0⟩
  | .plRingBase => ⟨64, .rw, 0⟩
  | .plDoneCount => ⟨64, .rw, 0⟩
  | .plFailCount => ⟨64, .rw, 0⟩
  | .plMoveCount => ⟨64, .rw, 0⟩
  | .plObjects => ⟨64, .ro, 0⟩
  | .tmTime => ⟨96, .ro, 0⟩
  | .tmSet => ⟨64, .rw, 0⟩
  | .tmAdj => ⟨64, .rw, 0⟩
  | .tmInc => ⟨40, .rw, 0x200000000⟩
  | .tmTaTime => ⟨64, .rw, 0⟩
  | .tmPpsInStamp => ⟨96, .ro, 0⟩
  | .tmPpsInCount => ⟨64, .rw, 0⟩
  | .tmPpsInIgnored => ⟨64, .rw, 0⟩
  | .tmTaLateCount => ⟨64, .rw, 0⟩
  | .tmTaLastLateness => ⟨64, .ro, 0⟩
  | .tmStepCount => ⟨64, .rw, 0⟩
  | .tmCapture => ⟨128, .ro, 0⟩
  | .tmCapOverflow => ⟨64, .rw, 0⟩
  | .tmPtpUpdated => ⟨64, .rw, 0⟩
  | .tmPtpSkipped => ⟨64, .rw, 0⟩
  | .tmDieTime => ⟨96, .ro, 0⟩
  | .tmPortPdelay => ⟨64, .rw, 0⟩
  | .lnUserPattern => ⟨64, .rw, 0⟩
  | .lnBits => ⟨64, .rw, 0⟩
  | .lnBitErrors => ⟨64, .rw, 0⟩
  | .lnSyncErrors => ⟨64, .rw, 0⟩
  | .fbCellErrors => ⟨64, .rw, 0⟩
  | .fbLongExits => ⟨64, .rw, 0⟩
  | .duTakeoverCount => ⟨64, .rw, 0⟩
  | .duLastTakeover => ⟨64, .ro, 0⟩
  | .duCtBadMsg => ⟨64, .rw, 0⟩
  | .duTimeOffset => ⟨64, .ro, 0⟩
  | .duCommitCount => ⟨64, .ro, 0⟩
  | .duPeerCommitCount => ⟨64, .ro, 0⟩
  | .duStandbyDiscard => ⟨64, .rw, 0⟩
  | .duRoleFlush => ⟨64, .rw, 0⟩
  | .pwVin12 => ⟨64, .ro, 0⟩
  | .pwIin => ⟨64, .ro, 0⟩
  | .pwPower => ⟨64, .ro, 0⟩
  | .pwEnergy => ⟨64, .rw, 0⟩
  | .hiErrlog => ⟨128, .ro, 0⟩
  | .hiErrDropped => ⟨64, .rw, 0⟩
  | .hiHuCollision => ⟨64, .rw, 0⟩
  | .hiReadAbort => ⟨64, .rw, 0⟩
  | .hiParityCount => ⟨64, .rw, 0⟩
  | .hiParityLast => ⟨64, .ro, 0⟩
  | .dmDescAddr => ⟨64, .rw, 0⟩
  | .dmFailAddr => ⟨64, .ro, 0⟩
  | .dmBytes => ⟨64, .rw, 0⟩
  | .dmRxBase => ⟨64, .rw, 0⟩
  | .dmTxBase => ⟨64, .rw, 0⟩
  | .dmTxDiscard => ⟨64, .rw, 0⟩
  | .obStat => ⟨64, .rw, 0⟩
  | .obSnap => ⟨64, .ro, 0⟩
  | .obBw => ⟨64, .ro, 0⟩
  | .obCycles => ⟨64, .rw, 0⟩
  | .obPmc => ⟨48, .rw, 0⟩
  | .obSample => ⟨256, .ro, 0⟩
  | .obSampleLost => ⟨64, .rw, 0⟩
  | .obRuleQuery => ⟨64, .rw, 0⟩
  | .obRuleCount => ⟨64, .ro, 0⟩
  | .obCblkQuery => ⟨64, .rw, 0⟩
  | .obCblkPackets => ⟨64, .ro, 0⟩
  | .obCblkBytes => ⟨64, .ro, 0⟩
  | .obAlarmState => ⟨256, .rw, 0⟩
  | .obFtb => ⟨256, .ro, 0⟩
  | .obLoss => ⟨64, .rw, 0⟩
  | .obRaised => ⟨64, .rw, 0⟩
  | .obFtbMissed => ⟨64, .rw, 0⟩
  | .obDBase => ⟨64, .rw, 0⟩
  | .obDDelivered => ⟨64, .rw, 0⟩
  | .obDLateOrder => ⟨64, .rw, 0⟩
  | .scInAddr => ⟨64, .rw, 0⟩
  | .scOutAddr => ⟨64, .rw, 0⟩
  | .scOutLen => ⟨64, .rw, 0⟩
  | .scRollback => ⟨64, .ro, 0⟩
  | .scSerial => ⟨128, .ro, 0⟩
  | .scIdentityPubkey => ⟨512, .ro, 0⟩
  | .scChallenge => ⟨256, .ro, 0⟩
  | .scKeyHash => ⟨512, .ro, 0⟩
  | .scRefused => ⟨64, .rw, 0⟩

/-- Every wide value, in the order of the tables. -/
def Wide.all : List Wide := [
  .imWriteSrc, .imRunningDigest, .ptMacAddr, .fpMacAddr, .fpCutawayCount, .fpCutawayTime, .psMalCount, .psHostLoop,
  .tkAtTime, .tkSwitchTime, .tkLateness, .tkCommitCount, .clMissCount, .clParityDrop, .clScanWait, .aeProg,
  .aeDropCount, .aeFaultCount, .aeCauseCount, .aeHostLoop, .aeMirrorExcess, .aeSeq, .aeBind, .fwVlanMember,
  .fwVlanUntag, .fwVlanCtl, .fwSweepPeriod, .fwLearned, .fwStatic, .fwReadEntry, .fwLearnCount, .fwLearnFail,
  .fwLearnDrop, .fwLearnLimitHit, .fwMove, .fwConflict, .fwViolationDrop, .fwAged, .fwParity, .fwFlood,
  .fwUnknownDrop, .fwSamePortDrop, .fwStaticDrop, .fwVlanIngressDrop, .fwEgressFilterDrop, .fwSrcMcast, .fwNoDest, .fwEvict,
  .fwSrRogue, .fwSrTagless, .fwRedundancy, .fwSrPassed, .fwSrDiscarded, .swAgeDiscard, .swDownFlush, .swDownDiscard,
  .swHeadroomOverrun, .swDownBp, .swCtAbort, .swCtDiscard, .swBufferFull, .swFabricCellError, .swCtUnderrun, .egGcl0,
  .egGcl1, .egGateBase, .egGateCycle, .egGateChange, .egGateOversize, .poStormDrop, .poHostDrop, .poRead,
  .poReadState, .miCounters, .plRingBase, .plDoneCount, .plFailCount, .plMoveCount, .plObjects, .tmTime,
  .tmSet, .tmAdj, .tmInc, .tmTaTime, .tmPpsInStamp, .tmPpsInCount, .tmPpsInIgnored, .tmTaLateCount,
  .tmTaLastLateness, .tmStepCount, .tmCapture, .tmCapOverflow, .tmPtpUpdated, .tmPtpSkipped, .tmDieTime, .tmPortPdelay,
  .lnUserPattern, .lnBits, .lnBitErrors, .lnSyncErrors, .fbCellErrors, .fbLongExits, .duTakeoverCount, .duLastTakeover,
  .duCtBadMsg, .duTimeOffset, .duCommitCount, .duPeerCommitCount, .duStandbyDiscard, .duRoleFlush, .pwVin12, .pwIin,
  .pwPower, .pwEnergy, .hiErrlog, .hiErrDropped, .hiHuCollision, .hiReadAbort, .hiParityCount, .hiParityLast,
  .dmDescAddr, .dmFailAddr, .dmBytes, .dmRxBase, .dmTxBase, .dmTxDiscard, .obStat, .obSnap,
  .obBw, .obCycles, .obPmc, .obSample, .obSampleLost, .obRuleQuery, .obRuleCount, .obCblkQuery,
  .obCblkPackets, .obCblkBytes, .obAlarmState, .obFtb, .obLoss, .obRaised, .obFtbMissed, .obDBase,
  .obDDelivered, .obDLateOrder, .scInAddr, .scOutAddr, .scOutLen, .scRollback, .scSerial, .scIdentityPubkey,
  .scChallenge, .scKeyHash, .scRefused]

end Sys2Proof.Machine
end

