-- ==== Sys2Proof/Machine/StateTypes.lean ====
section
/-! DEFINITION. The structures the machine's state is built of, chapter by chapter.  What a register field or a wide value
already holds has no second home here. -/

namespace Sys2Proof.Machine

/-! ### Registers and the host interface (Host interface and register behaviour) -/

/-- One field of one register: its window and its array indices. -/
structure FKey where
  f : Fld
  w : Nat
  i : Nat
  j : Nat
  deriving DecidableEq, Repr

/-- One wide value: its window and its array indices. -/
structure WKey where
  x : Wide
  w : Nat
  i : Nat
  j : Nat
  deriving DecidableEq, Repr

/-- One register: its window and its array indices. -/
structure RKey where
  r : Reg
  w : Nat
  i : Nat
  j : Nat
  deriving DecidableEq, Repr

/-- The snapshot a mailbox holds (R345): the selector and the whole value. -/
structure Snapshot where
  sel : Nat
  width : Nat
  value : Nat
  deriving DecidableEq, Repr

/-- An entry of the register error log (Table 16-8). -/
structure ErrEntry where
  offset : Nat
  type : Nat
  data : Nat
  source : Nat
  index : Nat
  time : Nat
  deriving DecidableEq, Repr

/-! ### Supplies, balls, boot and image store (Balls, scenes, power and reset; Storyboard, image store and defaults) -/

/-- The supplies and the balls that no register field shows.  `conv` is whether the PW converts, `vinLow` whether a VIN12_LOW
reset awaits the 10 ms of R317, `phyInt` whether FPHY_INT_N is low, `cause` the reset-cause latch. -/
structure Supply where
  vaux33 : Bool := true
  vin12 : Bool := true
  conv : Bool := true
  pwrGood : Bool := true
  porstN : Bool := false
  perstN : Bool := false
  cfgReady : Bool := false
  d3hot : Bool := false
  thermShut : Bool := false
  railFault : Bool := false
  vinLow : Bool := false
  phyInt : Bool := false
  cause : Nat := 0
  deriving DecidableEq, Repr

/-- What a bank of the flash holds.  `none` for the header is an erased first sector, which reads 0xFF bytes; `none` for
the body is a body not wholly programmed, else its bytes and those of the signature. -/
structure BankData where
  hdr : Option ImgHeader := none
  body : Option (List Byte × List Byte) := none
  deriving DecidableEq, Repr

/-- The image-store flash (R38). -/
structure Flash where
  a : BankData := {}
  b : BankData := {}
  deriving DecidableEq, Repr

/-- A running image write: the image in host memory, the flash operations left of its STATE, whether the first sector was
erased, whether the header was written, whether ABORT was asked for, and the code it will fail with once the first sector is
erased again (R45). -/
structure ImgWrite where
  img : Image
  todo : Nat := 0
  erased : Bool := false
  headerDone : Bool := false
  abort : Bool := false
  failing : Option Nat := none
  deriving DecidableEq, Repr

/-- Boot progress, scenes and the storyboard in force: whether the device is out of reset, whether the flash answers as its
parameters and ISTORE_SIZE say, the banks whose header could be read, the banks still to be tried, the dies still to be
powered, the storyboard and header that run, the scene a cut leads to, the CD ticks of the last cuts to cutaway and to spill, a cut to spill that is due (0 incident, 1 SPILL_TEST), an erase owed to the
target bank (R328), whether the flash works on a command that a cutaway issued (R44), and the running image write. -/
structure Boot where
  run : Bool := false
  flashOk : Bool := true
  readOk : List Bank := []
  todo : List Bank := []
  power : List Nat := []
  sb : Storyboard := {}
  hdr : ImgHeader := {}
  factory : Bool := false
  applied : Bool := false
  cutTo : Option Nat := none
  cutAt : Nat := 0
  runAt : Option Nat := none
  spillAt : Nat := 0
  spillDue : Option Nat := none
  eraseDebt : Bool := false
  issued : Bool := false
  write : Option ImgWrite := none
  deriving DecidableEq, Repr

/-! ### Event rings (Counters, sampling and dailies) -/

/-- A raised event record (Table 18-5) before its bytes are formed. -/
structure EvRec where
  time : Nat
  code : Nat
  source : Nat
  cls : Nat
  seq : Nat
  payload : Nat
  deriving DecidableEq, Repr

/-- What is coalesced of one code (R386). -/
structure Coalesced where
  code : Nat
  cls : Nat
  source : Nat
  count : Nat
  first : Nat
  last : Nat
  deriving DecidableEq, Repr

/-- One event ring with its incident machinery (R382–R390). -/
structure Ring where
  recs : List EvRec := []
  seq : Nat := 0
  summ : List Coalesced := []
  incident : Bool := false
  incAlarm : Nat := 0
  incLog : Nat := 0
  incTrace : Nat := 0
  ftbState : Nat := 0
  ftb : List EvRec := []
  alarms : List (Nat × Nat) := []
  deriving DecidableEq, Repr

/-- A token bucket filled by elapsed ticks (Table 12-1). -/
inductive BKey where
  | emission (r : Nat)
  | code (r c : Nat)
  | meterC (die h : Nat)
  | meterP (die h : Nat)
  | storm (die s c : Nat)
  | hostC (die c : Nat)
  | hostP (die c : Nat)
  | maxrate (die s c : Nat)
  | cbs (die s c : Nat)
  deriving DecidableEq, Repr

/-- A sampled record (Table 18-4). -/
structure Sample where
  time : Nat
  word : Nat
  addr : Nat
  latency : Nat
  port : Nat
  flags : Nat
  who : Nat
  slots : Nat
  budget : Nat
  cycles : Nat
  deriving DecidableEq, Repr

/-- Observability beside its registers: rings of PD0–PD3 and the CD, sampled records, the events already raised in the
running 1 s interval, the highest TIME delivered from each ring, and the sampling countdown of each pipe. -/
structure Obs where
  rings : Vector Ring 5 := Vector.replicate 5 {}
  samples : List (Nat × Sample) := []
  once : List (Nat × Nat × Nat) := []
  delivered : List (Nat × Nat) := []
  countdown : List (Nat × Nat) := []
  bw : List (Nat × Nat × Nat × Nat × Nat × Nat) := []
  bwAt : List (Nat × Nat) := []
  bwOld : List (Nat × Nat) := []
  deriving DecidableEq, Repr

/-! ### Time (Time, stamping and timed actions) -/

/-- A time island: time in units of 2⁻³² ns modulo 2⁹⁶, its increment, elapsed ticks, and the slew in progress: what each
tick adds and the ticks left. -/
structure Island where
  t : Nat := 0
  inc : Nat := 0x0200000000
  ticks : Nat := 0
  slew : Int := 0
  slewTicks : Nat := 0
  deriving DecidableEq, Repr

/-- A pending step (R263): its signed size in units of 2⁻³² ns, the CD ticks at its write, and whether a PPS_IN edge made
it (R275). -/
structure Step where
  delta : Int
  at_ : Nat
  snap : Bool := false
  deriving DecidableEq, Repr

/-- A timed-action entry (R271): `late` once its T is known to have passed before it could run (R272). -/
structure TaEntry where
  kind : Nat
  t : Nat
  arg : Nat := 0
  mask : Nat := 0
  value : Nat := 0
  dispatched : Bool := false
  late : Bool := false
  deriving DecidableEq, Repr

/-- A capture entry (Table 12-5). -/
structure CapEntry where
  frac : Nat
  time : Nat
  port : Nat
  tag : Nat
  discarded : Bool
  deriving DecidableEq, Repr

/-- Time state beside its registers. -/
structure Time where
  isl : Vector Island 5 := Vector.replicate 5 {}
  incPend : Option (Nat × Nat) := none
  step : Option Step := none
  ta : List (Nat × TaEntry) := []
  caps : List (Nat × CapEntry) := []
  ppsOut : Bool := false
  ppsMode : Nat := 0
  ppsRose : Option Nat := none
  lastEdge : Option Nat := none
  clkLostAt : Nat := 0
  deriving DecidableEq, Repr

/-! ### The frame path -/

/-- A parsed header: its type, its start as parsed, its current start after edits, and its length (Table 5-5). -/
structure Hdr where
  ty : Nat
  start : Nat
  cur : Nat
  len : Nat
  deriving DecidableEq, Repr

/-- An extract taken by the parser. -/
structure Extract where
  ty : Nat
  occ : Nat
  idx : Nat
  width : Nat
  value : Nat
  deriving DecidableEq, Repr

/-- A check that awaits the frame's last byte (R99): its reason and the header it concerns; for FRAG_OVERRUN the fragment
offset in bytes and the offset after the header. -/
structure Late where
  reason : Nat
  idx : Nat
  frag : Nat := 0
  after : Nat := 0
  deriving DecidableEq, Repr

/-- The parse result (Table 5-5).  `regionHdr` is the index of the header whose length set the outermost region,
`badAddr` the graph word a parity error was met in. -/
structure ParseRes where
  stack : List Hdr := []
  payload : Nat := 0
  curPayload : Nat := 0
  regionEnd : Option Nat := none
  regionHdr : Nat := 0
  extracts : List Extract := []
  trunc : Bool := false
  malformed : Bool := false
  reason : Nat := 0
  failIdx : Nat := 0
  failOff : Nat := 0
  tailPending : Bool := false
  late : Option Late := none
  badAddr : Nat := 0
  deriving DecidableEq, Repr

/-- The classification result (Table 6-4) with the matching rule and the pattern report. -/
structure ClsRes where
  hit : Bool := false
  scan : Bool := false
  err : Bool := false
  entry : Nat := 0
  param : Nat := 0
  group : Nat := 0
  ruleId : Nat := 0
  phit : Bool := false
  pid : Nat := 0
  pmore : Bool := false
  deriving DecidableEq, Repr

/-- The directive of a frame (Table 7-5). -/
inductive Dir where
  | lookup
  | port (p : Nat)
  | group (h : Nat)
  | drop
  | host (code : Nat)
  deriving DecidableEq, Repr

/-- Where a frame stands: still in the CD's buffer, its head not yet parsed, its walk ended, its rules searched, waiting for
an engine, running its program, its program ended, handed on to the lookup, replicated. -/
inductive Stage where
  | cd | arriving | parsed | looked | ready | running | ended | handed | replicated
  deriving DecidableEq, Repr

/-- What a copy is made for (R208). -/
inductive CopyKind where
  | fwd
  | mirror (m : Nat)
  | host (code : Nat)
  | pair
  | ring
  deriving DecidableEq, Repr

/-- A copy that replication has still to queue (R208), with the slot whose VOQ takes it and the number of the tag the
device adds for an HSR port (R190). -/
structure CopyReq where
  kind : CopyKind
  port : Nat
  tc : Nat
  trunc : Nat := 0
  slot : Nat := 0
  seq : Option Nat := none
  group : Nat := 0
  deriving DecidableEq, Repr

/-- The malformed action a verdict found in force (R97, R102): ACTION, TC, TRACE and the handle of PS_MAL_MIRROR. -/
structure MalAct where
  action : Nat
  tc : Nat
  trace : Bool
  handle : Nat
  deriving DecidableEq, Repr

/-- The part of a frame that a program's edits and requests make and that fault actions DEFAULT and HOST undo. -/
structure Work where
  win : List Byte := []
  growth : Int := 0
  stack : List Hdr := []
  payload : Nat := 0
  tc : Nat := 0
  vid : Nat := 0
  tcSet : Bool := false
  forceSf : Bool := false
  noLearn : Bool := false
  dir : Dir := .lookup
  rtag : Option (Nat × Nat) := none
  tagAt : Option Nat := none
  mirrors : List Nat := []
  hostReq : Option Nat := none
  changed : List (Nat × Nat × Nat) := []
  deriving DecidableEq, Repr

/-- What a host transmit descriptor asks of a frame (R269, R365). -/
structure OneStep where
  mode : Nat
  tag : Nat
  ref : Nat
  deriving DecidableEq, Repr

/-- A frame on its ingress die.  `bytes` are the bytes received so far from the destination address on, FCS excluded, up to
byte MAXLEN + 1, and `excess` counts those discarded after it (R76); `work.win` are those bytes as edited.  `whole` is that its
MAC has accepted its tail, `known` that any late verdict is known too (R199).  `onAccept` are the counters that count the
frame once its MAC has accepted it (R19), `onKnown` those of its places that are no copies yet (R199), `slow` the supplies it
will wait for (bit 0 search rate, 1 scan capacity, 2 action slots), `waiting` that it waits for one now, `silent` that it was discarded before the lookup, so that only its port's
mirror sessions and its malformed action copy it, `mal` the action of its malformed verdict, `walkCfg` the
START_TYPE and PAD_LIMIT its walk began with (R102), `tailCopies` the host copies that wait for its length (R236), `moved`
the steps of device time since its arrival (Table 12-1). -/
structure Frame where
  id : Nat
  die : Nat
  port : Nat
  take : Nat
  stamp : Nat
  bytes : List Byte
  maxlen : Nat := 1522
  admitted : Bool := false
  excess : Nat := 0
  whole : Bool := false
  known : Bool := false
  slow : Nat := 0
  waiting : Bool := false
  control : Bool := false
  noRoom : Bool := false
  parse : ParseRes := {}
  cls : ClsRes := {}
  stage : Stage := .arriving
  init : Work := {}
  work : Work := {}
  prog : Option Nat := none
  dropRed : Option Nat := none
  charges : List (Nat × Nat) := []
  counts : List (Nat × Nat × Nat) := []
  onAccept : List WKey := []
  onKnown : List WKey := []
  fid : Option Nat := none
  egLearned : List Nat := []
  flooded : Bool := false
  seqNo : Option Nat := none
  stream : Option Nat := none
  todo : List CopyReq := []
  cells : Nat := 0
  reserved : Nat := 0
  learnDone : Bool := false
  learnOk : Bool := false
  oneStep : Option OneStep := none
  tailCopies : List CopyReq := []
  silent : Bool := false
  mal : Option MalAct := none
  walkCfg : Nat × Nat := (0, 6)
  moved : Int := 0
  deriving DecidableEq, Repr

/-- A copy of a frame (R208).  Copies stand in the state's list in the order in which they entered their VOQs, and `qseq`
orders them in their egress queues (0 is no place yet).  What a copy carries of its frame (bytes, take, stamp, VLAN, sequence number) is read
from the frame, which is held until its last copy has ended.  `sent` counts cells read from the VOQ, `got` are the cells
held at the egress die, each by its number and the output slot it came through; `backoff` is what was drawn for its last
collision; `used` is how many bytes of the frame its transmission began with, `hsrAt` where an HSR tag stands whose
size awaits the frame's end, `pre` the bytes before PTP updates of a copy that may have to be sent again. -/
structure Copy where
  id : Nat
  frame : Nat
  kind : CopyKind
  port : Nat
  tc : Nat
  slot : Nat
  deferred : Bool := false
  sf : Bool
  sent : Nat := 0
  got : List (Nat × Nat) := []
  qseq : Nat := 0
  tx : Bool := false
  out : List Byte := []
  bad : Bool := false
  aborted : Bool := false
  trunc : Nat := 0
  seq : Option Nat := none
  group : Nat := 0
  attempts : Nat := 0
  backoff : Nat := 0
  deferredOnce : Bool := false
  waiting : Bool := false
  departed : Nat := 0
  used : Nat := 0
  hsrAt : Option Nat := none
  pre : Option Work := none
  deriving DecidableEq, Repr

/-- An action engine running a program (R139, R145).  `start` is the address of its ENTER. -/
structure Engine where
  die : Nat
  pipe : Nat
  num : Nat
  frame : Nat
  pc : Nat
  prog : Nat
  faultAct : Nat
  regs : Vector Word 16
  slots : Nat := 0
  waits : Nat := 0
  curWait : Nat := 0
  trail : List (Nat × Nat × Nat) := []
  sampled : Bool := false
  deriving DecidableEq, Repr

/-- A fabric cell in flight: the copy it belongs to, its number, the output slot whose token it spent, its link and lane (48 while
no lane is awake), and the tick at which it was put there. -/
structure Flight where
  copy : Nat
  cell : Nat
  slot : Nat
  src : Nat
  dst : Nat
  lane : Nat
  last : Bool
  since : Nat := 0
  deriving DecidableEq, Repr

/-- A token of the cell scheduler (R204). -/
structure Token where
  slot : Nat
  tc : Nat
  holder : Nat
  age : Nat := 0
  deriving DecidableEq, Repr

/-- The sending side of a port: whether a frame is on the wire and whether DWRR chose it, and the DWRR state (R222, R223). -/
structure PortTx where
  busy : Bool := false
  byDwrr : Bool := false
  dwrrPtr : Nat := 7
  deficit : List (Nat × Int) := []
  pfcDue : List (Nat × Nat) := []
  pfcSent : List Nat := []
  held : List Nat := []
  heldSaid : List Nat := []
  deriving DecidableEq, Repr

/-- A port's gate lists (R226–R229): whether the operational list runs, its length, cycle time and extension, its change
time, and the pending change with its timed-action entry. -/
structure GateSt where
  running : Bool := false
  len : Nat := 1
  cycle : Nat := 1000
  start : Nat := 0
  pending : Option (Nat × Nat) := none
  deriving DecidableEq, Repr

/-- The frame path beside its registers. -/
structure Net where
  nextId : Nat := 0
  nextCopy : Nat := 0
  nextSeq : Nat := 1
  draws : Nat := 0
  frames : List Frame := []
  copies : List Copy := []
  engines : List Engine := []
  bad : List BadWord := []
  alarmed : List BadWord := []
  flights : List Flight := []
  missing : List Flight := []
  tokens : List Token := []
  rr : List (Nat × Nat × Nat) := []
  cellNo : List (Nat × Nat) := []
  gptr : List (Nat × Nat × Nat) := []
  aptr : List (Nat × Nat × Nat) := []
  tx : List (Nat × PortTx) := []
  upSince : List (Nat × Nat) := []
  dropSum : List (Nat × Nat × Nat) := []
  malSum : List (Nat × Nat) := []
  fpMax : List (Nat × Nat) := []
  copyRot : List (Nat × Nat) := []
  gates : List (Nat × GateSt) := []
  groups : List (Nat × Nat) := []
  polls : List (Nat × Nat) := []
  deriving DecidableEq, Repr

/-! ### Forwarding tables -/

/-- The validity of a take-versioned object (R127): FROM (`none` is ALWAYS), UNTIL (`none` is NEVER), PENDING, the commit
that will seal its FROM, and the commits any of which will seal its UNTIL. -/
structure Ver where
  from_ : Option Nat := none
  until_ : Option Nat := none
  pending : Bool := false
  owner : Nat := 0
  enders : List Nat := []
  deriving DecidableEq, Repr

/-- An address entry (Table 8-1). -/
structure AddrEnt where
  mac : Nat
  fid : Nat
  dest : Dest
  hit : Bool := false
  strike : Bool := false
  static : Bool := false
  sticky : Bool := false
  egressLearned : Bool := false
  cls : Option Nat := none
  handle : Nat := 0
  stream : Option Nat := none
  v : Ver := {}
  deriving DecidableEq, Repr

/-- A request of a die's learn queue (R176). -/
structure LearnReq where
  mac : Nat
  fid : Nat
  port : Nat
  egress : Bool
  sticky : Bool
  deriving DecidableEq, Repr

/-- A duplicate-table or recovery state (R191, R193): the highest sequence and the marks, bit k for H − k. -/
structure DupEnt where
  key : Nat
  h : Nat
  marks : Nat
  deriving DecidableEq, Repr

/-- The forwarding tables of one die. -/
structure Fw where
  table : List (Nat × AddrEnt) := []
  queue : List LearnReq := []
  dup : List DupEnt := []
  recov : List (Nat × DupEnt) := []
  gen : List (Nat × Nat) := []
  armed : Bool := true
  sweepAt : Nat := 0
  notices : List Nat := []
  flushing : Option (Nat × Nat × Nat) := none
  deriving DecidableEq, Repr

/-! ### Fabric lanes (Fabric lanes, lane test and calibration) -/

/-- What a die keeps of one of its fabric lanes beside the registers: low-margin findings in a row, the ticks of the failed cell
checks of the last millisecond, and whether the removal in progress is recorded; and, kept at the lower die of a lane pair, where
it goes when drained, why it is out, the ticks of its removals, and a removal waiting for R286 with its die. -/
structure LaneX where
  die : Nat
  peer : Nat
  lane : Nat
  next : Nat := 2
  cause : Nat := 0
  strikes : Nat := 0
  errs : List Nat := []
  noted : Bool := false
  history : List Nat := []
  waiting : Option (Nat × Nat) := none
  deriving DecidableEq, Repr

/-- Fabric lanes beside their registers: cells sent per direction and window, the ticks of each direction's last wake, and the
drift findings of line and continuity lanes that have a baseline. -/
structure Fab where
  lanes : List LaneX := []
  sent : List (Nat × Nat × Nat) := []
  lastWake : List (Nat × Nat × Nat) := []
  lineStrikes : List (Nat × Nat) := []
  deriving DecidableEq, Repr

/-! ### Duo operation, DMA engine, security -/

/-- What the last valid heartbeat reported (Table 14-2). -/
structure Beat where
  role : Nat
  elig : Bool
  sees : Bool
  good : Bool
  cause : Nat
  take : Nat
  commits : Nat
  deriving DecidableEq, Repr

/-- The duo island beside its registers.  Ages count its 1 µs evaluations (R305): since the last edge on PEER_CLAIM_IN and
on CLAIM_RETURN (8 and more is absence), since the last valid heartbeat (20 and more is silence).  `checking` is between
driving the claim and its check, `returned` whether CLAIM_RETURN has answered since, `held` how many evaluations in a row
wanted the claim, `badFor` how many failed the third condition of R301, `blind` whether the continuity link was lost
while ACTIVE, or was down when the claim was taken, `peerHeld` whether the peer has held the claim since this unit last did, `silent` the beacon sources that expired,
`peerTakes` the TAKE messages not yet acted on, `peerTime` the peer's last t1 and its arrival stamp, `lockedAt` the tick
since which the offset has stayed within ±10 ns, `releases` the RELEASE messages still to be sent, 1 µs apart. -/
structure Duo where
  drive : Bool := false
  forwarding : Bool := false
  checking : Bool := false
  returned : Bool := false
  peerEdge : Nat := 8
  ownEdge : Nat := 8
  beat : Option Beat := none
  prevRole : Option Nat := none
  beatAge : Nat := 20
  seqs : List (Nat × Nat) := []
  sendSeq : Nat := 0
  held : Nat := 0
  badFor : Nat := 0
  eligBlock : Nat := 0
  contended : Bool := false
  disagreed : Bool := false
  blind : Bool := false
  peerHeld : Bool := false
  silent : List Nat := []
  swSilent : Bool := false
  clearAsked : Bool := false
  reqAge : Nat := 1000
  peerTakes : List (Nat × Nat × Nat) := []
  adopted : Bool := true
  peerTime : Option (Nat × Nat) := none
  lockedAt : Option Nat := none
  lostLanes : Nat := 0
  lossTimer : Bool := false
  lostAt : Nat := 0
  releases : Nat := 0
  deriving DecidableEq, Repr

/-- A failing access of a channel: whether it is a write, whether to the device, its error type, its address, the repeats
made, whether the failure was reported after the count had reached zero, and whether it waits to be repeated (R361,
R362). -/
structure DmFail where
  write : Bool
  device : Bool
  type : Nat
  addr : Nat
  retries : Nat := 0
  late : Bool := false
  waiting : Bool := true
  deriving DecidableEq, Repr

/-- A channel's transfer (R356–R362): its descriptor, whether it runs in strict mode, the elements read and written, those
read ahead, the bytes read so far of the element being read, the register accesses made of the one being written, and a
failure that waits to be repeated. -/
structure DmChan where
  desc : DmDesc := {}
  strict : Bool := false
  read : Nat := 0
  done : Nat := 0
  buf : List (List Byte) := []
  part : List Byte := []
  made : Nat := 0
  fail : Option DmFail := none
  deriving DecidableEq, Repr

/-- A copy for the host port in the CD's receive queue: the frame's bytes without FCS and what its record says
(Table 17-6). -/
structure RxItem where
  bytes : List Byte
  inport : Nat
  tc : Nat
  malformed : Bool
  code : Nat
  hdr : Nat
  stamp : Nat
  take : Nat
  deriving DecidableEq, Repr

/-- The DMA engine beside its registers: its channels and the CD's receive queue. -/
structure Dma where
  chans : Vector DmChan 16 := Vector.replicate 16 {}
  rxq : List RxItem := []
  deriving DecidableEq, Repr

/-- What a running security request will do when it completes. -/
inductive ScEffect where
  | nothing
  | output (bytes : List Byte)
  | challenge (c : Nat)
  | program (slot hash : Nat)
  | revoke (slot : Nat)
  | advance (v : Nat)
  | patch (level : Nat) (content : List Nat)
  deriving DecidableEq, Repr

/-- A running security request: its OP, the code its checks gave, and its effect. -/
structure ScRun where
  op : Nat
  code : Nat
  effect : ScEffect
  deriving DecidableEq, Repr

/-- The security engine beside its registers: the running request and the current challenge with its device time. -/
structure Sec where
  run : Option ScRun := none
  challenge : Option (Nat × Nat) := none
  deriving DecidableEq, Repr

/-- An owner key slot of the OTP (Table 19-2): its content, its completion marker, whether its write was begun, and its
three revocation bits. -/
structure KeySlot where
  content : Nat := 0
  begun : Bool := false
  marker : Bool := false
  revoke : Nat := 0
  deriving DecidableEq, Repr

/-- A record of the OTP with its completion marker: an advance of the rollback counter, or a patch by its level and
content. -/
structure OtpRec where
  value : Nat
  marker : Bool
  content : List Nat := []
  deriving DecidableEq, Repr

/-- What of the OTP software can change (Table 19-2); what the factory wrote is in Config. -/
structure Otp where
  slots : Vector KeySlot 4 := Vector.replicate 4 {}
  advances : List OtpRec := []
  patches : List OtpRec := []
  deriving DecidableEq, Repr

/-- What leaves the device during one command.  A frame leaves with its FCS, or without one when it is cut short; `err` is the
error that ends it on a line port. -/
inductive Out where
  | msix (v : Nat)
  | frame (port : Nat) (bytes : List Byte) (fcs : Option Nat) (err : Bool)
  | pfc (port src : Nat) (vector : Nat) (quanta : List Nat)
  | spill (r : EvRec) (ftb : Bool)
  | hostWrite (addr : Nat) (bytes : List Byte)
  | hostRead (addr len : Nat)
  | i2c (addr reg value : Nat)
  | i2cRead (addr reg : Nat)
  | ctMsg (lane kind : Nat) (payload : List Nat)
  | jam (port : Nat)
  deriving DecidableEq, Repr

/-! ### Takes and placement -/


/-- A version of an object.  `num` is a mirror session's number (Table 11-7), `plans` how often each die's copy plan of a
multicast group was made anew (R251). -/
structure ObjVer where
  h : Nat
  data : ObjData
  num : Nat := 0
  plans : List (Nat × Nat) := []
  v : Ver := {}
  deriving DecidableEq, Repr

/-- A version of a rule of a group; `room` numbers the room it holds in a tree group's rule store. -/
structure RuleVer where
  g : Nat
  r : RuleRec
  room : Nat := 0
  v : Ver := {}
  deriving DecidableEq, Repr

/-- The run of entries that a rule holds in the associative memory of a pipe: its first slot, the slots of an entry, and the
prefix entries of the rule's expansion (R111, R115).  A moved run is a version of its own (R251). -/
structure CamEnt where
  die : Nat
  pipe : Nat
  slot : Nat
  size : Nat
  g : Nat
  id : Nat
  priority : Nat
  parts : Nat := 1
  v : Ver := {}
  deriving DecidableEq, Repr

/-- A version of a pattern of a group; `room` numbers the room it holds in the banks of its dies. -/
structure PatVer where
  g : Nat
  r : PatRec
  room : Nat := 0
  v : Ver := {}
  deriving DecidableEq, Repr

/-- A version of a binding slot's binding (R151). -/
structure BindVer where
  slot : Nat
  h : Nat
  v : Ver := {}
  deriving DecidableEq, Repr

/-- An instance of a meter or policer on a die, with its seven counters (Table 10-6). -/
structure MeterInst where
  h : Nat
  die : Nat
  cnt : List Nat := [0, 0, 0, 0, 0, 0, 0]
  deriving DecidableEq, Repr

/-- An instance of a counter block on a die: entry, packets, bytes. -/
structure CblkInst where
  h : Nat
  die : Nat
  entries : List (Nat × Nat × Nat) := []
  deriving DecidableEq, Repr

/-- The steps of a commit (Table 6-11): requested, in step 2, sealed, current on every die. -/
inductive CommitStep where
  | queued | active | sealed | switched
  deriving DecidableEq, Repr

/-- A commit (R132).  Owner 1 is the open software batch.  `ahead` counts the intents it still waits for (R135), `timed`
is T in ns, `s` is S in units of 2⁻³² ns. -/
structure Commit where
  owner : Nat
  batch : Bool := false
  move : Option SeqMove := none
  timed : Option Nat := none
  entry : Option Nat := none
  step : CommitStep := .queued
  ahead : Nat := 0
  n : Nat := 0
  s : Nat := 0
  late : Bool := false
  deriving DecidableEq, Repr

/-- Takes: the live takes oldest first, the last of them current; those retired and not reclaimed; the take current on
each die; the commits in order of request; when each take began to drain, in CD ticks; whether the batch's COMMIT is in
progress. -/
structure Takes where
  live : List Nat := []
  reclaim : List Nat := []
  current : Vector Nat 4 := Vector.replicate 4 0
  commits : List Commit := []
  since : List (Nat × Nat) := []
  nextOwner : Nat := 2
  committing : Bool := false
  deriving DecidableEq, Repr

/-- An intent that is done or staged and whose result is not written yet: its descriptor, what its event reports, and its
result or the commit it awaits.  `redo` marks one that runs again because a commit before it was given up (R248). -/
structure IntentOut where
  idx : Nat
  handle : Nat
  op : Nat
  irq : Bool
  batch : Bool
  owner : Nat
  code : Option Nat := none
  whereAt : Nat := 0xF
  atIndex : Nat := 0xFFFFFFFF
  take : Nat := 0
  answer : Option Nat := none
  intent : Option Intent := none
  redo : Bool := false
  deriving DecidableEq, Repr

/-- The staging of a tree change on a die (R121): whether it is a full build, and the commit it belongs to; `software`
for a build that CL_TREE_CTL.REBUILD asked for.  `also` are the owners of batch changes folded into it. -/
structure TreeJob where
  die : Nat
  full : Bool
  owner : Nat
  handle : Nat
  software : Bool
  also : List Nat := []
  deriving DecidableEq, Repr

/-- The node half or pattern bank of a die: the one of the takes from FROM on; every older take uses the other. -/
structure HalfVer where
  pattern : Bool
  die : Nat
  half : Nat
  from_ : Option Nat
  deriving DecidableEq, Repr

/-- Placement: objects, rules, patterns, bindings, associative-memory entries and instances; match counters by die, group
and rule; the intents whose results are outstanding, in ring order, and the one that waits for room; tree staging and the
full builds that a commit will put into force (commit, die, NODE_PCT); static entries that await the eviction of a learned entry; bytes by die, copy slot and group of the running second; room numbers given; moves to be tried
again, and whether a move made for the next intent was withdrawn. -/
structure Plc where
  objs : List ObjVer := []
  rules : List RuleVer := []
  pats : List PatVer := []
  binds : List BindVer := []
  cam : List CamEnt := []
  meters : List MeterInst := []
  cblks : List CblkInst := []
  matches_ : List (Nat × Nat × Nat × Nat) := []
  outq : List IntentOut := []
  wait : Option Intent := none
  jobs : List TreeJob := []
  built : List (Nat × Nat × Nat) := []
  halves : List HalfVer := []
  evicts : List (Nat × Nat × AddrEnt) := []
  slotBytes : List (Nat × Nat × Nat × Nat) := []
  rooms : Nat := 0
  again : List SeqMove := []
  lost : Bool := false
  deriving DecidableEq, Repr

end Sys2Proof.Machine
end

