-- ==== Sys2Proof/Machine/State.lean ====
section
/-! DEFINITION. The state of the block, its faults and refusals, and the state after reset. -/

namespace Sys2Proof.Machine

/-- No command ends in a fault: the spec gives every one of them an effect, and an event whose condition does not hold
changes nothing.  The one constructor is kept for the host's interface and is raised by no meaning (safe). -/
inductive Fault where
  | none_
  deriving DecidableEq, Repr

/-- Refusals.  `notModelled` is the answer of an arm of the dispatch without a meaning (safe); no meaning answers it. -/
inductive Refusal where
  | notModelled (mnemonic : String)
  deriving DecidableEq, Repr

/-- Everything but the flash, the OTP and the queue: what a reset returns to its values, with the supplies. -/
structure Dev where
  sup : Supply := {}
  boot : Boot := {}
  flds : List (FKey × Nat) := []
  wides : List (WKey × Nat) := []
  safe : List RKey := []
  snaps : List (Nat × Snapshot) := []
  errlog : List ErrEntry := []
  bkts : List (BKey × Int) := []
  obs : Obs := {}
  tm : Time := {}
  net : Net := {}
  fw : Vector Fw 4 := Vector.replicate 4 {}
  tak : Takes := {}
  plc : Plc := {}
  fab : Fab := {}
  duo : Duo := {}
  dma : Dma := {}
  sec : Sec := {}
  out : List Out := []
  readData : Option Nat := none
  deriving DecidableEq, Repr

/-- The state of the block: the commands waiting, first in first out, the image-store flash, the one-time programmable
memory, and the device. -/
structure State where
  pending : List Instr := []
  flash : Flash := {}
  otp : Otp := {}
  dev : Dev := {}
  deriving DecidableEq, Repr

/-- The machine in reset with its supplies present and PORST_N low: every register at its Default, FAULT_N, LS_EN and
CLAIM_OUT low, SCENE at 00 (Table 15-8), no command waiting. -/
def State.reset : State := {}

end Sys2Proof.Machine
end

