-- ==== Sys2Proof/Machine/Ops.lean ====
section
/-! DEFINITION. The named operations over the state that every family of commands shares: association lists, register
fields and wide values, clocks, event records and rings (R380–R391), MSI-X causes (R352), performance counters (R375,
R376). -/

namespace Sys2Proof.Machine

/-! ### Association lists -/

/-- The value at a key. -/
def aget {κ ν : Type} [DecidableEq κ] : List (κ × ν) → κ → Option ν
  | [], _ => none
  | (a, v) :: t, k => if a = k then some v else aget t k

/-- The list with the value at a key replaced, or added at its end. -/
def aset {κ ν : Type} [DecidableEq κ] : List (κ × ν) → κ → ν → List (κ × ν)
  | [], k, v => [(k, v)]
  | (a, w) :: t, k, v => if a = k then (a, v) :: t else (a, w) :: aset t k v

/-- The list without a key. -/
def adel {κ ν : Type} [DecidableEq κ] (l : List (κ × ν)) (k : κ) : List (κ × ν) :=
  l.filter (fun e => !decide (e.1 = k))

/-- Bits [hi:lo] of a number. -/
def bits (v hi lo : Nat) : Nat := (v >>> lo) % 2 ^ (hi + 1 - lo)

/-- Bit i of a number as 0 or 1. -/
def bitAt (v i : Nat) : Nat := (v >>> i) % 2

/-- The signed value of a number of w bits. -/
def toSigned (w v : Nat) : Int := if v % 2 ^ w < 2 ^ (w - 1) then (v % 2 ^ w : Nat) else ((v % 2 ^ w : Nat) : Int) - 2 ^ w

/-- A signed value as a number of w bits. -/
def ofSigned (w : Nat) (v : Int) : Nat := (v % (2 ^ w : Int)).toNat

/-- A value held between two bounds. -/
def clamp (lo hi v : Nat) : Nat := if v < lo then lo else if hi < v then hi else v

/-- A field with its 4-bit groups of 0 stored as 1 (EG_WEIGHT). -/
def weightStore (v : Nat) : Nat :=
  (List.range 8).foldl (fun a c => a + (if bits v (4 * c + 3) (4 * c) = 0 then 1 else bits v (4 * c + 3) (4 * c)) * 2 ^ (4 * c)) 0

/-! ### Register fields -/

/-- The value of a field on release of PORST_N (R7), with the defaults that depend on an index. -/
def FKey.dflt (k : FKey) : Nat :=
  match k.f with
  | .swAgeLimit_limit => if 6 ≤ k.i then 0x2710 else 0x30D40
  | .swPortStatus_discarding => if k.i = 36 then 0 else 0xFF
  | .msixTable_dword => if k.i % 4 = 3 then 1 else 0
  | .scOtpStatus_advancesLeft => 128
  | .scOtpStatus_patchesLeft => 8
  | f => f.info.dflt

/-- The value a field holds. -/
def Dev.fld (d : Dev) (f : Fld) (w : Nat) (i : Nat := 0) (j : Nat := 0) : Nat :=
  (aget d.flds ⟨f, w, i, j⟩).getD (FKey.dflt ⟨f, w, i, j⟩)

/-- The device with a field's value replaced. -/
def Dev.setFld (d : Dev) (f : Fld) (w i j v : Nat) : Dev :=
  { d with flds := aset d.flds ⟨f, w, i, j⟩ v }

/-- The storing rule between the fields of one register, after a write of it: an XON not below XOFF is stored one below it
(SW_CLASS_CTL). -/
def Dev.storeTogether (d : Dev) (r : Reg) (w i j : Nat) : Dev :=
  match r with
  | .swClassCtl =>
    let xoff := d.fld .swClassCtl_xoff w i j
    if xoff ≤ d.fld .swClassCtl_xon w i j then d.setFld .swClassCtl_xon w i j (xoff - 1) else d
  | _ => d

/-- A field of the CD's window. -/
def Dev.cd (d : Dev) (f : Fld) (i : Nat := 0) (j : Nat := 0) : Nat := d.fld f 0 i j

/-- A field of the window of PDn. -/
def Dev.pd (d : Dev) (f : Fld) (n : Nat) (i : Nat := 0) (j : Nat := 0) : Nat := d.fld f (n + 1) i j

/-- The device with a field of the CD's window replaced. -/
def Dev.setCd (d : Dev) (f : Fld) (v : Nat) (i : Nat := 0) (j : Nat := 0) : Dev := d.setFld f 0 i j v

/-- The device with a field of the window of PDn replaced. -/
def Dev.setPd (d : Dev) (f : Fld) (n v : Nat) (i : Nat := 0) (j : Nat := 0) : Dev := d.setFld f (n + 1) i j v

/-- The device with bit b of a field set to 1. -/
def Dev.setBit (d : Dev) (f : Fld) (w i j b : Nat) : Dev := d.setFld f w i j (d.fld f w i j ||| 2 ^ b)

/-- The device with bit b of a field set to 0. -/
def Dev.clrBit (d : Dev) (f : Fld) (w i j b : Nat) : Dev :=
  d.setFld f w i j (d.fld f w i j - bitAt (d.fld f w i j) b * 2 ^ b)

/-- The value a field acts with in its block's safe state (Table 16-10); a field not named there acts at its default. -/
def FKey.safeValue (k : FKey) : Nat :=
  match k.f with
  | .fwCtl_learnEn | .fwPortCtl_learnEn | .swPortCtl_cutThrough | .plCtl_enable => 0
  | .fbLaneCtl_out => 1
  | _ => k.dflt

/-- Whether a register is in its safe state (R350). -/
def Dev.inSafe (d : Dev) (r : Reg) (w : Nat) (i : Nat := 0) (j : Nat := 0) : Bool := d.safe.contains ⟨r, w, i, j⟩

/-- The value a configuration field acts with: its own, or that of its safe state (R350). -/
def Dev.cfg (d : Dev) (f : Fld) (w : Nat) (i : Nat := 0) (j : Nat := 0) : Nat :=
  if d.inSafe f.info.reg w i j then FKey.safeValue ⟨f, w, i, j⟩ else d.fld f w i j

/-- The storing rule of a field's table: what a write of v leaves in the field. -/
def Fld.store (f : Fld) (v : Nat) : Nat :=
  match f with
  | .ptPortCtl_downHoldoff => clamp 0 1000 v
  | .ptMacCtl_maxlen | .fpPortCtl_maxlen => clamp 1518 10240 v
  | .ptPfcCtl_quanta => clamp 0x400 0xFFFF v
  | .tkCtl_timeout | .fwDupCtl_forget | .swClassCtl_xoff | .swClassVoq_voqLimit | .egMaxrate_rate | .egMaxrate_burst
  | .poStorm_burst | .poHostCir_cir | .poHostCir_cbs | .poHostPir_pir | .poHostPir_pbs | .fbCtl_cellErrLimit
  | .lnInjCtl_count | .obIncCtl_logRate | .obIncCtl_logBurst | .obSampleCtl_period => if v = 0 then 1 else v
  | .fwCtl_fillThresh => clamp 0 100 v
  | .fwPrpCtl_mode | .tmCtl_ppsOutMode | .tmPortPtp_mode | .lnInjCtl_kind => if v = 3 then 0 else v
  | .swAgeLimit_limit => clamp 0 2000000 v
  | .swHoldLo_tc0 | .swHoldLo_tc1 | .swHoldLo_tc2 | .swHoldLo_tc3 | .swHoldHi_tc4 | .swHoldHi_tc5 | .swHoldHi_tc6
  | .swHoldHi_tc7 => clamp 0 65 v
  | .egWeight_weight => weightStore v
  | .egGateCtl_adminLen => clamp 1 1024 v
  | .tmCtl_ppsWidth => clamp 1 500000 v
  | .fbLinkCtl_minAwake => clamp 0 48 v
  | .fbLinkCtl_entryUs => clamp 1 1000 v
  | .lnTestCtl_source => if 6 ≤ v then 3 else v
  | .lnInjCtl_len => clamp 2 64 v
  | .btCutawayCtl_maxUs => clamp 100 4000 v
  | .btCutawayCtl_minRunMs => clamp 12 1000 v
  | .dvTherm_alert => clamp 85 115 v
  | .plCtl_ringLog2 | .dmRxCtl_ringLog2 | .dmTxCtl_ringLog2 => clamp 4 12 v
  | .dmRxCtl_bufKib => clamp 1 10 v
  | .duCtl_hwWdogUs => clamp 20 100 v
  | .obDCtl_ringLog2 => clamp 10 20 v
  | .obIncCtl_fillTrigger => clamp 1 100 v
  | .obBwCtl_windowUs => clamp 1 16000000 v
  | .obPmcSel_event => if 0x1C ≤ v then 0 else v
  | _ => v

/-! ### Wide values -/

/-- The value of a wide value after reset: VLAN 1 as R185 gives, a port's PFC source address as Table 4-4 gives, the
factory's serial number and identity key, and otherwise that of its table, or 0 where the table gives none (DESIGN CHOICE,
log 4: IM_WRITE_SRC and IM_RUNNING_DIGEST of R47 among them). -/
def WKey.dflt (k : WKey) : Nat :=
  match k.x with
  | .fwVlanMember => if k.i = 1 then 2 ^ 128 - 1 else 0
  | .fwVlanUntag => if k.i = 1 then 2 ^ 128 - 1 else 0
  | .fwVlanCtl => if k.i = 1 then 1 + 0x1F * 2 ^ 14 + 0x1F * 2 ^ 19 + 0xF * 2 ^ 24 else 0
  | .ptMacAddr => (Config.baseMac + (32 * (k.w - 1) + k.i)) % 2 ^ 48
  | .fpMacAddr => (Config.baseMac + 128 + k.i) % 2 ^ 48
  | .scSerial => Config.serial % 2 ^ 128
  | .scIdentityPubkey => Config.identityPubkey % 2 ^ 512
  | x => x.info.dflt

/-- The value a wide value holds. -/
def Dev.wide (d : Dev) (x : Wide) (w : Nat) (i : Nat := 0) (j : Nat := 0) : Nat :=
  (aget d.wides ⟨x, w, i, j⟩).getD (WKey.dflt ⟨x, w, i, j⟩)

/-- The device with a wide value replaced, in its width. -/
def Dev.setWide (d : Dev) (x : Wide) (w i j v : Nat) : Dev :=
  { d with wides := aset d.wides ⟨x, w, i, j⟩ (v % 2 ^ x.info.width) }

/-- A counter advanced by n, modulo its width (R370). -/
def Dev.bump (d : Dev) (x : Wide) (w i j n : Nat) : Dev := d.setWide x w i j (d.wide x w i j + n)

/-! ### Dies and ports -/

/-- The die that owns a port: PDn for a line port, PD0 for a field port and the host port (R4, R220). -/
def dieOf (p : Nat) : Nat := if p < 128 then p / 32 else 0

/-- The index of a port in the arrays indexed as the parser registers are. -/
def idxOf (p : Nat) : Nat := if p < 128 then p % 32 else p - 96

/-- The pipe that serves a port (R108). -/
def pipeOf (p : Nat) : Nat := if p < 128 then p % 32 / 8 else 0

/-- Whether a configuration of the storyboard powers PDn (Table 2-3). -/
def activeDie (active n : Nat) : Bool := n = 0 || (n = 2 && 2 ≤ active) || (n < 4 && active = 4)

/-- Whether a configuration of the storyboard powers die b of the rail order PD0–PD3, OE0, OE1 (Table 2-3). -/
def activeRail (active b : Nat) : Bool := if b < 4 then activeDie active b else b = 4 || (b = 5 && 2 ≤ active)

/-- Whether the rail of die b is on: PD0–PD3, then OE0 and OE1. -/
def Dev.railOn (d : Dev) (b : Nat) : Bool := bitAt (d.fld .pwStatus_railOn 7) b = 1

/-- The powered pipeline dies. -/
def Dev.dies (d : Dev) : List Nat := (List.range 4).filter d.railOn

/-- Whether the device runs a storyboard and is not shut down: the condition of every event of the frame path. -/
def Dev.live (d : Dev) : Bool := d.boot.applied && !d.sup.thermShut

/-- Whether the balls stand in the run scene with its role driven (R321, R323). -/
def Dev.inRun (d : Dev) : Bool := d.cd .btSceneStatus_scene = 2 && d.cd .btSceneStatus_cutting = 0

/-- Whether the spill stream runs (R392). -/
def Dev.spilling (d : Dev) : Bool := d.cd .btSceneStatus_scene = 3 && d.cd .btSceneStatus_cutting = 0

/-- Whether PDn is powered and runs the storyboard. -/
def Dev.liveDie (d : Dev) (n : Nat) : Bool := d.live && d.railOn n

/-- The use of a lane slot under the running storyboard. -/
def sbSlot (sb : Storyboard) (s : Nat) : SlotUse := sb.slots.getD s .unused

/-- AE_CTL.BUDGET of PDn, from the storyboard: 0 for 16 slots, 1 for 32, 2 for 64. -/
def Dev.budgetCode (d : Dev) (n : Nat) : Nat :=
  match d.boot.sb.budget.getD n 32 with | 16 => 0 | 64 => 2 | _ => 1

/-- Whether a port exists under a storyboard (R50). -/
def sbPortExists (sb : Storyboard) (p : Nat) : Bool :=
  if p < 128 then
    activeDie sb.active (p / 32) &&
      (match sbSlot sb p with | .g10 | .g25 | .g100 | .g400 => true | .unused | .part => false)
  else p < 133

/-- Whether a port exists. -/
def Dev.portExists (d : Dev) (p : Nat) : Bool := sbPortExists d.boot.sb p

/-- The rate of a port in Mb/s (Table 3-2, R197); the host port has the rate of its service slot. -/
def Dev.portRate (d : Dev) (p : Nat) : Nat :=
  if p < 128 then
    match sbSlot d.boot.sb p with
    | .g10 => 10000 | .g25 => 25000 | .g100 => 100000 | .g400 | .part => 400000 | .unused => 0
  else if p < 132 then (if d.cd .fpPortCtl_speed (p - 128) = 1 then 100 else 10)
  else 100000

/-- Whether a port takes part in flooding: a line port in UP or HOLDOFF, a field port up, the host port (R63, R82). -/
def Dev.portUp (d : Dev) (p : Nat) : Bool :=
  if p < 128 then
    d.pd .ptPortStatus_state (dieOf p) (idxOf p) = 6 || d.pd .ptPortStatus_state (dieOf p) (idxOf p) = 7
  else if p < 132 then d.cd .fpPortStatus_up (p - 128) = 1
  else p = 132 && d.railOn 0

/-- The ports of a set given by its bits. -/
def portSet (v n : Nat) : List Nat := (List.range n).filter (fun p => bitAt v p = 1)

/-! ### Clocks -/

/-- One nanosecond of device time. -/
def nsUnit : Nat := 2 ^ 32

/-- The time island of PDn, or of the CD for 4 and above. -/
def islOf (n : Nat) : Isl := if h : n < 4 then ⟨n, by omega⟩ else 4

/-- Device time of an island, with its fraction (R256). -/
def Dev.instant (d : Dev) (n : Nat) : Nat := (d.tm.isl.get (islOf n)).t

/-- Device time of an island in whole nanoseconds. -/
def Dev.now (d : Dev) (n : Nat) : Nat := d.instant n / nsUnit

/-- Elapsed ticks of an island. -/
def Dev.ticks (d : Dev) (n : Nat) : Nat := (d.tm.isl.get (islOf n)).ticks

/-- The signed difference of two instants of 64 bits (R257). -/
def diff64 (a b : Nat) : Int := toSigned 64 (a + 2 ^ 64 - b % 2 ^ 64)

/-- The signed difference of two instants with their fractions (R257). -/
def instDiff (a b : Nat) : Int := toSigned 96 (a + 2 ^ 96 - b % 2 ^ 96)

/-! ### MSI-X (R352) -/

/-- Whether the function may send messages: PCIe is out of PERST_N and in D0 (Table 16-1). -/
def Dev.pcieUp (d : Dev) : Bool := d.sup.perstN && !d.sup.d3hot

/-- The message of vector v leaves, or waits in the pending-bit array while its table entry masks it or the function
cannot send. -/
def Dev.sendIrq (d : Dev) (v : Nat) : Dev :=
  if d.pcieUp && d.cd .msixTable_dword (4 * v + 3) % 2 = 0 then { d with out := d.out ++ [.msix v] }
  else d.setBit .msixPba_pending 0 (v / 32) 0 (v % 32)

/-- The cause of vector v occurs. -/
def Dev.irq (d : Dev) (v : Nat) : Dev :=
  if v < 32 then
    if bitAt (d.cd .hiIrqCauseLo_cause) v = 1 then d
    else
      if bitAt (d.cd .hiIrqEnableLo_enable) v = 1 then (d.setBit .hiIrqCauseLo_cause 0 0 0 v).sendIrq v
      else d.setBit .hiIrqCauseLo_cause 0 0 0 v
  else d

/-! ### Bucket levels (Table 12-1) -/

/-- Event classes (Table 18-5). -/
inductive EvClass where
  | alarm | log | trace | summary
  deriving DecidableEq, Repr

/-- The number of a class in byte 11 of a record. -/
def EvClass.num : EvClass → Nat
  | .alarm => 0 | .log => 1 | .trace => 2 | .summary => 3

/-- The class of each event code, from the event tables of the chapters. -/
def evClass (code : Nat) : EvClass :=
  if code ∈ [0x0103, 0x0104, 0x010A, 0x010B, 0x0303, 0x0404, 0x0405, 0x0502, 0x0603, 0x0609, 0x0705, 0x0706, 0x0708, 0x0808,
      0x0A02, 0x0A03, 0x0A06, 0x0B02, 0x0B03, 0x0B05, 0x0B06, 0x0B07, 0x0C03, 0x0C06, 0x0C08, 0x0C0A, 0x0D01, 0x0F03,
      0x0F06, 0x1001, 0x1003, 0x1005, 0x1006, 0x1106] then .alarm
  else if code = 0x0301 ∨ code = 0x0501 then .trace
  else .log

/-- The window that holds the registers of an event ring. -/
def ringWin (r : Nat) : Nat := if r < 4 then r + 1 else 0

/-- Whether take a is newer than take b (R126). -/
def takeNewer (a b : Nat) : Bool := 9 ≤ (b + 16 - a % 16) % 16

/-- Whether a version applies to a frame of take t (R128). -/
def Ver.applies (v : Ver) (t : Nat) : Bool :=
  !v.pending && (match v.from_ with | none => true | some f => !takeNewer f t) &&
  (match v.until_ with | none => true | some u => takeNewer u t)

/-- The take that is current on PDn. -/
def Dev.takeOf (d : Dev) (n : Nat) : Nat := (d.tak.current[n]?).getD 0

/-- The record of a meter or policer in force on a die: that of its latest version sealed and begun there (R231). -/
def Dev.meterRec (d : Dev) (n h : Nat) : Option MeterRec :=
  d.plc.objs.foldl (fun a o =>
    if o.h = h ∧ o.v.pending = false ∧ (match o.v.from_ with | none => true | some f => !takeNewer f (d.takeOf n)) = true then
      (match o.data with | .meter r => some r | _ => a)
    else a) none

/-- 1 byte in the units of the policing and shaping buckets: one unit is what 1 kb/s adds in a tick of 2 ns. -/
def byteUnits : Nat := 4000000

/-- The most a bucket holds, in its own units: 1/500 token for an emission bucket (R385), 5 × 10⁻⁸ token for a code
bucket (R386), 1/4,000,000 byte for policing and rate shaping (R225, R232, R235, R236).  A credit of R224 counts in 1/500
bit and has no such bound. -/
def Dev.bucketCap (d : Dev) : BKey → Int
  | .emission _ => 512000
  | .code r c =>
    if evClass c = .alarm then 16 * 500000000
    else (d.fld .obIncCtl_logBurst (ringWin r) : Int) * 500000000
  | .meterC n h => (((d.meterRec n h).map (·.cbs)).getD 0 * byteUnits : Nat)
  | .meterP n h => (((d.meterRec n h).map (·.pbs)).getD 0 * byteUnits : Nat)
  | .storm n s c => (d.cfg .poStorm_burst (n + 1) s c * 1024 * byteUnits : Nat)
  | .hostC n c => (d.cfg .poHostCir_cbs (n + 1) c * 1024 * byteUnits : Nat)
  | .hostP n c => (d.cfg .poHostPir_pbs (n + 1) c * 1024 * byteUnits : Nat)
  | .maxrate n s c => (d.cfg .egMaxrate_burst (n + 1) s c * 1024 * byteUnits : Nat)
  | .cbs _ _ _ => 0

/-- What an elapsed tick of 2 ns adds to a bucket, but for the credits of R224. -/
def Dev.bucketRate (d : Dev) : BKey → Int
  | .emission _ => 1
  | .code r c => if evClass c = .alarm then 10 else (d.fld .obIncCtl_logRate (ringWin r) : Int)
  | .meterC n h => (((d.meterRec n h).map (·.cir)).getD 0 : Nat)
  | .meterP n h => (((d.meterRec n h).map (fun r => max r.pir r.cir)).getD 0 : Nat)
  | .storm n s c => (d.cfg .poStorm_rate (n + 1) s c * 1000 : Nat)
  | .hostC n c => (d.cfg .poHostCir_cir (n + 1) c * 1000 : Nat)
  | .hostP n c => (max (d.cfg .poHostPir_pir (n + 1) c) (d.cfg .poHostCir_cir (n + 1) c) * 1000 : Nat)
  | .maxrate n s c => (d.cfg .egMaxrate_rate (n + 1) s c * 1000 : Nat)
  | .cbs _ _ _ => 0

/-- The level of a bucket; one that nothing has touched is full. -/
def Dev.bucket (d : Dev) (k : BKey) : Int := (aget d.bkts k).getD (d.bucketCap k)

/-- The device with a bucket's level replaced. -/
def Dev.setBucket (d : Dev) (k : BKey) (v : Int) : Dev := { d with bkts := aset d.bkts k v }

/-! ### Event records and rings -/

/-- A payload field's width rounded up to 8, 16, 32, 48 or 64 bits (R381). -/
def evWidth (w : Nat) : Nat := if w ≤ 8 then 8 else if w ≤ 16 then 16 else if w ≤ 32 then 32 else if w ≤ 48 then 48 else 64

/-- The 96 bits of a payload: its fields packed in order from bit 0, each saturating in its width (R381). -/
def packPayload (l : List (Nat × Nat)) : Nat :=
  (l.foldl (fun a e => (a.1 + min e.2 (2 ^ evWidth e.1 - 1) * 2 ^ a.2, a.2 + evWidth e.1)) (0, 0)).1 % 2 ^ 96

/-- The block index of a record's SOURCE (Table 18-5, Tables 16-3 and 16-4), from the raising die, the code and, for the end of
a lane test, the kind of the lane. -/
def evBlock (die code kind : Nat) : Nat :=
  if die < 4 then
    match code / 256 with
    | 0x01 => if code ∈ [0x0106, 0x0107, 0x0108, 0x010A, 0x010B] ∨ (code = 0x010C ∧ kind = 1) then 9 else 1
    | 0x02 => 1 | 0x03 => 2 | 0x04 => 3 | 0x05 => 4 | 0x06 => 5 | 0x07 => 6 | 0x08 => 7 | 0x0A => 8 | 0x11 => 10
    | _ => 0
  else if die = 6 then
    match code / 256 with
    | 0x01 => if code = 0x0104 ∨ code = 0x0105 ∨ code = 0x010D then 0 else 6
    | 0x02 => 8 | 0x04 => 2 | 0x09 => 2 | 0x0A => 5 | 0x0B => 6 | 0x0C => 1 | 0x0D => 7 | 0x0E => 3 | 0x0F => 4 | 0x11 => 9
    | _ => 0
  else 0

/-- The ring that takes the records of a die: its own for PD0–PD3, the CD's for every other (R382). -/
def ringOf (die : Nat) : Nat := if die < 4 then die else 4

/-- A ring of the device. -/
def Dev.ring (d : Dev) (r : Nat) : Ring := d.obs.rings.get (islOf r)

/-- The device with a ring replaced. -/
def Dev.setRing (d : Dev) (r : Nat) (x : Ring) : Dev :=
  { d with obs := { d.obs with rings := d.obs.rings.set (islOf r) x } }

/-- What becomes of a raised record. -/
inductive Fate where
  | emitted | shed | coalesced
  deriving DecidableEq, Repr

/-- Whether the emission bucket and the code's bucket let a record out (R385, R386). -/
def Dev.fateOf (d : Dev) (r code : Nat) : Fate :=
  match evClass code with
  | .trace => if d.bucket (.emission r) < 512 * 500 ∨ 4096 ≤ (d.ring r).recs.length then .shed else .emitted
  | .log =>
    if d.bucket (.emission r) < 128 * 500 ∨ d.bucket (.code r code) < 500000000 then .coalesced else .emitted
  | _ => if d.bucket (.emission r) < 500 ∨ d.bucket (.code r code) < 500000000 then .coalesced else .emitted

/-- A record enters a ring of 8,192; a full ring loses its oldest, which counts as overwritten (R390). -/
def Dev.pushRec (d : Dev) (r : Nat) (e : EvRec) : Dev :=
  match (d.ring r).recs with
  | o :: rest =>
    if 8192 ≤ (o :: rest).length then
      (d.setRing r { d.ring r with recs := rest ++ [e] }).bump .obLoss (ringWin r) (o.cls % 4) 2 1
    else d.setRing r { d.ring r with recs := (o :: rest) ++ [e] }
  | [] => d.setRing r { d.ring r with recs := [e] }

/-- A record joins its code's summary (R386). -/
def coalesce (l : List Coalesced) (e : EvRec) : List Coalesced :=
  match l with
  | [] => [⟨e.code, e.cls % 4, e.source, 1, e.time, e.time⟩]
  | c :: t =>
    if c.code = e.code then { c with count := c.count + 1, last := e.time } :: t else c :: coalesce t e

/-- A record enters the first-take buffer while it is FILLING, and the buffer is HELD at 256 (R389). -/
def Ring.ftbTake (x : Ring) (e : EvRec) : Ring :=
  if x.ftbState = 1 then
    { x with ftb := x.ftb ++ [e], ftbState := if 256 ≤ x.ftb.length + 1 then 2 else 1 }
  else x

/-- An alarm latches its state bit, whatever becomes of its record (R387). -/
def Ring.latch (x : Ring) (code : Nat) : Ring :=
  { x with alarms := aset x.alarms (code / 256) ((aget x.alarms (code / 256)).getD 0 ||| 2 ^ (code % 256)) }

/-- A record raised into a ring: its number, its alarm bit, its fate and its loss count (R380–R387, R390); in
the spill scene an emitted record also joins the stream (R392). -/
def Dev.record (d : Dev) (r : Nat) (e : EvRec) : Dev :=
  let x := d.ring r
  let x1 := if evClass e.code = .alarm then x.latch e.code else x
  let d1 := (d.setRing r { x1.ftbTake e with seq := (x.seq + 1) % 2 ^ 16 }).bump .obRaised (ringWin r) 0 0 1
  let d2 := if evClass e.code = .alarm then d1.irq 6 else d1
  match d.fateOf r e.code with
  | .emitted =>
    let d3 := d2.setBucket (.emission r) (d.bucket (.emission r) - 500)
    let d4 := if evClass e.code = .trace then d3
      else d3.setBucket (.code r e.code) (d.bucket (.code r e.code) - 500000000)
    let d5 := d4.pushRec r e
    if d5.spilling then { d5 with out := d5.out ++ [.spill e false] } else d5
  | .shed =>
    let y := d2.ring r
    (d2.setRing r { y with incTrace := y.incTrace + 1 }).bump .obLoss (ringWin r) (e.cls % 4) 0 1
  | .coalesced =>
    let y := d2.ring r
    let z := { y with summ := coalesce y.summ e }
    let z1 := if evClass e.code = .alarm then { z with incAlarm := z.incAlarm + 1 } else { z with incLog := z.incLog + 1 }
    (d2.setRing r z1).bump .obLoss (ringWin r) (e.cls % 4) 1 1

/-- The record of an event of a die at its time (Table 18-5). -/
def Dev.mkRec (d : Dev) (die code : Nat) (pl : List (Nat × Nat)) : EvRec :=
  { time := d.now die % 2 ^ 64, code := code, source := die + 16 * evBlock die code ((pl.head?.map (·.2)).getD 0), cls := (evClass code).num,
    seq := (d.ring (ringOf die)).seq, payload := packPayload pl }

/-- An incident begins on a ring: an EMPTY first-take buffer starts to fill with the triggering record, and event 0x1102 is
raised (R388, R389).  The incident's counts, 0 since the last one ended, hold the loss that triggered it. -/
def Dev.openIncident (d : Dev) (r cause : Nat) (first : List EvRec) : Dev :=
  let x := d.ring r
  let x1 := { x with incident := true,
                     ftb := if x.ftbState = 0 then first else x.ftb,
                     ftbState := if x.ftbState = 0 then 1 else x.ftbState }
  let d1 := (((d.setRing r x1).setFld .obRingStatus_incidentSticky (ringWin r) 0 0 1).setFld .obRingStatus_lastCause
    (ringWin r) 0 0 cause)
  let d2 := if x.ftbState = 0 then d1 else d1.bump .obFtbMissed (ringWin r) 0 0 1
  let die := if r < 4 then r else 6
  d2.record r (d2.mkRec die 0x1102 [(8, cause), (14, x1.recs.length), (2, x1.ftbState)])

/-- The trigger a raised record gives, before the record is known lost or kept (Table 18-7). -/
def Dev.triggerOf (d d' : Dev) (r : Nat) (e : EvRec) : Nat :=
  if evClass e.code = .alarm ∧ d.fld .obIncCtl_alarmTrigger (ringWin r) = 1 then 3
  else if d.fateOf r e.code ≠ .emitted then 1
  else if d.fld .obIncCtl_fillTrigger (ringWin r) * 8192 ≤ (d'.ring r).recs.length * 100 then 2
  else 0

/-- An event is raised on a die, numbered as SOURCE numbers them (R380), without its performance counts. -/
def Dev.raise0 (d : Dev) (die code : Nat) (pl : List (Nat × Nat)) : Dev :=
  let r := ringOf die
  let e := d.mkRec die code pl
  let d1 := d.record r e
  if (d.ring r).incident then d1
  else
    match d.triggerOf d1 r e with
    | 0 => d1
    | c => d1.openIncident r c [e]

/-! ### Performance counters (R375, R376) -/

/-- The counters that overflow when counter k takes n: the carries follow CHAIN. -/
def Dev.pmcAdd (d : Dev) (die : Nat) : Nat → Nat → Nat → Dev
  | 0, _, _ => d
  | fuel + 1, k, n =>
    let v := d.wide .obPmc (die + 1) k + n
    let d1 := d.setWide .obPmc (die + 1) k 0 v
    if v < 2 ^ 48 then d1
    else
      let d2 := d1.setBit .obPmcStatus_ovf (die + 1) 0 0 k
      if k < 7 ∧ bitAt (d.pd .obPmcCtl_chain die) k = 1 then d2.pmcAdd die fuel (k + 1) 1
      else
        let d3 := if d.pd .obPmcCtl_freezeOnOvf die = 1 then d2.setPd .obPmcCtl_globalEn die 0 else d2
        if d3.obs.once.contains (die, 0x1101, 0) then d3
        else { d3.raise0 die 0x1101 [(16, k)] with obs := { (d3.raise0 die 0x1101 [(16, k)]).obs with
                 once := (die, 0x1101, 0) :: d3.obs.once } }

/-- Whether a counter that another chains into counts its own event: it does not (R376). -/
def Dev.pmcChained (d : Dev) (die k : Nat) : Bool := k ≠ 0 && bitAt (d.pd .obPmcCtl_chain die) (k - 1) = 1

/-- Whether the qualifiers of counter k let an occurrence in; a qualifier given as `none` is one Table 18-3 does not list
for the event. -/
def Dev.pmcQual (d : Dev) (die k : Nat) (pipe tc port : Option Nat) : Bool :=
  let ps := d.pd .obPmcSel_pipes die k
  let cs := d.pd .obPmcSel_classes die k
  let pt := d.pd .obPmcSel_port die k
  (match pipe with | none => true | some p => ps = 0 || bitAt ps p = 1) &&
  (match tc with | none => true | some c => cs = 0 || bitAt cs c = 1) &&
  (match port with | none => true | some s => pt = 0xFF || pt = s)

/-- n occurrences of a performance event on a die (Table 18-3). -/
def Dev.pmc (d : Dev) (die ev : Nat) (pipe tc port : Option Nat) (n : Nat) : Dev :=
  (List.range 8).foldl (fun d k =>
    if d.pd .obPmcCtl_globalEn die = 1 ∧ d.pd .obPmcSel_event die k = ev ∧ d.pmcChained die k = false ∧
        d.pmcQual die k pipe tc port = true ∧ n ≠ 0 then d.pmcAdd die 8 k n else d) d

/-- How far a counter has moved since a state. -/
def Dev.movedSince (d d0 : Dev) (x : Wide) (w i j : Nat) : Nat := (d.wide x w i j + 2 ^ 64 - d0.wide x w i j) % 2 ^ 64

/-- The records of a ring shed, coalesced or overwritten since a state (R390). -/
def Dev.lostSince (d d0 : Dev) (r : Nat) : Nat :=
  ((List.range 12).map (fun k => d.movedSince d0 .obLoss (ringWin r) (k / 3) (k % 3))).sum

/-- RECORDS_RAISED and RECORDS_LOST of a pipeline die count what its ring has raised and lost since a state (Table 18-3). -/
def Dev.countRecords (d d0 : Dev) (r : Nat) : Dev :=
  if r < 4 then
    (d.pmc r 0x1A none none none (d.movedSince d0 .obRaised (ringWin r) 0 0)).pmc r 0x1B none none none (d.lostSince d0 r)
  else d

/-- The performance counts of records since a state, with those of the one record that their overflow may raise (R376). -/
def Dev.counted (d d0 : Dev) (r : Nat) : Dev := (d.countRecords d0 r).countRecords d r

/-- An event is raised on a die (R380), with the performance counts of records raised and lost on it; an unpowered die has
no event ring (R33). -/
def Dev.raise (d : Dev) (die code : Nat) (pl : List (Nat × Nat)) : Dev :=
  if die < 6 ∧ d.railOn die = false then d else (d.raise0 die code pl).counted d (ringOf die)

/-- An incident begins on a ring by a trigger that is no record of it. -/
def Dev.beginIncident (d : Dev) (r cause : Nat) (first : List EvRec) : Dev := (d.openIncident r cause first).counted d r

/-- An event that is raised at most once in each 1 s interval for a key. -/
def Dev.raiseOnce (d : Dev) (die code key : Nat) (pl : List (Nat × Nat)) : Dev :=
  if d.obs.once.contains (die, code, key) then d
  else
    let d1 := d.raise die code pl
    { d1 with obs := { d1.obs with once := (die, code, key) :: d1.obs.once } }

/-! ### Balls derived from the state -/

/-- Whether any alarm state bit is latched on a ring. -/
def Ring.latched (x : Ring) : Bool := x.alarms.any (fun e => e.2 ≠ 0)

/-- The level driven on FAULT_N (R333). -/
def Dev.faultN (d : Dev) : Bool :=
  d.boot.applied && !d.boot.factory && !(d.cd .duStatus_role = 4) && !d.sup.thermShut && !d.sup.railFault &&
    !(d.cd .dvFaultCtl_force = 1) &&
    !(d.cd .dvFaultCtl_alarmEn = 1 && (List.range 5).any (fun r => (d.ring r).latched))

/-- The device with its own outputs of the last command cleared. -/
def Dev.quiet (d : Dev) : Dev := { d with out := [], readData := none }

/-- A command that changes only the device. -/
def onDev (f : Dev → Dev) (s : State) : Host.Outcome State Fault Refusal := .next { s with dev := f s.dev.quiet }

end Sys2Proof.Machine
end

