-- ==== Sys2Proof/Machine/Flags.lean ====
section
/-! DEFINITION. The computations of marks and checks: checksums, the CRCs of R169, the marker of R232 and the other token
buckets. -/

namespace Sys2Proof.Machine

/-! ### Checksums -/

/-- The 16-bit ones' complement sum folded to 16 bits. -/
def fold16 (v : Nat) : Nat := ((v % 65536 + v / 65536) % 65536 + (v % 65536 + v / 65536) / 65536) % 65536

/-- The ones' complement sum of bytes taken as 16-bit words, an odd last byte padded with zero. -/
def sum16 : List Byte → Nat
  | [] => 0
  | [a] => fold16 (a.toNat * 256)
  | a :: b :: t => fold16 (a.toNat * 256 + b.toNat + sum16 t)

/-- The Internet checksum of bytes. -/
def inetChecksum (l : List Byte) : Nat := 65535 - sum16 l

/-- The incremental update of a checksum when a 16-bit word changes from o to n: HC' = ~(~HC + ~m + m'). -/
def checksumUpdate (hc o n : Nat) : Nat :=
  65535 - fold16 (fold16 ((65535 - hc % 65536) + (65535 - o % 65536)) + n % 65536)

/-- One bit of a reflected CRC. -/
def crcBit (poly c : Nat) : Nat := if c % 2 = 1 then (c / 2) ^^^ poly else c / 2

/-- One byte of a reflected CRC. -/
def crcByte (poly c b : Nat) : Nat := Nat.repeat (crcBit poly) 8 (c ^^^ b)

/-- A reflected CRC-32 with initial value 0xFFFF_FFFF and final inversion (R169, R303). -/
def crc32With (poly : Nat) (l : List Nat) : Nat := (l.foldl (crcByte poly) 0xFFFFFFFF) ^^^ 0xFFFFFFFF

/-- CRC-32C: polynomial 0x1EDC_6F41 reflected. -/
def crc32c (l : List Nat) : Nat := crc32With 0x82F63B78 l

/-- The CRC-32 of IEEE 802.3: polynomial 0x04C1_1DB7 reflected. -/
def crc32 (l : List Nat) : Nat := crc32With 0xEDB88320 l

/-- The n bytes of a number, most significant first. -/
def beBytes (n v : Nat) : List Nat := (List.range n).map (fun i => v / 256 ^ (n - 1 - i) % 256)

/-- The n bytes of a number, least significant first. -/
def leBytes (n v : Nat) : List Nat := (List.range n).map (fun i => v / 256 ^ i % 256)

/-- A list of numbers as bytes. -/
def toBytes (l : List Nat) : List Byte := l.map (BitVec.ofNat 8)

/-- The number that bytes spell, most significant first. -/
def beNat (l : List Byte) : Nat := l.foldl (fun a b => a * 256 + b.toNat) 0

/-- The number that bytes spell, least significant first. -/
def leNat (l : List Byte) : Nat := l.foldr (fun b a => b.toNat + 256 * a) 0

/-! ### Buckets (R225, R232, R235, R236) -/

/-- What a tick adds to a bucket, never beyond what it holds. -/
def fillLevel (cap rate v : Int) : Int := if cap < v + rate then cap else v + rate

/-- Every bucket that is not full filled for one tick of the island of ring r: those of that die, or of the CD for ring 4
(Table 12-1). -/
def bktOf : BKey → Nat
  | .emission r => r
  | .code r _ => r
  | .meterC n _ => n
  | .meterP n _ => n
  | .storm n _ _ => n
  | .hostC n _ => n
  | .hostP n _ => n
  | .maxrate n _ _ => n
  | .cbs n _ _ => n

/-- The level of a bucket of byte units as whole bytes. -/
def levelBytes (v : Int) : Nat := v.toNat / byteUnits

/-- The two-rate three-colour marker of R232 on the levels of two buckets: the colour (0 green, 1 yellow, 2 red) and the
new levels. -/
def marker (aware : Bool) (pre b : Nat) (tc tp : Int) : Nat × Int × Int :=
  let n : Int := (b * byteUnits : Nat)
  if (aware = true ∧ 2 ≤ pre) ∨ tp < n then (2, tc, tp)
  else if (aware = true ∧ pre = 1) ∨ tc < n then (1, tc, tp - n)
  else (0, tc - n, tp - n)

/-- A charge of two buckets of the device by R232. -/
def Dev.mark (d : Dev) (kc kp : BKey) (aware : Bool) (pre b : Nat) : Nat × Dev :=
  let r := marker aware pre b (d.bucket kc) (d.bucket kp)
  (r.1, (d.setBucket kc r.2.1).setBucket kp r.2.2)

end Sys2Proof.Machine
end

