-- ==== Sys2Proof/Machine/Operands.lean ====
section
/-! DEFINITION. The operand forms of the action engines: the instruction formats of Table 7-3 with the checks of R143, and
the header window with its bases (R146, Table 7-1) and edits (R153, R154). -/

namespace Sys2Proof.Machine

/-! ### Instruction words (Table 7-3) -/

/-- Format R. -/
def encR (op rd ra rb : Nat) : Nat := op * 2 ^ 26 + rd * 2 ^ 22 + ra * 2 ^ 18 + rb * 2 ^ 14

/-- Format I. -/
def encI (op rd ra imm : Nat) : Nat := op * 2 ^ 26 + rd * 2 ^ 22 + ra * 2 ^ 18 + imm

/-- Format S. -/
def encS (op rd ra pos len1 : Nat) : Nat := op * 2 ^ 26 + rd * 2 ^ 22 + ra * 2 ^ 18 + pos * 2 ^ 5 + len1

/-- Format H. -/
def encH (op rd base rb size off : Nat) : Nat :=
  op * 2 ^ 26 + rd * 2 ^ 22 + base * 2 ^ 18 + rb * 2 ^ 14 + size * 2 ^ 12 + off

/-- Format D. -/
def encD (op base rb n1 off : Nat) : Nat := op * 2 ^ 26 + base * 2 ^ 18 + rb * 2 ^ 14 + n1 * 2 ^ 9 + off

/-- Formats M and O: a low field of up to 12 bits. -/
def encM (op rd ra low : Nat) : Nat := op * 2 ^ 26 + rd * 2 ^ 22 + ra * 2 ^ 18 + low

/-- Format B. -/
def encB (op ra rb off : Nat) : Nat := op * 2 ^ 26 + ra * 2 ^ 18 + rb * 2 ^ 14 + off

/-- Format BI. -/
def encBI (op ra imm off : Nat) : Nat := op * 2 ^ 26 + ra * 2 ^ 22 + imm * 2 ^ 8 + off

/-- Format BB. -/
def encBB (op ra bit off : Nat) : Nat := op * 2 ^ 26 + ra * 2 ^ 22 + bit * 2 ^ 8 + off

/-- The opcode of a word. -/
def opOf (w : Nat) : Nat := w / 2 ^ 26 % 64

/-- Whether a word has a defined opcode and its reserved bits clear (R143, Tables 7-3 and 7-4). -/
def wordOk (w : Nat) : Bool :=
  let op := opOf w
  if op ∈ [0x00, 0x01, 0x21, 0x24, 0x3E] then bits w 25 0 = 0
  else if 0x02 ≤ op ∧ op ≤ 0x08 then bits w 13 0 = 0
  else if 0x09 ≤ op ∧ op ≤ 0x0C then true
  else if op = 0x0D then bits w 21 18 = 0
  else if op = 0x0E then bits w 21 16 = 0
  else if op = 0x0F ∨ op = 0x10 then bits w 17 5 = 0
  else if op = 0x11 ∨ op = 0x12 then bits w 17 10 = 0
  else if 0x18 ≤ op ∧ op ≤ 0x1A then
    bits w 13 12 ≠ 3 && bits w 11 9 = 0 && (bits w 21 18 = 15 || bits w 17 14 = 0)
  else if op = 0x1B then bits w 25 22 = 0 && (bits w 21 18 = 15 || bits w 17 14 = 0)
  else if op = 0x1C then bits w 25 24 < 2 && bits w 23 22 = 0 && bits w 17 0 = 0
  else if op = 0x1D then bits w 23 12 = 0
  else if op = 0x1E then bits w 21 8 = 0
  else if op = 0x1F then bits w 25 22 = 0 && bits w 17 8 = 0
  else if op = 0x20 then bits w 25 22 = 0 && bits w 17 4 = 0
  else if op = 0x22 then bits w 25 22 = 0 && bits w 17 13 = 0 && bits w 11 8 = 0
  else if op = 0x23 ∨ op = 0x26 then bits w 25 12 = 0
  else if op = 0x25 then bits w 25 9 = 0
  else if op = 0x27 then bits w 21 12 = 0
  else if op = 0x28 then bits w 25 22 = 0 && bits w 17 12 = 0
  else if 0x30 ≤ op ∧ op ≤ 0x33 then bits w 25 22 = 0
  else if op = 0x34 ∨ op = 0x35 then true
  else if op = 0x36 ∨ op = 0x37 then bits w 21 13 = 0
  else if op = 0x38 then bits w 25 14 = 0
  else if op = 0x39 then bits w 13 0 = 0
  else op = 0x3F && bits w 13 0 = 0

/-- The furthest word a branch or JTAB at address pc can reach (R143); other words reach the next. -/
def wordReach (pc w : Nat) : Nat :=
  let op := opOf w
  if 0x30 ≤ op ∧ op ≤ 0x33 ∨ op = 0x38 then pc + 1 + bits w 13 0
  else if 0x34 ≤ op ∧ op ≤ 0x37 then pc + 1 + bits w 7 0
  else if op = 0x39 then pc + 1 + bits w 21 14
  else pc

/-- Whether a program passes the checks of R143 that concern it alone. -/
def progOk (p : ProgList) : Bool :=
  let ws := p.words.map (·.toNat)
  match ws with
  | [] => false
  | e :: rest =>
    opOf e = 0x3F && wordOk e && bits e 23 14 = p.number &&
    rest.all (fun w => wordOk w && opOf w ≠ 0x3F) &&
    opOf (ws.getLast?.getD 0) = 0x3E &&
    p.start + ws.length ≤ 16384 && p.number < 1024 &&
    (ws.zip (List.range ws.length)).all (fun x => wordReach x.2 x.1 < ws.length)

/-- Whether a die's action-program section passes R143. -/
def progsOk (ps : List ProgList) : Bool :=
  ps.length ≤ 1024 && ps.all progOk &&
  ps.all (fun p => (ps.filter (fun q => q.number = p.number)).length = 1) &&
  ps.all (fun p => (ps.filter (fun q => p.start < q.start + q.words.length && q.start < p.start + p.words.length)).length = 1)

/-- The word at an address of a die's program store (R142). -/
def storeWord (sb : Storyboard) (n a : Nat) : Nat :=
  match sb.programs.find? (fun p => p.die = n && p.start ≤ a && a < p.start + p.words.length) with
  | some p => ((p.words[a - p.start]?).map (·.toNat)).getD 0
  | none => 0

/-- The program a die holds under a number. -/
def storeProg (sb : Storyboard) (n q : Nat) : Option ProgList := sb.programs.find? (fun p => p.die = n && p.number = q)

/-! ### The header window -/

/-- The last offset of the current window (R146). -/
def Work.lastOff (k : Work) : Nat := if 0 < k.growth then 383 + k.growth.toNat else 383

/-- The base of a header access (Table 7-1): `none` is fault WINDOW.  Base 13 with no parsed header names no header. -/
def baseAddr (k : Work) (regs : Vector Word 16) (base rb : Nat) : Option Nat :=
  if base < 12 then (k.stack[base]?).map (·.cur)
  else if base = 12 then some 0
  else if base = 13 then k.stack.getLast?.map (·.cur)
  else if base = 14 then some k.payload
  else some (regs[rb]?.getD 0).toNat

/-- Byte k of the window of a frame whose bytes may still be arriving: `none` while it has not arrived, 0 past the end of
a whole frame (R146). -/
def winByte (k : Work) (whole : Bool) (a : Nat) : Option Nat :=
  match k.win[a]? with
  | some b => some b.toNat
  | none => if whole then some 0 else none

/-- The n bytes of the window from a on, network order. -/
def winRead (k : Work) (whole : Bool) : Nat → Nat → Option Nat
  | _, 0 => some 0
  | a, n + 1 =>
    match winByte k whole a, winRead k whole (a + 1) n with
    | some x, some y => some (x * 256 ^ n + y)
    | _, _ => none

/-- Bytes written over the window from a on. -/
def patch (l : List Byte) (a : Nat) (b : List Byte) : List Byte := l.take a ++ b ++ l.drop (a + b.length)

/-- Bytes inserted at a: every header whose current start lies at or after a moves (R153). -/
def Work.insert (k : Work) (a : Nat) (b : List Byte) : Work :=
  { k with
    win := k.win.take a ++ b ++ k.win.drop a
    growth := k.growth + b.length
    stack := k.stack.map (fun h => if a ≤ h.cur then { h with cur := h.cur + b.length } else h)
    payload := if a ≤ k.payload then k.payload + b.length else k.payload
    tagAt := k.tagAt.map (fun t => if a ≤ t then t + b.length else t) }

/-- n bytes deleted at a: every header whose current start lies within the deletion moves to its point, and every one
after it moves back by n (R153). -/
def Work.delete (k : Work) (a n : Nat) : Work :=
  let mv := fun x : Nat => if a + n ≤ x then x - n else if a ≤ x then a else x
  { k with
    win := k.win.take a ++ k.win.drop (a + n)
    growth := k.growth - n
    stack := k.stack.map (fun h => { h with cur := mv h.cur })
    payload := mv k.payload
    tagAt := k.tagAt.map mv }

/-- The check class of a parsed header under a graph. -/
def hdrClass (g : List HType) (h : Hdr) : CheckClass :=
  match g.find? (fun t => t.num = h.ty) with | some t => t.check | none => .none

/-- The nearest IPv4 or IPv6 header before header k of a stack (R154). -/
def enclosingIp (g : List HType) (st : List Hdr) (k : Nat) : Option (Hdr × Bool) :=
  (st.take k).foldl (fun a h =>
    match hdrClass g h with | .ipv4 => some (h, true) | .ipv6 => some (h, false) | _ => a) none

/-- The byte of a window at an offset, 0 where there is none. -/
def at0 (l : List Byte) (a : Nat) : Nat := ((l[a]?).map (·.toNat)).getD 0

/-- The 16-bit word of a window at an offset. -/
def word0 (l : List Byte) (a : Nat) : Nat := at0 l a * 256 + at0 l (a + 1)

end Sys2Proof.Machine
end

