-- ==== Sys2Proof/Machine/Ptp.lean ====
section
/-! DEFINITION. PTP event messages in a frame (R266) and their updates (R267–R269). -/

namespace Sys2Proof.Machine

/-- A field of w bits of a window, most significant first. -/
def winBits (l : List Byte) (bit w : Nat) : Nat :=
  let last := (bit + w - 1) / 8
  beNat ((l.drop (bit / 8)).take (last + 1 - bit / 8)) / 2 ^ (8 * (last + 1) - (bit + w)) % 2 ^ w

/-- What carries a PTP message: the place of a UDP header with whether IPv4 encloses it, or nothing for Ethernet. -/
inductive PtpVia where
  | eth
  | udp (at_ : Nat) (v4 : Bool)
  deriving DecidableEq, Repr

/-- The first condition of R266 under the transports that an egress port enables. -/
def ptpVia (g : List HType) (k : Work) (transport : Nat) : Option PtpVia :=
  match k.stack.getLast? with
  | none => none
  | some h =>
    match g.find? (fun t => t.num = h.ty) with
    | none => none
    | some t =>
      match t.check with
      | .eth =>
        match t.next with
        | some (b, w) => if winBits k.win (8 * h.cur + b) w = 0x88F7 ∧ bitAt transport 0 = 1 then some .eth else none
        | none => none
      | .udp =>
        match enclosingIp g k.stack (k.stack.length - 1) with
        | some (_, v4) =>
          if word0 k.win (h.cur + 2) = 319 ∧ bitAt transport (if v4 then 1 else 2) = 1 then some (.udp h.cur v4) else none
        | none => none
      | _ => none

/-- The second condition of R266: the type of the event message at the payload.  Of a frame that has not come whole the bytes to
come are taken to hold what its message lacks (DEDUCED, log 93). -/
def ptpEvent (whole : Bool) (k : Work) : Option Nat :=
  let ty := at0 k.win k.payload % 16
  let len := word0 k.win (k.payload + 2)
  if ty ≤ 3 ∧ at0 k.win (k.payload + 1) % 16 = 2 ∧ 44 ≤ len ∧ (whole = true → k.payload + len ≤ k.win.length) then some ty else none

/-- A difference of instants in units of 2⁻¹⁶ ns, rounded to nearest (R267). -/
def corrUnits (x : Int) : Int := (x + 32768) / 65536

/-- A message at a place with an amount added to its correctionField. -/
def addCorrection (win : List Byte) (p : Nat) (x : Int) : List Byte :=
  patch win (p + 8) (toBytes (beBytes 8 (ofSigned 64 (beNat ((win.drop (p + 8)).take 8) + x))))

/-- A message with the whole nanoseconds of an instant as its originTimestamp. -/
def setOrigin (win : List Byte) (p ns : Nat) : List Byte :=
  patch win (p + 34) (toBytes (beBytes 6 (ns / 1000000000) ++ beBytes 4 (ns % 1000000000)))

/-- The UDP checksum of an updated message: 0 over IPv4, and over IPv6 adjusted for each 16-bit word that changed, 0xFFFF
standing for 0 as UDP has it (R268). -/
def keepChecksum (old new : List Byte) (via : PtpVia) : List Byte :=
  match via with
  | .eth => new
  | .udp a true => patch new (a + 6) [0, 0]
  | .udp a false =>
    let hc := (List.range ((new.length - a) / 2 + 1)).foldl (fun c i =>
      if i = 3 ∨ word0 old (a + 2 * i) = word0 new (a + 2 * i) then c
      else checksumUpdate c (word0 old (a + 2 * i)) (word0 new (a + 2 * i))) (word0 old (a + 6))
    patch new (a + 6) (toBytes (beBytes 2 (if hc = 0 then 0xFFFF else hc)))

end Sys2Proof.Machine
end

