-- ==== Sys2Proof/Machine/Net.lean ====
section
/-! DEFINITION. The named operations over frames, copies and queues that the families of the frame path share: statistics
(R371, R374, R80), accounts of cells and pause requests (R196–R203), the end of a copy (R130, Table 6-10) and takes of
frames (R126–R129). -/

namespace Sys2Proof.Machine

/-! ### Takes of frames -/

/-- The data of the object with a handle under a take. -/
def Dev.obj (d : Dev) (h t : Nat) : Option ObjVer := d.plc.objs.find? (fun o => o.h = h && o.v.applies t)

/-- What a binding slot is bound to under a take (R151). -/
def Dev.bound (d : Dev) (slot t : Nat) : Option ObjVer :=
  match d.plc.binds.find? (fun b => b.slot = slot && b.v.applies t) with
  | some b => if b.h = 0 then none else d.obj b.h t
  | none => none

/-- The mirror sessions under a take in the order of their numbers (R237). -/
def Dev.mirrors (d : Dev) (t : Nat) : List (Nat × Nat × MirrorRec) :=
  (List.range 16).filterMap (fun m =>
    match d.plc.objs.find? (fun o => (match o.data with | .mirror _ => true | _ => false) && o.num = m && o.v.applies t) with
    | some o => (match o.data with | .mirror r => some (m, o.h, r) | _ => none)
    | none => none)

/-- The mirror session of a number under a take. -/
def Dev.mirror? (d : Dev) (t m : Nat) : Option MirrorRec := ((d.mirrors t).find? (fun x => x.1 = m)).map (·.2.2)

/-! ### Frames and copies -/

/-- A draw the spec leaves to chance, below n. -/
def Dev.drawBelow (d : Dev) (n : Nat) : Nat × Dev :=
  (Config.draw d.net.draws % n, { d with net := { d.net with draws := d.net.draws + 1 } })

/-- The frame of a number. -/
def Dev.frame? (d : Dev) (id : Nat) : Option Frame := d.net.frames.find? (fun f => f.id = id)

/-- The device with a frame replaced by its number. -/
def Dev.setFrame (d : Dev) (f : Frame) : Dev :=
  { d with net := { d.net with frames := d.net.frames.map (fun g => if g.id = f.id then f else g) } }

/-- The device without a frame. -/
def Dev.dropFrame (d : Dev) (id : Nat) : Dev :=
  { d with net := { d.net with frames := d.net.frames.filter (fun f => f.id ≠ id) } }

/-- The device with a copy replaced by its number. -/
def Dev.setCopy (d : Dev) (c : Copy) : Dev :=
  { d with net := { d.net with copies := d.net.copies.map (fun x => if x.id = c.id then c else x) } }

/-- The copies of a frame. -/
def Dev.copiesOf (d : Dev) (id : Nat) : List Copy := d.net.copies.filter (fun c => c.frame = id)

/-- The frame of a port that is still arriving. -/
def Dev.arriving (d : Dev) (p : Nat) : Option Frame := d.net.frames.find? (fun f => f.port = p && !f.whole)

/-- The length of a frame as edited, FCS included. -/
def Frame.fullLen (f : Frame) : Nat := f.work.win.length + 4

/-- The cells that a frame occupies (R196), as far as it has arrived. -/
def Frame.cellsNow (f : Frame) : Nat := if f.whole then (f.fullLen + 255) / 256 else f.work.win.length / 256

/-- The cells of a copy of a frame: those of its first bytes when it is truncated (R239). -/
def copyCells (f : Frame) (c : Copy) : Nat :=
  if c.trunc = 0 then f.cellsNow else min f.cellsNow ((c.trunc + 255) / 256)

/-- Whether a copy's cells are all known: its frame is whole, or its truncation is reached. -/
def copyWhole (f : Frame) (c : Copy) : Bool := f.whole || (c.trunc ≠ 0 && c.trunc ≤ f.work.win.length)

/-- Whether a copy is eligible for scheduling (R199). -/
def copyEligible (f : Frame) (c : Copy) : Bool := !c.deferred && (if c.sf then f.known else 0 < f.cells)

/-- Whether a copy has been made in the sense of R199: a cut-through copy from its entry, another once eligible. -/
def copyMade (f : Frame) (c : Copy) : Bool := !c.sf || f.known

/-- The cells of a copy held at its egress die without a gap from its first on. -/
def Copy.front (c : Copy) : Nat :=
  ((List.range c.got.length).takeWhile (fun k => c.got.any (fun g => g.1 = k))).length

/-- Whether a copy has had its last cell read from its VOQ. -/
def copyRead (f : Frame) (c : Copy) : Bool := copyWhole f c && copyCells f c ≤ c.sent && !c.deferred

/-- The length R75 and R223 take for a copy: that of the bytes made for its egress, FCS included, or of its frame. -/
def copyLen (f : Frame) (c : Copy) : Nat :=
  if c.out ≠ [] then max 64 (c.out.length + 4)
  else max 64 ((if c.trunc = 0 then f.work.win.length else min c.trunc f.work.win.length) + 4)

/-! ### Statistics and counters -/

/-- FEC of a port (R49, Table 3-2). -/
def Dev.portFec (d : Dev) (p : Nat) : Nat :=
  match sbSlot d.boot.sb p with
  | .g100 | .g400 => 2
  | .g25 => min 1 ((aget d.boot.sb.fec p).getD 0)
  | _ => 0

/-- A port statistic advanced by n (R371). -/
def Dev.stat (d : Dev) (p idx n : Nat) : Dev :=
  if p < 128 then d.bump .obStat (p / 32 + 1) (p % 32) idx n else d.bump .obStat 0 (p - 128) idx n

/-- The index of a length class of Table 18-1. -/
def lenClass (l : Nat) : Nat :=
  if l ≤ 64 then 0 else if l ≤ 127 then 1 else if l ≤ 255 then 2 else if l ≤ 511 then 3 else if l ≤ 1023 then 4
  else if l ≤ 1518 then 5 else 6

/-- Whether a destination address has its group bit set. -/
def isGroup (mac : Nat) : Bool := bitAt mac 40 = 1

/-- The index of an address kind of Table 18-1: unicast, multicast or broadcast. -/
def addrKind (mac : Nat) : Nat := if mac = 0xFFFFFFFFFFFF then 2 else if isGroup mac then 1 else 0

/-- The sum of a key in a list of running sums. -/
def sumOf (l : List (Nat × Nat × Nat)) (a b : Nat) : Nat :=
  match l.find? (fun e => e.1 = a && e.2.1 = b) with | some e => e.2.2 | none => 0

/-- The list with a running sum advanced by one. -/
def sumAdd (l : List (Nat × Nat × Nat)) (a b : Nat) : List (Nat × Nat × Nat) :=
  (a, b, sumOf l a b + 1) :: l.filter (fun e => !(e.1 = a && e.2.1 = b))

/-- THRESH of a port's MAC (R80). -/
def Dev.macThresh (d : Dev) (p : Nat) : Nat :=
  if p < 128 then d.pd .ptMacThresh_thresh (p / 32) (p % 32) else d.cd .fpPortCtl_thresh (p - 128)

/-- A drop adds to its port's running sum of a direction (0 receive, 1 transmit), and sets EXCEEDED_STICKY when the sum
reaches THRESH (R80). -/
def Dev.dropSum (d : Dev) (p dir : Nat) : Dev :=
  let s := sumAdd d.net.dropSum p dir
  let d1 := { d with net := { d.net with dropSum := s } }
  if d.macThresh p ≠ 0 ∧ d.macThresh p ≤ sumOf s p dir then
    (if p < 128 then d1.setPd .ptMacThresh_exceededSticky (p / 32) 1 (p % 32)
     else d1.setCd .fpPortStatus_exceededSticky 1 (p - 128))
  else d1

/-- A frame that a MAC drops, by its precedence in Table 4-1 and its bytes received. -/
def Dev.macDrop (d : Dev) (p k n : Nat) : Dev := ((d.stat p (0x0F + k) 1).stat p 0x0D n).dropSum p 0

/-- A transmit drop of Table 4-1 by its index in Table 18-1; TX_LINK_ABORT stands beside the table and adds to no sum. -/
def Dev.txDrop (d : Dev) (p idx : Nat) : Dev := if idx = 0x31 then d.stat p idx 1 else (d.stat p idx 1).dropSum p 1

/-- Wire bytes of a frame count in its port's running bandwidth window (R374). -/
def Dev.bwAdd (d : Dev) (p : Nat) (tx : Bool) (len : Nat) : Dev :=
  if p < 128 then
    let l := d.obs.bw
    let old := (l.find? (fun e => e.1 = p)).getD (p, 0, 0, 0, 0, 0)
    let new := if tx then (p, old.2.1, old.2.2.1 + len + 20, old.2.2.2.1, old.2.2.2.2.1 + 1, 0)
      else (p, old.2.1 + len + 20, old.2.2.1, old.2.2.2.1 + 1, old.2.2.2.2.1, 0)
    { d with obs := { d.obs with bw := new :: l.filter (fun e => e.1 ≠ p) } }
  else d

/-- A received frame that the MAC accepted counts in the statistics (R371). -/
def Dev.rxStats (d : Dev) (p len mac : Nat) : Dev :=
  let d1 := (d.stat p 0x00 len).stat p 0x01 1
  let d2 := if p = 132 then d1 else (d1.stat p (0x02 + addrKind mac) 1).stat p (0x06 + lenClass len) 1
  d2.bwAdd p false len

/-- A frame whose last byte has left counts in the statistics (R371). -/
def Dev.txStats (d : Dev) (p len mac : Nat) : Dev :=
  let d1 := (d.stat p 0x20 len).stat p 0x21 1
  let d2 := if p = 132 then d1 else (d1.stat p (0x22 + addrKind mac) 1).stat p (0x26 + lenClass len) 1
  d2.bwAdd p true len

/-- A counter that counts a frame waits for the MAC's verdict while the tail has not been accepted (R19, R101). -/
def Dev.countFor (d : Dev) (f : Frame) (k : WKey) : Dev :=
  match d.frame? f.id with
  | some g =>
    if g.whole then d.bump k.x k.w k.i k.j 1 else d.setFrame { g with onAccept := g.onAccept ++ [k] }
  | none => d.bump k.x k.w k.i k.j 1

/-! ### Cells, VOQs and pause (R196–R203) -/

/-- The counter of a place that is no copy before its frame is eligible waits until then (R199). -/
def Dev.countPlace (d : Dev) (f : Frame) (k : WKey) : Dev :=
  match d.frame? f.id with
  | some g => if g.known then d.bump k.x k.w k.i k.j 1 else d.setFrame { g with onKnown := g.onKnown ++ [k] }
  | none => d.bump k.x k.w k.i k.j 1

/-- Whether a frame still holds its cells: it has a copy to make, or one whose last cell has not been read. -/
def Dev.holds (d : Dev) (f : Frame) : Bool :=
  f.stage ≠ .replicated || !f.whole || f.todo ≠ [] || (d.copiesOf f.id).any (fun c => !copyRead f c)

/-- The input a port is: its own for a line port, the service input for ports 128–132 (R197). -/
def inputOf (p : Nat) : Nat := if p < 128 then p % 32 else 32

/-- The cells held on a die for an input and a class (R200). -/
def Dev.cellsIn (d : Dev) (n inp c : Nat) : Nat :=
  d.net.frames.foldl (fun a f =>
    if f.die = n ∧ inputOf f.port = inp ∧ f.work.tc = c ∧ d.holds f = true then a + f.cells else a) 0

/-- The packet-buffer cells of a die by the memory profile (Table 2-2). -/
def bufferCells (profile : Nat) : Nat := (if profile = 1 then 152 else if profile = 2 then 80 else 128) * 4096

/-- The cells a die holds (SW_STATUS.CELLS_USED). -/
def Dev.cellsUsed (d : Dev) (n : Nat) : Nat :=
  d.net.frames.foldl (fun a f => if f.die = n ∧ d.holds f = true then a + f.cells else a) 0

/-- The cells reserved for admitted frames and not written yet (R202). -/
def Dev.cellsReserved (d : Dev) (n : Nat) : Nat :=
  d.net.frames.foldl (fun a f => if f.die = n then a + f.reserved else a) 0

/-- The free cells of a die that are not reserved. -/
def Dev.cellsFree (d : Dev) (n : Nat) : Nat := bufferCells d.boot.sb.profile - d.cellsUsed n - d.cellsReserved n

/-- The output a port is: its own for a line port, the one service output for ports 128–132 (R198). -/
def outOf (p : Nat) : Nat := if p < 128 then p else 128

/-- The copies that stand in the VOQ of an input or copy slot toward a port and class, in their order (R198). -/
def Dev.voq (d : Dev) (n slot port c : Nat) : List Copy :=
  d.net.copies.filter (fun x =>
    x.slot = slot && outOf x.port = outOf port && x.tc = c && !x.deferred &&
    (match d.frame? x.frame with | some f => f.die = n && !copyRead f x | none => false))

/-- The cells of a VOQ. -/
def Dev.voqCells (d : Dev) (n slot port c : Nat) : Nat :=
  (d.voq n slot port c).foldl (fun a x =>
    match d.frame? x.frame with | some f => a + (min f.cells (copyCells f x) - x.sent) | none => a) 0

/-- VOQ_LIMIT of a class on a die. -/
def Dev.voqLimit (d : Dev) (n c : Nat) : Nat := d.cfg .swClassVoq_voqLimit (n + 1) c

/-- The outputs toward which an input has copies of a class. -/
def Dev.voqPorts (d : Dev) (n slot c : Nat) : List Nat :=
  ((d.net.copies.filter (fun x => x.slot = slot && x.tc = c && !x.deferred &&
      (match d.frame? x.frame with | some f => f.die = n | none => false))).map (·.port)).eraseDups

/-- The outputs toward which an input's VOQ of a class stands at its limit. -/
def Dev.fullVoqs (d : Dev) (n slot c : Nat) : List Nat :=
  (d.voqPorts n slot c).filter (fun q => d.voqLimit n c ≤ d.voqCells n slot q c)

/-- The bit of a class in HOLDING or DISCARDING of an output (R211, R212), on the die that owns the port. -/
def Dev.outBit (d : Dev) (f : Fld) (q c : Nat) : Bool := bitAt (d.pd f (dieOf q) (idxOf q)) c = 1

/-- The sending side of a port. -/
def Dev.tx (d : Dev) (p : Nat) : PortTx := (aget d.net.tx p).getD {}

/-- The device with the sending side of a port replaced. -/
def Dev.setTx (d : Dev) (p : Nat) (x : PortTx) : Dev := { d with net := { d.net with tx := aset d.net.tx p x } }

/-- XON of a class: a value not below XOFF acts as XOFF − 1 (SW_CLASS_CTL). -/
def Dev.xon (d : Dev) (n c : Nat) : Nat := min (d.cfg .swClassCtl_xon (n + 1) c) (d.cfg .swClassCtl_xoff (n + 1) c - 1)

/-- Whether a frame of an input and class waits for search rate, scan capacity or action slots (R113, R125, R160). -/
def Dev.slowIn (d : Dev) (n inp c : Nat) : Bool :=
  d.net.frames.any (fun f => f.waiting && f.die = n && inputOf f.port = inp && f.work.tc = c)

/-- Whether the conditions of R200, or frames that wait in the receive path (R113, R125, R160), request pause for a class of
an input. -/
def Dev.pauseWanted (d : Dev) (n inp c : Nat) : Bool :=
  d.cfg .swClassCtl_xoff (n + 1) c ≤ d.cellsIn n inp c || d.fullVoqs n inp c ≠ [] || d.slowIn n inp c ||
    (inp < 32 && d.pd .swStatus_globalXoff n = 1)

/-- Whether the conditions of R200 withdraw it. -/
def Dev.pauseOver (d : Dev) (n inp c : Nat) : Bool :=
  d.cellsIn n inp c ≤ d.xon n c && (d.fullVoqs n inp c).isEmpty && !d.slowIn n inp c &&
    !(inp < 32 && d.pd .swStatus_globalXoff n = 1)

/-- The ports of an input. -/
def inputPorts (n inp : Nat) : List Nat := if inp < 32 then [32 * n + inp] else [128, 129, 130, 131, 132]

/-- Whether a pause request of an input is held by a VOQ of an output in hold (R211). -/
def Dev.heldDown (d : Dev) (n inp c : Nat) : Bool :=
  (d.fullVoqs n inp c).any (fun q => d.outBit .swPortStatus_holding q c)

/-- Whether TX_EN lets a line port send pause for a class (R79). -/
def Dev.pfcTxEn (d : Dev) (p c : Nat) : Bool := bitAt (d.cfg .ptPfcCtl_txEn (p / 32 + 1) (p % 32)) c = 1

/-- A pause request is raised for a class of an input: its XOFF bit, the PFC frame due on a line port, the performance
count, and the episode of R211. -/
def Dev.pauseRaise (d : Dev) (n inp c : Nat) : Dev :=
  let d1 := (inputPorts n inp).foldl (fun d p => d.setBit .swPortStatus_xoff (n + 1) (idxOf p) 0 c) d
  let d2 := d1.pmc n 0x16 none (some c) (some inp) 1
  let d3 := if d.heldDown n inp c then d2.bump .swDownBp (n + 1) inp 0 1 else d2
  if inp < 32 then
    let p := 32 * n + inp
    let x := d3.tx p
    if d.pfcTxEn p c then d3.setTx p { x with pfcDue := (c, 1) :: x.pfcDue.filter (fun e => e.1 ≠ c) } else d3
  else d3

/-- A pause request is withdrawn for a class of an input (R200, R79). -/
def Dev.pauseDrop (d : Dev) (n inp c : Nat) : Dev :=
  let d1 := (inputPorts n inp).foldl (fun d p => d.clrBit .swPortStatus_xoff (n + 1) (idxOf p) 0 c) d
  if inp < 32 then
    let p := 32 * n + inp
    let x := d1.tx p
    let rest := x.pfcDue.filter (fun e => e.1 ≠ c)
    d1.setTx p { x with pfcDue := if x.pfcSent.contains c && d.pfcTxEn p c then (c, 0) :: rest else rest }
  else d1

/-- Whether pause is requested for a class of an input. -/
def Dev.paused (d : Dev) (n inp c : Nat) : Bool :=
  bitAt (d.pd .swPortStatus_xoff n (if inp < 32 then inp else 36)) c = 1

/-- The classes of a line port whose pause request holds and is sent. -/
def Dev.xoffClasses (d : Dev) (p : Nat) : List Nat :=
  (List.range 8).filter (fun c => d.paused (p / 32) (p % 32) c && d.pfcTxEn p c)

/-- The tests of R200 on one class of an input. -/
def Dev.pauseTest (d : Dev) (n inp c : Nat) : Dev :=
  if d.paused n inp c then (if d.pauseOver n inp c then d.pauseDrop n inp c else d)
  else if d.pauseWanted n inp c then d.pauseRaise n inp c else d

/-- The tests of R200 on every class of an input, with DOWN_BP as it then stands (R211). -/
def Dev.pauseInput (d : Dev) (n inp : Nat) : Dev :=
  let d1 := (List.range 8).foldl (fun d c => d.pauseTest n inp c) d
  let held := (List.range 8).any (fun c => d1.paused n inp c && d1.heldDown n inp c)
  let v := if held then 1 else 0
  if d1.pd .swPortStatus_downBp n inp = v then d1 else d1.setPd .swPortStatus_downBp n v inp

/-- The inputs of a die. -/
def inputsOf (n : Nat) : List Nat := if n = 0 then List.range 33 else List.range 32

/-- The test of the global request (R202) and, when it changes, of every input. -/
def Dev.globalTest (d : Dev) (n : Nat) : Dev :=
  let free := d.cellsFree n
  let g := d.pd .swStatus_globalXoff n
  if g = 0 ∧ free < d.cfg .swCtl_gxoffFree (n + 1) then
    let d1 := (d.setPd .swStatus_globalXoff n 1).raise n 0x0707 [(20, free)]
    (inputsOf n).foldl (fun d i => d.pauseInput n i) d1
  else if g = 1 ∧ d.cfg .swCtl_gxoffFree (n + 1) + 4096 < free then
    (inputsOf n).foldl (fun d i => d.pauseInput n i) (d.setPd .swStatus_globalXoff n 0)
  else d

/-- Both tests, made at every cell written or freed for a port (R200, R202). -/
def Dev.cellTest (d : Dev) (n p : Nat) : Dev := (d.pauseInput n (inputOf p)).globalTest n

/-! ### The end of a copy -/

/-- A flagged copy of a host frame with CAPTURE writes its entry (R270); the queue holds 64, and its first entry
sends vector 12 + n (Table 16-11). -/
def Dev.capture (d : Dev) (n stamp port tag : Nat) (discarded : Bool) : Dev :=
  if 64 ≤ (d.tm.caps.filter (fun e => e.1 = n)).length then
    ((d.bump .tmCapOverflow (n + 1) 0 0 1).setPd .tmDieStatus_capOverflowSticky n 1).raiseOnce n 0x0A04 0
      [(2, n), (8, port)]
  else
    let d1 := { d with tm := { d.tm with caps := d.tm.caps ++
        [(n, ⟨stamp % 2 ^ 32 / 2 ^ 28 * 2 ^ 28, stamp / 2 ^ 32 % 2 ^ 64, port, tag, discarded⟩)] } }
    if d.tm.caps.any (fun e => e.1 = n) then d1 else d1.irq (12 + n)

/-- A flagged copy that ends without transmission writes an entry with DISCARDED set (R270). -/
def Dev.captureLost (d : Dev) (f : Frame) (port : Nat) : Dev :=
  match f.oneStep with
  | some o =>
    let tr := d.cfg .tmPortPtp_transport (dieOf port + 1) (idxOf port)
    if o.mode = 3 ∧ port < 132 ∧ d.cfg .tmPortPtp_mode (dieOf port + 1) (idxOf port) ≠ 0 ∧
        (ptpVia d.boot.sb.graph f.work tr).isSome = true ∧ (ptpEvent f.whole f.work).isSome = true then
      d.capture (dieOf port) (d.instant (dieOf port)) port o.tag true
    else d
  | none => d

/-- Whether a frame's tail has come and been judged, every copy has been queued and every copy has ended (R130). -/
def Dev.complete (d : Dev) (f : Frame) : Bool :=
  f.known && f.stage = .replicated && f.todo.isEmpty && (d.copiesOf f.id).isEmpty

/-- A frame whose copies have all ended completes: its cells are freed and it leaves TK_INFLIGHT (R130, R208). -/
def Dev.reap (d : Dev) (id : Nat) : Dev :=
  match d.frame? id with
  | some f => if d.complete f then (d.dropFrame id).cellTest f.die f.port else d.cellTest f.die f.port
  | none => d

/-- The bytes of a copy of a copy slot count for the measure of the slot and of its group (R251). -/
def Dev.slotMeasure (d : Dev) (f : Frame) (c : Copy) : Dev :=
  if c.slot < 33 then d
  else
    let mine := fun (e : Nat × Nat × Nat × Nat) => e.1 = f.die && e.2.1 = c.slot && e.2.2.1 = c.group
    let sum := ((d.plc.slotBytes.find? mine).map (·.2.2.2)).getD 0
    { d with plc := { d.plc with slotBytes :=
        (f.die, c.slot, c.group, sum + copyLen f c) :: d.plc.slotBytes.filter (fun e => !mine e) } }

/-- The copies of a VOQ whose cells have begun to cross and that have no place in their egress queue yet, in order. -/
def Dev.unplaced (d : Dev) (n : Nat) (c : Copy) : List Copy :=
  d.net.copies.filter (fun x => x.slot = c.slot && x.port = c.port && x.tc = c.tc && x.sent ≠ 0 && x.qseq = 0 &&
    (match d.frame? x.frame with | some f => f.die = n | none => false))

/-- The copies of a VOQ take their places in the egress queue in their order, each once its first cell is held (R198,
R220). -/
def Dev.placeCopies (d : Dev) : List Copy → Dev
  | [] => d
  | c :: cs =>
    if c.front = 0 then d
    else
      (({ d with net := { d.net with nextSeq := d.net.nextSeq + 1 } }).setCopy { c with qseq := d.net.nextSeq }).placeCopies cs

/-- A copy leaves every queue; a flagged copy that was not transmitted writes its capture entry (R270). -/
def Dev.takeOut (d : Dev) (c : Copy) (sentOut : Bool) : Dev :=
  let d1 := { d with net := { d.net with
    copies := d.net.copies.filter (fun x => x.id ≠ c.id)
    flights := d.net.flights.filter (fun x => x.copy ≠ c.id)
    missing := d.net.missing.filter (fun x => x.copy ≠ c.id) } }
  match d.frame? c.frame with
  | some f =>
    let d2 := (if sentOut then d1 else d1.captureLost f c.port).slotMeasure f c
    (d2.placeCopies (d2.unplaced f.die c)).reap f.id
  | none => d1

/-- A copy is discarded and counted by one counter (R19), or by none when it had not been made. -/
def Dev.discard (d : Dev) (c : Copy) (k : WKey) : Dev :=
  match d.frame? c.frame with
  | some f =>
    if copyMade f c then (d.bump k.x k.w k.i k.j 1).takeOut c false else (d.countPlace f k).takeOut c false
  | none => d.takeOut c false

end Sys2Proof.Machine
end

