-- ==== Sys2Proof/Machine/Parser.lean ====
section
/-! DEFINITION. The parser (Parsing and malformed frames): the walk of the graph with its checks (R91–R95, R99) and the
checks of the tail (R94, R99). -/

namespace Sys2Proof.Machine

/-- Byte k of a frame as far as it has arrived: `none` while it has not, a free value past the end of a whole frame. -/
def frameByte (bytes : List Byte) (ended : Bool) (k : Nat) : Option Nat :=
  match bytes[k]? with
  | some b => some b.toNat
  | none => if ended then some (Config.pastEnd k).toNat else none

/-- The n bytes from k on, most significant first. -/
def frameBytes (bytes : List Byte) (ended : Bool) : Nat → Nat → Option Nat
  | _, 0 => some 0
  | k, n + 1 =>
    match frameByte bytes ended k, frameBytes bytes ended (k + 1) n with
    | some a, some b => some (a * 2 ^ (8 * n) + b)
    | _, _ => none

/-- The field of w bits at a bit offset, most significant bit first. -/
def frameBits (bytes : List Byte) (ended : Bool) (bit w : Nat) : Option Nat :=
  let first := bit / 8
  let last := (bit + w + 7) / 8
  (frameBytes bytes ended first (last - first)).map (fun v => (v >>> (8 * last - bit - w)) % 2 ^ w)

/-- A header type of the graph by its number. -/
def graphType (g : List HType) (n : Nat) : Option HType := g.find? (fun t => t.num = n)

/-- The transition a next-field value takes: the first whose masked value matches (R91). -/
def takeTransition (ts : List Transition) (v : Nat) : Option Nat :=
  (ts.find? (fun t => v &&& t.mask = t.value &&& t.mask)).map (·.next)

/-- What the walk knows: the headers found, the region end and whether an IP header set it, the outermost region and the
reason its check would give, the late check, and the extracts with their bytes. -/
structure Walk where
  hdrs : List Hdr := []
  region : Option Nat := none
  byIp : Bool := false
  outer : Option (Nat × Nat) := none
  late : Option Late := none
  extracts : List Extract := []
  extBytes : Nat := 0
  trunc : Bool := false

/-- What the checks of one header say. -/
inductive WalkStep where
  | wait
  | fail (reason : Nat)
  | done (w : Walk)
  | next (w : Walk) (pos ty : Nat)

/-- What a class check says: a byte has not arrived, a reason, or the walk with the region as the class leaves it and
whether a fragment ends the walk. -/
inductive ClassStep where
  | wait
  | fail (reason : Nat)
  | ok (w : Walk) (stop : Bool)

/-- The length of a header at pos, if its bytes have arrived (Table 5-1). -/
def headerLen (bytes : List Byte) (ended : Bool) (t : HType) (pos : Nat) : Option Nat :=
  match t.len with
  | .fixed n => some n
  | .field bit w scale add => (frameBits bytes ended (8 * pos + bit) w).map (fun v => v * scale + add)

/-- The bytes of a header that its own length checks read: those up to the end of its length field, and the data offset of
TCP.  A frame that ends before them has no such length, and the header ends beyond the frame. -/
def lenFieldEnd (t : HType) : Nat :=
  max (match t.len with | .fixed _ => 0 | .field bit w _ _ => (bit + w + 7) / 8) (if t.check = .tcp then 13 else 1)

/-- Whether a length from a field lies outside the type's bounds (check 3 of R95), or outside 1 to 384 (Table 5-1). -/
def fieldLenBad (t : HType) (l : Nat) : Bool :=
  match t.len with
  | .fixed _ => false
  | .field .. => l < t.min || t.max < l || l < 1 || 384 < l

/-- A length of a class places the region end at r: beyond the current region end, or the end of a whole frame, it fails
with the class's reason; otherwise the region end is r, and what the tail must still show is noted (R93, R99). -/
def setRegion (w : Walk) (last : Option Nat) (r reason : Nat) (ip : Bool) : ClassStep :=
  let idx := w.hdrs.length
  match w.region with
  | some r0 => if r0 < r then .fail reason else .ok { w with region := some r, byIp := ip } false
  | none =>
    match last with
    | some l => if l < r then .fail reason else .ok { w with region := some r, byIp := ip, outer := some (r, idx) } false
    | none => .ok { w with region := some r, byIp := ip, outer := some (r, idx), late := some { reason := reason, idx := idx } } false

/-- The version check of a class (check 2 of R95), with the version nibble's byte. -/
def versionBad (c : CheckClass) (b : Nat) : Bool :=
  match c with
  | .ipv4 => b / 16 ≠ 4
  | .ipv6 => b / 16 ≠ 6
  | _ => false

/-- Whether a header's own length fails its class check (check 3 of R95): IHL or data offset below 5. -/
def classLenBad (c : CheckClass) (b0 b12 : Nat) : Bool :=
  match c with
  | .ipv4 => b0 % 16 < 5
  | .tcp => b12 / 16 < 5
  | _ => false

/-- The remaining checks of a class (check 6 of R95, Table 5-2), for a header of length l at pos. -/
def classChecks (bytes : List Byte) (ended : Bool) (last : Option Nat) (w : Walk) (t : HType) (pos l : Nat) : ClassStep :=
  match t.check with
  | .none | .ipv6Ext | .tcp => .ok w false
  | .eth =>
    match t.next with
    | none => .ok w false
    | some (bit, wd) =>
      match frameBits bytes ended (8 * pos + bit) wd with
      | none => .wait
      | some v =>
        if 0x05DD ≤ v ∧ v ≤ 0x05FF then .fail 6
        else if v ≤ 0x05DC then setRegion w last (pos + (bit + wd + 7) / 8 - 1 + v) 6 false
        else .ok w false
  | .ipv4 =>
    match frameBytes bytes ended (pos + 2) 2, frameBytes bytes ended (pos + 6) 2 with
    | some total, some frag =>
      if total < l then .fail 7
      else
        match setRegion w last (pos + total - 1) 7 true with
        | .fail r => .fail r
        | .wait => .wait
        | .ok w1 _ => if 65535 < frag % 8192 * 8 + total - l then .fail 11 else .ok w1 (frag % 8192 ≠ 0)
    | _, _ => .wait
  | .ipv6 =>
    match frameBytes bytes ended (pos + 4) 2 with
    | some n => if n = 0 then .fail 8 else setRegion w last (pos + 39 + n) 8 true
    | none => .wait
  | .ipv6Frag =>
    match frameBytes bytes ended (pos + 2) 2 with
    | none => .wait
    | some f =>
      let off := f / 8 * 8
      match w.region with
      | some r => if 65535 < off + (r + 1 - (pos + l)) then .fail 11 else .ok w (off ≠ 0)
      | none =>
        match last with
        | some e => if 65535 < off + (e + 1 - (pos + l)) then .fail 11 else .ok w (off ≠ 0)
        | none =>
          .ok { w with late := some { reason := 11, idx := w.hdrs.length, frag := off, after := pos + l } } (off ≠ 0)
  | .udp =>
    match frameBytes bytes ended (pos + 4) 2 with
    | none => .wait
    | some n =>
      if n < 8 then .fail 10
      else
        match w.region with
        | some r => if w.byIp ∧ n ≠ r + 1 - pos then .fail 10 else setRegion w last (pos + n - 1) 10 false
        | none => setRegion w last (pos + n - 1) 10 false

/-- The user checks of a type (check 7 of R95): `none` while a byte has not arrived, else whether one fails. -/
def userChecksBad (bytes : List Byte) (ended : Bool) (pos : Nat) : List UserCheck → Option Bool
  | [] => some false
  | u :: us =>
    match frameBits bytes ended (8 * pos + u.bit) u.width with
    | none => none
    | some v => if v < u.lo ∨ u.hi < v then some true else userChecksBad bytes ended pos us

/-- The extracts a header gives, in order, until 32 fields or 80 bytes are reached (Table 5-5); each field takes its
whole bytes. -/
def takeExtracts (bytes : List Byte) (ended : Bool) (ty occ pos : Nat) : List (Nat × Nat) → Nat → Walk → Option Walk
  | [], _, w => some w
  | (bit, wd) :: fs, i, w =>
    let n := (wd + 7) / 8
    if w.trunc || 32 ≤ w.extracts.length || 80 < w.extBytes + n then some { w with trunc := true }
    else
      match frameBits bytes ended (8 * pos + bit) wd with
      | none => none
      | some v =>
        takeExtracts bytes ended ty occ pos fs (i + 1)
          { w with extracts := w.extracts ++ [⟨ty, occ, i, wd, v⟩], extBytes := w.extBytes + n }

/-- One header of the walk: the checks of R95 in their order. -/
def walkStep (bytes : List Byte) (ended : Bool) (w : Walk) (t : HType) (pos : Nat) : WalkStep :=
  let last : Option Nat := if ended then some (bytes.length - 1) else none
  let occ := (w.hdrs.filter (fun h => h.ty = t.num)).length
  if t.once ∧ occ ≠ 0 then .fail 14
  else if ended ∧ bytes.length ≤ pos then .fail 2
  else
    match frameByte bytes ended pos with
    | none => .wait
    | some b0 =>
      if versionBad t.check b0 then .fail 4
      else
        match headerLen bytes ended t pos, (if t.check = .tcp then frameByte bytes ended (pos + 12) else some 0x50) with
        | some l, some b12 =>
          if ended ∧ bytes.length < pos + lenFieldEnd t then .fail 2
          else if fieldLenBad t l ∨ classLenBad t.check b0 b12 = true then .fail 5
          else if ended ∧ bytes.length < pos + l then .fail 2
          else if !ended ∧ bytes.length < pos + l then .wait
          else if w.region.any (fun r => r + 1 < pos + l) then .fail 9
          else if 384 < pos + l then .fail 1
          else
            match classChecks bytes ended last w t pos l with
            | .wait => .wait
            | .fail r => .fail r
            | .ok w1 stop =>
              match userChecksBad bytes ended pos t.user with
              | none => .wait
              | some true => .fail 13
              | some false =>
                match takeExtracts bytes ended t.num occ pos t.extracts 0 w1 with
                | none => .wait
                | some w2 =>
                  let w3 := { w2 with hdrs := w2.hdrs ++ [⟨t.num, pos, pos, l⟩] }
                  if stop then .done w3
                  else
                    match t.next with
                    | none => if t.mandatory then .fail 3 else .done w3
                    | some (bit, wd) =>
                      match frameBits bytes ended (8 * pos + bit) wd with
                      | none => .wait
                      | some v =>
                        match takeTransition t.trans v with
                        | some n => if 12 ≤ w3.hdrs.length then .fail 0 else .next w3 (pos + l) n
                        | none => if t.mandatory then .fail 3 else .done w3
        | _, _ => .wait

/-- Where the walk's last failing check leaves the header it failed on: after checks 1 to 7 the header is not counted as
parsed, at the transition it is (R91, Table 5-6). -/
def failedStack (w : Walk) (reason ty pos l : Nat) : List Hdr :=
  if reason = 0 ∨ reason = 3 then w.hdrs ++ [⟨ty, pos, pos, l⟩] else w.hdrs

/-- The parse result of a walk that ended without a failure. -/
def Walk.result (w : Walk) (ended : Bool) : ParseRes :=
  let p := match w.hdrs.getLast? with | some h => h.start + h.len | none => 0
  { stack := w.hdrs, payload := p, curPayload := p, regionEnd := w.outer.map (·.1),
    regionHdr := (w.outer.map (·.2)).getD 0, extracts := w.extracts, trunc := w.trunc,
    tailPending := !ended && (w.outer.isSome || w.late.isSome), late := if ended then none else w.late }

/-- The parse result of an early verdict. -/
def Walk.verdict (w : Walk) (reason ty pos l : Nat) : ParseRes :=
  let st := failedStack w reason ty pos l
  let p := match st.getLast? with | some h => h.start + h.len | none => 0
  { stack := st, payload := p, curPayload := p, regionEnd := w.outer.map (·.1), regionHdr := (w.outer.map (·.2)).getD 0,
    extracts := w.extracts, trunc := w.trunc, malformed := true, reason := reason, failIdx := w.hdrs.length,
    failOff := pos }

/-- The walk of the graph from a header type at a position (R91): `none` while bytes it needs have not arrived.  A word of
the graph found bad gives PARSER_ERROR (R105); word a of the graph memory is taken to hold header type a. -/
def walk (g : List HType) (bad : List Nat) (bytes : List Byte) (ended : Bool) : Nat → Walk → Nat → Nat → Option ParseRes
  | 0, w, pos, _ => some (w.verdict 0 0 pos 0)
  | fuel + 1, w, pos, ty =>
    match graphType g ty with
    | none => some (w.verdict 3 ty pos 0 |> fun r => { r with stack := w.hdrs })
    | some t =>
      if bad.contains ty then some { w.verdict 15 ty pos 0 with badAddr := ty }
      else
        match walkStep bytes ended w t pos with
        | .wait => none
        | .fail r => some (w.verdict r ty pos ((headerLen bytes ended t pos).getD 0))
        | .done w1 => some (w1.result ended)
        | .next w1 p n => walk g bad bytes ended fuel w1 p n

/-- The tail checks (R94, R99): what the last byte of a frame of n bytes without FCS shows of a parse result, as a reason,
a failing header's index and its start. -/
def tailVerdict (p : ParseRes) (padLimit n : Nat) : Option (Nat × Nat × Nat) :=
  let off := fun i => ((p.stack[i]?).map (·.start)).getD 0
  let early : Option (Nat × Nat × Nat) :=
    match p.late with
    | some l =>
      if l.reason = 11 then
        (if 65535 < l.frag + n - l.after then some (11, l.idx, off l.idx) else none)
      else
        match p.regionEnd with
        | some r => if n ≤ r then some (l.reason, l.idx, off l.idx) else none
        | none => none
    | none => none
  match early with
  | some v => some v
  | none =>
    match p.regionEnd with
    | some r => if n + 4 ≠ 64 ∧ padLimit < n - (r + 1) then some (12, p.regionHdr, off p.regionHdr) else none
    | none => none

/-- The whole parse of a frame as far as it has arrived; a whole frame has its tail checks made at once (R94, R99). -/
def parseFrame (g : List HType) (bad : List Nat) (startType padLimit : Nat) (bytes : List Byte) (ended : Bool) :
    Option ParseRes :=
  match walk g bad bytes ended 13 {} 0 startType with
  | none => none
  | some r =>
    if r.malformed || !ended then some r
    else
      match tailVerdict r padLimit bytes.length with
      | some (reason, idx, off) => some { r with malformed := true, reason := reason, failIdx := idx, failOff := off }
      | none => some r

end Sys2Proof.Machine
end

