-- ==== Sys2Proof/Machine/Classify.lean ====
section
/-! DEFINITION. Classification (Classification, inspection and takes): keys (R109, R110), the search of rules (R111–R117,
R119), the scan for patterns (R122–R125) and parity (R118). -/

namespace Sys2Proof.Machine

/-! ### Keys -/

/-- The extract of a key field (Table 6-1): 0 when the header does not occur or its extract was not taken (R110). -/
def extractOf (p : ParseRes) (f : KeyField) : Nat :=
  let last := (p.stack.filter (fun h => h.ty = f.type)).length - 1
  let occ := if f.occur = 12 then 0 else if f.occur = 13 then last else f.occur
  match p.extracts.find? (fun e => e.ty = f.type && e.idx = f.extract && e.occ = occ) with
  | some e => e.value
  | none => 0

/-- The bits of a key field before it is packed. -/
def fieldValue (p : ParseRes) (port : Nat) (f : KeyField) : Nat :=
  let v := if f.source = 0 then extractOf p f
    else if f.source = 1 then (p.stack.map (·.ty)).eraseDups.foldl (fun a t => a + 2 ^ t) 0
    else if f.source = 2 then p.stack.length
    else port
  bits v f.hi f.lo

/-- The width of a key field. -/
def keyWidth (f : KeyField) : Nat := f.hi + 1 - f.lo

/-- The fields of a layout with the key bit each starts at (R109). -/
def fieldPlaces : List KeyField → Nat → List (KeyField × Nat)
  | [], _ => []
  | f :: fs, a => (f, a) :: fieldPlaces fs (a + keyWidth f)

/-- Whether a rule matches a frame's parse result under its group's layout: a RANGE field between its bounds, every other
key bit under the mask (R111, R115). -/
def ruleMatches (fields : List KeyField) (p : ParseRes) (port : Nat) (r : RuleRec) : Bool :=
  let places := fieldPlaces fields 0
  let key := places.foldl (fun a x => a + fieldValue p port x.1 * 2 ^ x.2) 0
  let rangeBits := places.foldl (fun a x => if x.1.range then a + (2 ^ keyWidth x.1 - 1) * 2 ^ x.2 else a) 0
  (key ^^^ r.value) &&& (r.mask - (r.mask &&& rangeBits)) = 0 &&
  places.all (fun x =>
    !x.1.range ||
      (bits r.value (x.2 + keyWidth x.1 - 1) x.2 ≤ bits key (x.2 + keyWidth x.1 - 1) x.2 &&
       bits key (x.2 + keyWidth x.1 - 1) x.2 ≤ bits r.mask (x.2 + keyWidth x.1 - 1) x.2))

/-- Whether rule a comes before rule b: the lower PRIORITY, then the lower RULE_ID (R112). -/
def ruleBefore (a b : RuleRec) : Bool := a.priority < b.priority || (a.priority = b.priority && a.id < b.id)

/-- The first of the rules in the order of R112. -/
def firstRule : List RuleRec → Option RuleRec
  | [] => none
  | r :: rs =>
    match firstRule rs with
    | none => some r
    | some q => if ruleBefore q r then some q else some r

/-- The rule group bound to a port under a take: its handle, width and layout (R112, R119). -/
def Dev.groupOf (d : Dev) (port t : Nat) (tree : Bool) : Option (Nat × Nat × List KeyField) :=
  d.plc.objs.findSome? (fun o =>
    if o.v.applies t then
      match o.data with
      | .rules tr w fs ps => if tr = tree ∧ ps.contains port then some (o.h, w, fs) else none
      | _ => none
    else none)

/-- Whether a line port is an inspection port of the running storyboard (R119). -/
def Dev.inspection (d : Dev) (port : Nat) : Bool := d.boot.sb.inspect.contains port

/-! ### Payload patterns -/

/-- Whether a pattern matches a window with its start at a given offset (R123). -/
def patternAt (r : PatRec) (win : List Byte) (s : Nat) : Bool :=
  s + r.value.length ≤ win.length &&
  ((List.range r.value.length).all (fun i =>
    (at0 win (s + i) ^^^ (r.value[i]?.getD 0)) &&& (r.mask[i]?.getD 0) = 0))

/-- Whether a pattern matches within a window at a start its anchor allows. -/
def patternIn (r : PatRec) (win : List Byte) : Bool :=
  (List.range (win.length + 1)).any (fun s =>
    (r.anchor = 0 || (r.anchor = 1 && s = r.lo) || (r.anchor = 2 && r.lo ≤ s && s ≤ r.hi)) && patternAt r win s)

/-- The pattern groups bound to a port under a take. -/
def Dev.patGroups (d : Dev) (port t : Nat) : List Nat :=
  d.plc.objs.filterMap (fun o =>
    if o.v.applies t then (match o.data with | .patterns ps => if ps.contains port then some o.h else none | _ => none)
    else none)

/-- Where the inspection window of a frame ends (R122): `none` while bytes of it have not arrived. -/
def scanEnd (p : ParseRes) (w : Nat) (bytes : List Byte) (ended : Bool) : Option Nat :=
  let a := match p.regionEnd with | some r => min (p.payload + w) (r + 1) | none => p.payload + w
  if a ≤ bytes.length then some a else if ended then some bytes.length else none

/-- The IDs of the patterns that match a frame in the groups bound to its port (R124). -/
def Dev.scanIds (d : Dev) (f : Frame) (fin : Nat) : List Nat :=
  let win := (f.bytes.take fin).drop f.parse.payload
  let gs := d.patGroups f.port f.take
  (d.plc.pats.filter (fun p => gs.contains p.g && p.v.applies f.take && patternIn p.r win)).map (·.r.id)

/-- The least of a list of numbers. -/
def leastOf : List Nat → Option Nat
  | [] => none
  | a :: t => match leastOf t with | none => some a | some b => some (min a b)

/-! ### The classification of a frame -/

/-- The miss result of a port (R117). -/
def Dev.missResult (d : Dev) (n port : Nat) : ClsRes := { entry := d.cfg .clPortCtl_missEntry (n + 1) (idxOf port) }

/-- The rules of a group that take part for a frame's take. -/
def Dev.rulesOf (d : Dev) (h t : Nat) : List RuleVer := d.plc.rules.filter (fun r => r.g = h && r.v.applies t)

/-- The result of a matching rule (Table 6-4). -/
def ruleResult (h : Nat) (r : RuleRec) : ClsRes :=
  { hit := true, scan := bitAt r.result 1 = 1, entry := bits r.result 17 4, param := bits r.result 63 32, group := h,
    ruleId := r.id }

/-- A match advances the rule's counter on the die (R116). -/
def Dev.countMatch (d : Dev) (n h id : Nat) : Dev :=
  let l := d.plc.matches_
  let k := fun e : Nat × Nat × Nat × Nat => e.1 = n && e.2.1 = h && e.2.2.1 = id
  let c := match l.find? k with | some e => e.2.2.2 | none => 0
  { d with plc := { d.plc with matches_ := (n, h, id, (c + 1) % 2 ^ 64) :: l.filter (fun e => !k e) } }

/-- The bad words that a lookup of a frame reads: an associative-memory slot of a rule that takes part, or any tree word
the command names (R118). -/
def Dev.badLookup (d : Dev) (f : Frame) (rs : List RuleVer) (tree : Bool) (read : List BadWord) : Option BadWord :=
  if tree then read.find? (fun b => match b with | .tree n _ => n = f.die | _ => false)
  else d.net.bad.find? (fun b =>
    match b with
    | .cam n p s => n = f.die && p = pipeOf f.port &&
        d.plc.cam.any (fun e => e.die = n && e.pipe = p && e.slot ≤ s && s < e.slot + e.size * e.parts && e.v.applies f.take &&
          rs.any (fun r => r.g = e.g && r.r.id = e.id))
    | _ => false)

/-- The sticky flag and alarm of a bad associative, tree or pattern word (R118, Table 6-14). -/
def Dev.alarmCl (d : Dev) (b : BadWord) : Dev :=
  match b with
  | .cam n p s => (d.setPd .clPipeStatus_paritySticky n 1 p).raise n 0x0404 [(2, p), (14, s)]
  | .tree n a => (d.setPd .clInspectStatus_treeParitySticky n 1).raise n 0x0405 [(1, 0), (24, a)]
  | .pattern n a => (d.setPd .clInspectStatus_treeParitySticky n 1).raise n 0x0405 [(1, 1), (24, a)]
  | _ => d

/-- A parity error in a frame's lookup: its frame takes ERR, and is discarded where PARITY_DROP says so (R118). -/
def Dev.clParity (d : Dev) (f : Frame) (b : BadWord) : Dev × ClsRes × Bool :=
  let d1 := d.alarmCl b
  (d1, { d.missResult f.die f.port with err := true }, d.cfg .clPortCtl_parityDrop (f.die + 1) (idxOf f.port) = 1)

/-- The search of the rules bound to a frame's port: the result, or that of a miss, and whether parity discards the
frame. -/
def Dev.search (d : Dev) (f : Frame) (read : List BadWord) : Dev × ClsRes × Bool :=
  let n := f.die
  let tree := d.inspection f.port
  match d.groupOf f.port f.take tree with
  | none => (d.bump .clMissCount (n + 1) (idxOf f.port) 0 1, d.missResult n f.port, false)
  | some (h, w, fs) =>
    let rs := d.rulesOf h f.take
    let d1 := if tree then d.pmc n 0x04 none none (some (idxOf f.port)) 1
      else d.pmc n 0x03 (some (pipeOf f.port)) none none (w / 160)
    match d.badLookup f rs tree read with
    | some b => d1.clParity f b
    | none =>
      match firstRule ((rs.map (·.r)).filter (ruleMatches fs f.parse f.port)) with
      | some r => (d1.countMatch n h r.id, ruleResult h r, false)
      | none => (d1.bump .clMissCount (n + 1) (idxOf f.port) 0 1, d.missResult n f.port, false)

/-- Whether a frame is scanned for patterns (R122). -/
def Dev.scanned (d : Dev) (f : Frame) (c : ClsRes) : Bool := d.inspection f.port || c.scan

/-- The scan of a frame: `none` while bytes of its window have not arrived. -/
def Dev.scan (d : Dev) (f : Frame) (c : ClsRes) (ended : Bool) (read : List BadWord) :
    Option (Dev × ClsRes × Bool) :=
  match scanEnd f.parse (d.boot.sb.window[f.die]?.getD 128) f.bytes ended with
  | none => none
  | some fin =>
    let blocks := (fin - f.parse.payload + 63) / 64
    let d1 := d.pmc f.die 0x05 none none (some (idxOf f.port)) blocks
    match read.find? (fun b => match b with | .pattern n _ => n = f.die | _ => false) with
    | some b => some (d1.clParity f b)
    | none =>
      let ids := d.scanIds f fin
      some (d1, { c with phit := ids ≠ [], pid := (leastOf ids).getD 0, pmore := 1 < ids.length }, false)

end Sys2Proof.Machine
end

