-- ==== Sys2Proof/Machine/Action.lean ====
section
/-! DEFINITION. The action engines (Action engines and the action instruction set): the start and end of programs
(R139–R144, R159), faults (R161–R164), samples (R165, R377–R379) and the meaning of every instruction (R145–R158). -/

namespace Sys2Proof.Machine

/-! ### Engines -/

/-- The engine of a pipe by its number, when it runs a program. -/
def Dev.engine? (d : Dev) (n p e : Nat) : Option Engine :=
  d.net.engines.find? (fun g => g.die = n && g.pipe = p && g.num = e)

/-- Whether two engine records are of one engine. -/
def sameEngine (a b : Engine) : Bool := a.die = b.die && a.pipe = b.pipe && a.num = b.num

/-- The device with an engine's record replaced. -/
def Dev.setEngine (d : Dev) (g : Engine) : Dev :=
  { d with net := { d.net with engines := d.net.engines.map (fun x => if sameEngine x g then g else x) } }

/-- The device with an engine idle. -/
def Dev.freeEngine (d : Dev) (g : Engine) : Dev :=
  { d with net := { d.net with engines := d.net.engines.filter (fun x => !sameEngine x g) } }

/-- The action budget B of a die in slots (R160). -/
def Dev.budget (d : Dev) (n : Nat) : Nat := d.boot.sb.budget[n]?.getD 32

/-- A register of an engine. -/
def Engine.reg (g : Engine) (r : Fin 16) : Word := g.regs[r]

/-- An engine with a register written and its pc moved to the next word. -/
def Engine.put (g : Engine) (r : Fin 16) (v : Word) : Engine := { g with regs := g.regs.set r v, pc := g.pc + 1 }

/-- An engine with its pc moved to the next word. -/
def Engine.adv (g : Engine) : Engine := { g with pc := g.pc + 1 }

/-- An engine whose branch is taken or not: the target is pc + 1 + off. -/
def Engine.branch (g : Engine) (c : Bool) (off : Nat) : Engine := { g with pc := if c then g.pc + 1 + off else g.pc + 1 }

/-! ### Sampling -/

/-- The next interval of a pipe's sampler (R377). -/
def Dev.sampleInterval (d : Dev) (n : Nat) : Nat × Dev :=
  let p := d.pd .obSampleCtl_period n
  if d.pd .obSampleCtl_jitter n = 1 then
    let r := d.drawBelow (2 * (p / 4) + 1)
    (p - p / 4 + r.1, r.2)
  else (p, d)

/-- A program starts on a pipe: whether its frame is chosen (R377). -/
def Dev.sampleStart (d : Dev) (n p : Nat) : Bool × Dev :=
  if d.pd .obSampleCtl_enable n = 1 ∧ bitAt (d.pd .obSampleCtl_pipes n) p = 1 then
    let put := fun (d : Dev) (c : Nat) => { d with obs := { d.obs with countdown := aset d.obs.countdown (4 * n + p) c } }
    let c := match aget d.obs.countdown (4 * n + p) with
      | some c => (c, d)
      | none => d.sampleInterval n
    if c.1 ≤ 1 then
      let r := c.2.sampleInterval n
      (true, put r.2 r.1)
    else (false, put c.2 (c.1 - 1))
  else (false, d)

/-- A record enters a die's buffer of 1,024 (R379). -/
def Dev.keepSample (d : Dev) (n : Nat) (s : Sample) : Dev :=
  let mine := d.obs.samples.filter (fun e => e.1 = n)
  if 1024 ≤ mine.length then
    let d0 := (d.bump .obSampleLost (n + 1) 0 0 1).setPd .obSampleStatus_fullSticky n 1
    let d1 := d0.raiseOnce n 0x1104 0 [(32, d0.wide .obSampleLost (n + 1) % 2 ^ 32)]
    if d.pd .obSampleCtl_overwrite n = 1 then
      { d1 with obs := { d1.obs with
          samples := d1.obs.samples.filter (fun e => e.1 ≠ n) ++ mine.drop 1 ++ [(n, s)] } }
    else d1
  else { d with obs := { d.obs with samples := d.obs.samples ++ [(n, s)] } }

/-- The instruction that occupied slot k of a program's trail. -/
def slotAt : List (Nat × Nat × Nat) → Nat → Option (Nat × Nat × Nat)
  | [], _ => none
  | (a, s, l) :: t, k => if k < s then some (a, s, l) else slotAt t (k - s)

/-- The record of a chosen frame at its program's end (R165, Table 18-4).  The word of an instruction that met fault PARITY (7)
is what was read, a free value. -/
def Dev.sampleEnd (d : Dev) (g : Engine) (f : Frame) (fault : Option Nat) : Dev :=
  if g.sampled then
    let total := g.trail.foldl (fun a x => a + x.2.1) 0
    let r := d.drawBelow (max 1 total)
    match slotAt g.trail r.1 with
    | some (a, _, l) =>
      r.2.keepSample g.die
        { time := d.now g.die % 2 ^ 64, addr := a,
          word := if fault = some 7 ∧ a = g.pc then (Config.badProgWord g.die a).toNat else storeWord d.boot.sb g.die a,
          latency := min l 0xFFFF, port := f.port,
          flags := f.take + f.work.tc * 16 + (if fault.isSome then 128 else 0), who := g.prog + g.pipe * 1024 + g.num * 4096,
          slots := g.slots, budget := d.budgetCode g.die, cycles := min (17 + g.slots + g.waits) 0xFFFF }
    | none => r.2
  else d

/-! ### The start and end of a program -/

/-- The work of a frame as its program found it (Table 7-8, DEFAULT). -/
def Frame.undone (f : Frame) : Frame := { f with work := f.init }

/-- A frame with a final directive of HOST goes nowhere when it entered from the host port (R159). -/
def Dev.hostLoop (d : Dev) (f : Frame) : Dev × Frame :=
  match f.work.dir with
  | .host _ =>
    if f.port = 132 then
      let f1 := { f with work := { f.work with dir := .drop } }
      ((d.setFrame f1).countFor f1 ⟨.aeHostLoop, f.die + 1, 0, 0⟩, f1)
    else (d.setFrame f, f)
  | _ => (d.setFrame f, f)

/-- A frame whose program ended takes its outcome (R159): a DROP is counted, a HOST from the host port discarded.  One that a
late verdict has discarded meanwhile counts there alone (R100, R98). -/
def Dev.outcome (d : Dev) (f : Frame) : Dev :=
  let f1 := { f with stage := .ended }
  if f.silent then d.setFrame f1
  else
    match f.work.dir, f.prog with
    | .drop, some q => (d.setFrame f1).countFor f1 ⟨.aeDropCount, f.die + 1, q, 0⟩
    | _, _ => (d.hostLoop f1).1

/-- The counts and reports of a fault (R163, R164). -/
def Dev.faultReport (d : Dev) (f : Frame) (cause addr prog : Nat) : Dev :=
  let n := f.die
  let d1 := d.bump .aeCauseCount (n + 1) cause 0 1
  let d2 := if cause = 8 then d1 else d1.bump .aeFaultCount (n + 1) prog 0 1
  let d3 := (((d2.setPd .aeFaultLast_addr n addr).setPd .aeFaultLast_cause n cause).setPd .aeFaultLast_prog n
    (if cause = 8 then 0x3FF else prog)).setPd .aeStatus_faultSticky n 1
  let d4 := d3.pmc n 0x0A (some (pipeOf f.port)) none none 1
  let d5 := if d.pd .aeCtl_trace n = 1 then
      d4.raise n 0x0501 [(8, f.port), (10, if cause = 8 then 0x3FF else prog), (4, cause), (32, addr), (4, f.take)]
    else d4
  if cause = 8 then d5.raiseOnce n 0x0503 0 [(8, f.port), (14, addr)]
  else if cause = 7 then (d5.setPd .aeStatus_paritySticky n 1).raise n 0x0502 [(2, pipeOf f.port), (32, addr)]
  else d5

/-- The fault action of Table 7-8.  A frame dropped by a fault is not handed on: only its port's mirror sessions copy
it (R155, R238). -/
def Dev.faultAction (d : Dev) (f : Frame) (act cause : Nat) : Dev :=
  match act with
  | 0 =>
    let u := f.undone
    d.setFrame { u with stage := .ended, silent := true, learnDone := true, work := { u.work with dir := .drop } }
  | 1 => d.outcome f
  | 2 => d.setFrame { f.undone with stage := .ended }
  | _ =>
    if f.silent then d.setFrame { f.undone with stage := .ended } else
    let u := f.undone
    (d.hostLoop { u with stage := .ended, work := { u.work with dir := .host (0xF0 + cause) } }).1

/-- The lowest-numbered idle engine of a pipe (R139). -/
def Dev.idleEngine (d : Dev) (n p : Nat) : Option Nat := (List.range 16).find? (fun e => (d.engine? n p e).isNone)

/-- The program of a classified frame starts on an idle engine, or meets BAD_ENTRY, or PARITY where the ENTER read is bad
(R139, R144, R145, R164).  DESIGN CHOICE (log 90): the program and fault action of a bad ENTER are those the storyboard gives
it, and a bad word that is no ENTER there is BAD_ENTRY. -/
def Dev.startProgram (d : Dev) (f : Frame) : Dev :=
  let n := f.die
  let p := pipeOf f.port
  match d.idleEngine n p with
  | none => d
  | some e =>
    let w := storeWord d.boot.sb n f.cls.entry
    let bad := d.net.bad.contains (.prog n f.cls.entry)
    if opOf w = 0x3F ∧ bad = false then
      let s := d.sampleStart n p
      let g : Engine := { die := n, pipe := p, num := e, frame := f.id, pc := f.cls.entry + 1, prog := bits w 23 14,
                          faultAct := bits w 25 24, sampled := s.1,
                          regs := ((Vector.replicate 16 0).set 0 (BitVec.ofNat 32 f.cls.param)).set 1
                            (BitVec.ofNat 32 f.cls.ruleId) }
      let d1 := { s.2 with net := { s.2.net with engines := s.2.net.engines ++ [g] } }
      (d1.setFrame { f with stage := .running, prog := some g.prog }).pmc n 0x06 (some p) none (some (idxOf f.port)) 1
    else if opOf w = 0x3F then
      (d.faultReport f 7 f.cls.entry (bits w 23 14)).faultAction { f with prog := some (bits w 23 14) } (bits w 25 24) 7
    else
      let d0 := if bad then (d.setPd .aeStatus_paritySticky n 1).raise n 0x0502 [(2, p), (32, f.cls.entry)] else d
      (d0.faultReport f 8 f.cls.entry 0x3FF).faultAction f (d.cfg .aeCtl_badEntryAction (n + 1)) 8

/-- The frames of a pipe that wait for an engine start while one is idle, in their order. -/
def Dev.startReady (d : Dev) (n p : Nat) : Dev :=
  (d.net.frames.filter (fun f => f.die = n && pipeOf f.port = p && f.stage = .ready && !f.waiting)).foldl
    (fun d f => match d.frame? f.id with | some g => if g.stage = .ready ∧ g.waiting = false then d.startProgram g else d | none => d) d

/-- An engine's program ended: its slots are counted, its record written, the engine idle (R140, R165). -/
def Dev.endProgram (d : Dev) (g : Engine) (f : Frame) (fault : Option Nat) : Dev :=
  let d1 := d.pmc g.die 0x07 (some g.pipe) none (some (idxOf f.port)) g.slots
  ((d1.sampleEnd g f fault).freeEngine g).startReady g.die g.pipe

/-- A program meets a fault: the faulting instruction has no effect and counts as the final slot (R161–R165). -/
def Dev.progFault (d : Dev) (g : Engine) (f : Frame) (cause : Nat) : Dev :=
  let g1 := { g with trail := g.trail ++ [(g.pc, 1, 1 + g.curWait)] }
  ((d.faultReport f cause g.pc g.prog).faultAction f g.faultAct cause).endProgram g1 f (some cause)

/-! ### Issue -/

/-- What an instruction's effect answers: its new engine and frame, a fault, a wait for bytes, or the program's end. -/
inductive Eff where
  | go (d : Dev) (g : Engine) (f : Frame)
  | fault (cause : Nat)
  | wait
  | stop

/-- An instruction issues on an engine: the word at its pc must be read without a parity error, be the instruction's own
word, and its slots must fit within the budget (R149, R161, R164). -/
def Dev.issueIf (d : Dev) (n p e : Nat) (ok : Nat → Bool) (cost : Nat) (eff : Dev → Engine → Frame → Eff) : Dev :=
  match d.engine? n p e with
  | none => d
  | some g =>
    match d.frame? g.frame with
    | none => d
    | some f =>
      if d.net.bad.contains (.prog n g.pc) then d.progFault g f 7
      else if !ok (storeWord d.boot.sb n g.pc) then d
      else if d.budget n < g.slots + cost then d.progFault g f 0
      else
        match eff d g f with
        | .wait => (d.setEngine { g with waits := g.waits + 1, curWait := g.curWait + 1 }).pmc n 0x08 (some p) none none 1
        | .fault c => d.progFault g f c
        | .stop =>
          let g1 := { g with slots := g.slots + cost, trail := g.trail ++ [(g.pc, cost, cost + g.curWait)] }
          (d.outcome f).endProgram g1 f none
        | .go d1 g1 f1 =>
          (d1.setFrame f1).setEngine
            { g1 with slots := g.slots + cost, trail := g.trail ++ [(g.pc, cost, cost + g.curWait)], curWait := 0 }

/-- An instruction of a given word issues. -/
def Dev.issue (d : Dev) (n p e : Nat) (w cost : Nat) (eff : Dev → Engine → Frame → Eff) : Dev :=
  d.issueIf n p e (fun x => x = w) cost eff

/-- An instruction that writes a register with a value of the engine's registers. -/
def Dev.alu (d : Dev) (n p e : Nat) (w : Nat) (rd : Fin 16) (v : Engine → Word) : Dev :=
  d.issue n p e w 1 (fun d g f => .go d (g.put rd (v g)) f)

/-- An instruction that branches forward on a condition. -/
def Dev.branch (d : Dev) (n p e : Nat) (w off : Nat) (c : Engine → Bool) : Dev :=
  d.issue n p e w 1 (fun d g f => .go d (g.branch (c g) off) f)

/-- An instruction that changes the frame's work alone. -/
def Dev.workOp (d : Dev) (n p e : Nat) (w : Nat) (k : Engine → Work → Work) : Dev :=
  d.issue n p e w 1 (fun d g f => .go d g.adv { f with work := k g f.work })

/-! ### Metadata (Table 7-2) -/

/-- The number of a directive. -/
def Dir.num : Dir → Nat
  | .lookup => 0 | .port _ => 1 | .group _ => 2 | .drop => 3 | .host _ => 4

/-- A Bool as a bit. -/
def b2n (b : Bool) : Nat := if b then 1 else 0

/-- The metadata field of an index, 0 for one the table does not list (R147). -/
def metaRead (g : Engine) (f : Frame) (i : Nat) : Nat :=
  match i with
  | 0x00 => f.port
  | 0x01 => f.work.tc
  | 0x02 => f.work.vid
  | 0x03 => if f.whole then f.bytes.length + 4 else 0
  | 0x04 => b2n f.whole
  | 0x05 => f.take
  | 0x06 => f.stamp / 2 ^ 32 % 2 ^ 32
  | 0x07 => b2n f.cls.hit + 2 * b2n f.cls.scan + 4 * b2n f.cls.err
  | 0x08 => f.cls.group
  | 0x09 => f.cls.ruleId
  | 0x0A => f.cls.param
  | 0x0B => f.parse.stack.length
  | 0x0C => f.work.payload % 512
  | 0x0D => f.parse.regionEnd.getD 0x3FFF
  | 0x0E => b2n f.parse.trunc + 2 * b2n f.parse.malformed + 4 * f.parse.reason + 64 * b2n (f.parse.tailPending && !f.whole)
  | 0x1C => b2n f.cls.phit
  | 0x1D => f.cls.pid
  | 0x1E => b2n f.cls.pmore
  | 0x20 => b2n f.work.forceSf
  | 0x21 => b2n f.work.noLearn
  | 0x22 => f.work.dir.num
  | 0x23 => (g.slots + 1) % 128
  | 0x24 => ofSigned 7 f.work.growth
  | k =>
    if 0x10 ≤ k ∧ k ≤ 0x1B then
      match f.work.stack[k - 0x10]? with | some h => h.ty + h.cur % 512 * 64 | none => 0
    else 0

/-- A write of a metadata field; one to a field that is not writable is ignored (R147). -/
def metaWrite (k : Work) (i v : Nat) : Work :=
  match i with
  | 0x01 => { k with tc := v % 8, tcSet := true }
  | 0x02 => { k with vid := v % 4096 }
  | 0x20 => { k with forceSf := v % 2 = 1 }
  | 0x21 => { k with noLearn := v % 2 = 1 }
  | _ => k

/-! ### Header access -/

/-- The bytes of a size code (format H). -/
def sizeBytes (z : Nat) : Nat := if z = 0 then 1 else if z = 1 then 2 else 4

/-- The address of a header access (Table 7-1). -/
def accessAt (g : Engine) (f : Frame) (base rb off : Nat) : Option Nat :=
  (baseAddr f.work g.regs base rb).map (· + off)

/-- The load of HLD. -/
def effLoad (rd : Fin 16) (base rb size off : Nat) (d : Dev) (g : Engine) (f : Frame) : Eff :=
  match accessAt g f base rb off with
  | none => .fault 2
  | some a =>
    if f.work.lastOff < a + sizeBytes size - 1 then .fault 2
    else
      match winRead f.work f.whole a (sizeBytes size) with
      | none => .wait
      | some v => .go d (g.put rd (BitVec.ofNat 32 v)) f

/-- The store of HST: a write beyond the frame's last byte is fault WINDOW, which the device knows once it has come. -/
def effStore (rs : Fin 16) (base rb size off : Nat) (d : Dev) (g : Engine) (f : Frame) : Eff :=
  match accessAt g f base rb off with
  | none => .fault 2
  | some a =>
    if f.work.lastOff < a + sizeBytes size - 1 then .fault 2
    else if f.work.win.length < a + sizeBytes size then (if f.whole then .fault 2 else .wait)
    else
      .go d g.adv { f with work := { f.work with
        win := patch f.work.win a (toBytes (beBytes (sizeBytes size) ((g.reg rs).toNat % 256 ^ sizeBytes size))) } }

/-- The insertion of INSB. -/
def effInsert (rs : Fin 16) (base rb size off : Nat) (d : Dev) (g : Engine) (f : Frame) : Eff :=
  match accessAt g f base rb off with
  | none => .fault 2
  | some a =>
    if f.work.payload < a ∨ 32 < f.work.growth + sizeBytes size then .fault 3
    else
      let b := toBytes (beBytes (sizeBytes size) ((g.reg rs).toNat % 256 ^ sizeBytes size))
      .go d g.adv { f with work := f.work.insert a b }

/-- The deletion of DELB. -/
def effDelete (base rb n off : Nat) (d : Dev) (g : Engine) (f : Frame) : Eff :=
  match accessAt g f base rb off with
  | none => .fault 2
  | some a => if f.work.payload < a + n then .fault 3 else .go d g.adv { f with work := f.work.delete a n }

/-- The length of a UDP or TCP datagram in the pseudo-header: the UDP length, or what the enclosing IP header leaves for
TCP. -/
def l4Len (k : Work) (l4 ip : Hdr) (udp v4 : Bool) : Nat :=
  if udp then word0 k.win (l4.cur + 4)
  else if v4 then ip.cur + word0 k.win (ip.cur + 2) - l4.cur
  else ip.cur + 40 + word0 k.win (ip.cur + 4) - l4.cur

/-- The sum a UDP or TCP checksum of header k covers, as far as a window holds it: the datagram without the checksum field,
and of the pseudo-header the addresses of the enclosing IP header and the length. -/
def coveredSum (k : Work) (l4 : Hdr) (csOff : Nat) (ip : Hdr) (v4 : Bool) : Nat :=
  let addrs := if v4 then (k.win.drop (ip.cur + 12)).take 8 else (k.win.drop (ip.cur + 8)).take 32
  let len := l4Len k l4 ip (csOff = 6) v4
  let body := patch ((k.win.drop l4.cur).take len) csOff [0, 0]
  fold16 (fold16 (sum16 addrs + len % 65536) + sum16 body)

/-- CKSUM (R154).  A UDP checksum that comes out 0 is stored as 0xFFFF, which is the same ones' complement number, since 0
says that there is no checksum (PRESUMED, log entry 74). -/
def effChecksum (mode k : Nat) (d : Dev) (g : Engine) (f : Frame) : Eff :=
  let gr := d.boot.sb.graph
  match f.work.stack[k]?, f.init.stack[k]? with
  | some h, some h0 =>
    let put := fun (a v : Nat) => Eff.go d g.adv
      { f with work := { f.work with win := patch f.work.win a (toBytes (beBytes 2 v)) } }
    if mode = 0 then
      (if hdrClass gr h = .ipv4 then
        let len := at0 f.work.win h.cur % 16 * 4
        put (h.cur + 10) (inetChecksum (patch ((f.work.win.drop h.cur).take len) 10 [0, 0]))
      else .fault 2)
    else
      let cs : Option Nat := match hdrClass gr h with | .udp => some 6 | .tcp => some 16 | _ => none
      match cs, enclosingIp gr f.work.stack k, enclosingIp gr f.init.stack k with
      | some o, some (ip, v4), some (ip0, _) =>
        let old := word0 f.init.win (h0.cur + o)
        if old = 0 ∧ v4 = true ∧ o = 6 then put (h.cur + o) 0
        else
          let v := checksumUpdate old (coveredSum f.init h0 o ip0 v4) (coveredSum f.work h o ip v4)
          put (h.cur + o) (if o = 6 ∧ v = 0 then 0xFFFF else v)
      | _, _, _ => .fault 2
  | _, _ => .fault 2

/-! ### Redundancy tags -/

/-- Where an HSR tag stands: after the addresses and the VLAN tags that follow them. -/
def hsrPlace (gr : List HType) (st : List Hdr) : Nat :=
  st.foldl (fun a h => if h.cur = a + 2 ∧ hdrClass gr h = .eth ∧ h.len = 4 then a + 4 else a) 12

/-- The frame's work without a tag that an earlier RTAG mode 2 inserted. -/
def Work.untag (k : Work) : Work :=
  match k.tagAt with
  | some a => { k.delete a 6 with tagAt := none }
  | none => k

/-- RTAG (R155): a second request replaces the first; mode 2 inserts its tag at once, which counts toward GROWTH. -/
def effRtag (mode i : Nat) (d : Dev) (g : Engine) (f : Frame) : Eff :=
  let k := f.work.untag
  if mode = 2 then
    (if 32 < k.growth + 6 then .fault 3
    else
      let a := hsrPlace d.boot.sb.graph k.stack
      .go d g.adv { f with work := { k.insert a [0x89, 0x2F, 0, 0, 0, 0] with rtag := some (2, i), tagAt := some a } })
  else .go d g.adv { f with work := { k with rtag := some (mode, i) } }

/-! ### Directives, copies, meters and counters -/

/-- REDIR (R157). -/
def effRedir (port : Nat) (d : Dev) (g : Engine) (f : Frame) : Eff :=
  if port = 132 then .go d g.adv { f with work := { f.work with dir := .host 0 } }
  else if d.portExists port ∧ d.railOn (dieOf port) = true then .go d g.adv { f with work := { f.work with dir := .port port } }
  else .fault 6

/-- GROUP (R151). -/
def effGroup (slot : Nat) (d : Dev) (g : Engine) (f : Frame) : Eff :=
  match d.bound slot f.take with
  | some o =>
    match o.data with
    | .mcast _ _ => .go d g.adv { f with work := { f.work with dir := .group o.h } }
    | _ => .fault 4
  | none => .fault 4

/-- MIRROR (R158). -/
def effMirror (slot : Nat) (d : Dev) (g : Engine) (f : Frame) : Eff :=
  match d.bound slot f.take with
  | some o =>
    match o.data with
    | .mirror _ =>
      if f.work.mirrors.contains o.num then .go d g.adv f
      else if 4 ≤ f.work.mirrors.length then .go (d.bump .aeMirrorExcess (f.die + 1) 0 0 1) g.adv f
      else .go d g.adv { f with work := { f.work with mirrors := f.work.mirrors ++ [o.num] } }
    | _ => .fault 4
  | none => .fault 4

/-- The bytes of a charge (R232), before LEN_ADJ. -/
def chargeLen (f : Frame) : Nat :=
  if f.whole then f.bytes.length + 4 else match f.parse.regionEnd with | some r => r + 5 | none => f.maxlen

/-- A charge adds to the counters of its colour in the instance of a die (R234). -/
def countColour (l : List MeterInst) (h n colour b : Nat) : List MeterInst :=
  match l with
  | [] =>
    [{ h := h, die := n,
       cnt := (List.range 7).map (fun k => if k = 2 * colour then 1 else if k = 2 * colour + 1 then b % 2 ^ 64 else 0) }]
  | m :: t =>
    if m.h = h ∧ m.die = n then
      { m with cnt := (List.range 7).map (fun k =>
          ((m.cnt[k]?).getD 0 + (if k = 2 * colour then 1 else if k = 2 * colour + 1 then b else 0)) % 2 ^ 64) } :: t
    else m :: countColour t h n colour b

/-- METER (R150, R232, R234). -/
def effMeter (rd : Fin 16) (slot : Nat) (d : Dev) (g : Engine) (f : Frame) : Eff :=
  match d.bound slot f.take with
  | some o =>
    match o.data with
    | .meter r =>
      let b := (((chargeLen f : Nat) : Int) + r.lenAdj).toNat
      let b1 := max 1 b
      let m := d.mark (.meterC f.die o.h) (.meterP f.die o.h) r.aware (g.reg rd).toNat b1
      let d1 := { m.2 with plc := { m.2.plc with meters := countColour m.2.plc.meters o.h f.die m.1 b1 } }
      .go d1 (g.put rd (BitVec.ofNat 32 m.1)) { f with charges := f.charges ++ [(o.h, m.1)] }
    | _ => .fault 4
  | none => .fault 4

/-- An entry of a counter block's instance on a die advanced by packets and bytes (R156). -/
def countEntry (l : List CblkInst) (h n i p b : Nat) : List CblkInst :=
  match l with
  | [] => [{ h := h, die := n, entries := [(i, p % 2 ^ 64, b % 2 ^ 64)] }]
  | c :: t =>
    if c.h = h ∧ c.die = n then
      let old := (c.entries.find? (fun e => e.1 = i)).getD (i, 0, 0)
      { c with entries := (i, (old.2.1 + p) % 2 ^ 64, (old.2.2 + b) % 2 ^ 64) :: c.entries.filter (fun e => e.1 ≠ i) } :: t
    else c :: countEntry t h n i p b

/-- The device with a counter-block entry advanced. -/
def Dev.countBlock (d : Dev) (h n i p b : Nat) : Dev :=
  { d with plc := { d.plc with cblks := countEntry d.plc.cblks h n i p b } }

/-- COUNT (R156): while the tail has not arrived the bytes wait for it. -/
def effCount (ra : Fin 16) (slot : Nat) (d : Dev) (g : Engine) (f : Frame) : Eff :=
  match d.bound slot f.take with
  | some o =>
    match o.data with
    | .cblock k =>
      let i := (g.reg ra).toNat
      if k ≤ i then .fault 5
      else if f.whole then .go (d.countBlock o.h f.die i 1 (f.bytes.length + 4)) g.adv f
      else .go (d.countBlock o.h f.die i 1 0) g.adv { f with counts := f.counts ++ [(o.h, f.die, i)] }
    | _ => .fault 4
  | none => .fault 4

/-! ### The instructions (Table 7-4) -/

variable (n : Die) (p : Fin 4) (e : Fin 16)

/-- ILLEGAL: opcode 0x00, a reserved opcode, or ENTER after the first word. -/
def execIllegal (s : State) : Host.Outcome State Fault Refusal :=
  onDev (fun d => d.issueIf n p e (fun w =>
    opOf w = 0 || opOf w = 0x3F || (0x13 ≤ opOf w && opOf w ≤ 0x17) || (0x29 ≤ opOf w && opOf w ≤ 0x2F) ||
    (0x3A ≤ opOf w && opOf w ≤ 0x3D)) 1 (fun _ _ _ => .fault 1)) s

/-- NOP. -/
def execNop (s : State) : Host.Outcome State Fault Refusal :=
  onDev (fun d => d.issue n p e (encR 0x01 0 0 0) 1 (fun d g f => .go d g.adv f)) s

/-- ADD. -/
def execAdd (rd ra rb : Fin 16) (s : State) : Host.Outcome State Fault Refusal :=
  onDev (fun d => d.alu n p e (encR 0x02 rd ra rb) rd (fun g => g.reg ra + g.reg rb)) s

/-- SUB. -/
def execSub (rd ra rb : Fin 16) (s : State) : Host.Outcome State Fault Refusal :=
  onDev (fun d => d.alu n p e (encR 0x03 rd ra rb) rd (fun g => g.reg ra - g.reg rb)) s

/-- AND. -/
def execAnd (rd ra rb : Fin 16) (s : State) : Host.Outcome State Fault Refusal :=
  onDev (fun d => d.alu n p e (encR 0x04 rd ra rb) rd (fun g => g.reg ra &&& g.reg rb)) s

/-- OR. -/
def execOr (rd ra rb : Fin 16) (s : State) : Host.Outcome State Fault Refusal :=
  onDev (fun d => d.alu n p e (encR 0x05 rd ra rb) rd (fun g => g.reg ra ||| g.reg rb)) s

/-- XOR. -/
def execXor (rd ra rb : Fin 16) (s : State) : Host.Outcome State Fault Refusal :=
  onDev (fun d => d.alu n p e (encR 0x06 rd ra rb) rd (fun g => g.reg ra ^^^ g.reg rb)) s

/-- SHL: the shift is rb[4:0]. -/
def execShl (rd ra rb : Fin 16) (s : State) : Host.Outcome State Fault Refusal :=
  onDev (fun d => d.alu n p e (encR 0x07 rd ra rb) rd (fun g => g.reg ra <<< ((g.reg rb).toNat % 32))) s

/-- SHR: the shift is rb[4:0], with zero fill. -/
def execShr (rd ra rb : Fin 16) (s : State) : Host.Outcome State Fault Refusal :=
  onDev (fun d => d.alu n p e (encR 0x08 rd ra rb) rd (fun g => g.reg ra >>> ((g.reg rb).toNat % 32))) s

/-- ADDI: the immediate is sign-extended. -/
def execAddi (rd ra : Fin 16) (imm : BitVec 18) (s : State) : Host.Outcome State Fault Refusal :=
  onDev (fun d => d.alu n p e (encI 0x09 rd ra imm.toNat) rd (fun g => g.reg ra + imm.signExtend 32)) s

/-- ANDI: the immediate is zero-extended. -/
def execAndi (rd ra : Fin 16) (imm : BitVec 18) (s : State) : Host.Outcome State Fault Refusal :=
  onDev (fun d => d.alu n p e (encI 0x0A rd ra imm.toNat) rd (fun g => g.reg ra &&& imm.setWidth 32)) s

/-- ORI. -/
def execOri (rd ra : Fin 16) (imm : BitVec 18) (s : State) : Host.Outcome State Fault Refusal :=
  onDev (fun d => d.alu n p e (encI 0x0B rd ra imm.toNat) rd (fun g => g.reg ra ||| imm.setWidth 32)) s

/-- XORI. -/
def execXori (rd ra : Fin 16) (imm : BitVec 18) (s : State) : Host.Outcome State Fault Refusal :=
  onDev (fun d => d.alu n p e (encI 0x0C rd ra imm.toNat) rd (fun g => g.reg ra ^^^ imm.setWidth 32)) s

/-- MOVI: the immediate is sign-extended. -/
def execMovi (rd : Fin 16) (imm : BitVec 18) (s : State) : Host.Outcome State Fault Refusal :=
  onDev (fun d => d.alu n p e (encI 0x0D rd 0 imm.toNat) rd (fun _ => imm.signExtend 32)) s

/-- MOVHI: the low half is kept. -/
def execMovhi (rd : Fin 16) (imm : BitVec 16) (s : State) : Host.Outcome State Fault Refusal :=
  onDev (fun d => d.alu n p e (encI 0x0E rd 0 imm.toNat) rd (fun g => imm ++ (g.reg rd).setWidth 16)) s

/-- SHLI. -/
def execShli (rd ra : Fin 16) (imm : BitVec 5) (s : State) : Host.Outcome State Fault Refusal :=
  onDev (fun d => d.alu n p e (encI 0x0F rd ra imm.toNat) rd (fun g => g.reg ra <<< imm.toNat)) s

/-- SHRI. -/
def execShri (rd ra : Fin 16) (imm : BitVec 5) (s : State) : Host.Outcome State Fault Refusal :=
  onDev (fun d => d.alu n p e (encI 0x10 rd ra imm.toNat) rd (fun g => g.reg ra >>> imm.toNat)) s

/-- EXT: bits beyond 31 read 0; the length is len1 + 1. -/
def execExt (rd ra : Fin 16) (pos len1 : BitVec 5) (s : State) : Host.Outcome State Fault Refusal :=
  onDev (fun d => d.alu n p e (encS 0x11 rd ra pos.toNat len1.toNat) rd
    (fun g => BitVec.ofNat 32 ((g.reg ra).toNat / 2 ^ pos.toNat % 2 ^ (len1.toNat + 1)))) s

/-- INS: bits beyond 31 are dropped. -/
def execIns (rd ra : Fin 16) (pos len1 : BitVec 5) (s : State) : Host.Outcome State Fault Refusal :=
  onDev (fun d => d.alu n p e (encS 0x12 rd ra pos.toNat len1.toNat) rd (fun g =>
    let m := BitVec.ofNat 32 ((2 ^ (len1.toNat + 1) - 1) * 2 ^ pos.toNat)
    (g.reg rd &&& ~~~m) ||| (BitVec.ofNat 32 ((g.reg ra).toNat % 2 ^ (len1.toNat + 1) * 2 ^ pos.toNat) &&& m))) s

/-- HLD. -/
def execHld (rd base rb : Fin 16) (size : Fin 3) (off : BitVec 9) (s : State) : Host.Outcome State Fault Refusal :=
  onDev (fun d => d.issue n p e (encH 0x18 rd base rb size off.toNat) 1 (effLoad rd base rb size off.toNat)) s

/-- HST. -/
def execHst (rs base rb : Fin 16) (size : Fin 3) (off : BitVec 9) (s : State) : Host.Outcome State Fault Refusal :=
  onDev (fun d => d.issue n p e (encH 0x19 rs base rb size off.toNat) 1 (effStore rs base rb size off.toNat)) s

/-- INSB: two slots. -/
def execInsb (rs base rb : Fin 16) (size : Fin 3) (off : BitVec 9) (s : State) : Host.Outcome State Fault Refusal :=
  onDev (fun d => d.issue n p e (encH 0x1A rs base rb size off.toNat) 2 (effInsert rs base rb size off.toNat)) s

/-- DELB: two slots; the count is n1 + 1. -/
def execDelb (base rb : Fin 16) (n1 : BitVec 5) (off : BitVec 9) (s : State) : Host.Outcome State Fault Refusal :=
  onDev (fun d => d.issue n p e (encD 0x1B base rb n1.toNat off.toNat) 2 (effDelete base rb (n1.toNat + 1) off.toNat)) s

/-- CKSUM: two slots. -/
def execCksum (mode : Fin 2) (k : Fin 16) (s : State) : Host.Outcome State Fault Refusal :=
  onDev (fun d => d.issue n p e (0x1C * 2 ^ 26 + mode * 2 ^ 24 + k * 2 ^ 18) 2 (effChecksum mode k)) s

/-- RTAG. -/
def execRtag (mode : Fin 4) (i : BitVec 12) (s : State) : Host.Outcome State Fault Refusal :=
  onDev (fun d => d.issue n p e (0x1D * 2 ^ 26 + mode * 2 ^ 24 + i.toNat) 1 (effRtag mode i.toNat)) s

/-- MRD. -/
def execMrd (rd : Fin 16) (i : Byte) (s : State) : Host.Outcome State Fault Refusal :=
  onDev (fun d => d.issue n p e (encM 0x1E rd 0 i.toNat) 1
    (fun d g f => .go d (g.put rd (BitVec.ofNat 32 (metaRead g f i.toNat))) f)) s

/-- MWR. -/
def execMwr (ra : Fin 16) (i : Byte) (s : State) : Host.Outcome State Fault Refusal :=
  onDev (fun d => d.workOp n p e (encM 0x1F 0 ra i.toNat) (fun g k => metaWrite k i.toNat (g.reg ra).toNat)) s

/-- SETTC: tc, or ra[2:0] when REG is 1. -/
def execSettc (ra : Fin 16) (reg : Bool) (tc : Tc) (s : State) : Host.Outcome State Fault Refusal :=
  onDev (fun d => d.workOp n p e (0x20 * 2 ^ 26 + ra * 2 ^ 18 + b2n reg * 2 ^ 3 + tc)
    (fun g k => { k with tc := if reg then (g.reg ra).toNat % 8 else tc, tcSet := true })) s

/-- LOOKUP. -/
def execLookup (s : State) : Host.Outcome State Fault Refusal :=
  onDev (fun d => d.workOp n p e (0x21 * 2 ^ 26) (fun _ k => { k with dir := .lookup })) s

/-- REDIR: port, or ra[7:0] when REG is 1. -/
def execRedir (ra : Fin 16) (reg : Bool) (port : Byte) (s : State) : Host.Outcome State Fault Refusal :=
  onDev (fun d => d.issue n p e (0x22 * 2 ^ 26 + ra * 2 ^ 18 + b2n reg * 2 ^ 12 + port.toNat) 1
    (fun d g f => effRedir (if reg then (g.reg ra).toNat % 256 else port.toNat) d g f)) s

/-- GROUP. -/
def execGroup (slot : BitVec 12) (s : State) : Host.Outcome State Fault Refusal :=
  onDev (fun d => d.issue n p e (encM 0x23 0 0 slot.toNat) 1 (effGroup slot.toNat)) s

/-- DROP. -/
def execDrop (s : State) : Host.Outcome State Fault Refusal :=
  onDev (fun d => d.workOp n p e (0x24 * 2 ^ 26) (fun _ k => { k with dir := .drop })) s

/-- TOHOST: COPY 0 sets the directive, COPY 1 requests one host copy, whose code a second replaces. -/
def execTohost (copy : Bool) (code : Byte) (s : State) : Host.Outcome State Fault Refusal :=
  onDev (fun d => d.workOp n p e (0x25 * 2 ^ 26 + b2n copy * 2 ^ 8 + code.toNat)
    (fun _ k => if copy then { k with hostReq := some code.toNat } else { k with dir := .host code.toNat })) s

/-- MIRROR. -/
def execMirror (slot : BitVec 12) (s : State) : Host.Outcome State Fault Refusal :=
  onDev (fun d => d.issue n p e (encM 0x26 0 0 slot.toNat) 1 (effMirror slot.toNat)) s

/-- METER: four slots. -/
def execMeter (rd : Fin 16) (slot : BitVec 12) (s : State) : Host.Outcome State Fault Refusal :=
  onDev (fun d => d.issue n p e (encM 0x27 rd 0 slot.toNat) 4 (effMeter rd slot.toNat)) s

/-- COUNT. -/
def execCount (ra : Fin 16) (slot : BitVec 12) (s : State) : Host.Outcome State Fault Refusal :=
  onDev (fun d => d.issue n p e (encM 0x28 0 ra slot.toNat) 1 (effCount ra slot.toNat)) s

/-- BEQ. -/
def execBeq (ra rb : Fin 16) (off : BitVec 14) (s : State) : Host.Outcome State Fault Refusal :=
  onDev (fun d => d.branch n p e (encB 0x30 ra rb off.toNat) off.toNat (fun g => g.reg ra = g.reg rb)) s

/-- BNE. -/
def execBne (ra rb : Fin 16) (off : BitVec 14) (s : State) : Host.Outcome State Fault Refusal :=
  onDev (fun d => d.branch n p e (encB 0x31 ra rb off.toNat) off.toNat (fun g => g.reg ra ≠ g.reg rb)) s

/-- BLT, unsigned. -/
def execBlt (ra rb : Fin 16) (off : BitVec 14) (s : State) : Host.Outcome State Fault Refusal :=
  onDev (fun d => d.branch n p e (encB 0x32 ra rb off.toNat) off.toNat (fun g => g.reg ra < g.reg rb)) s

/-- BGE, unsigned. -/
def execBge (ra rb : Fin 16) (off : BitVec 14) (s : State) : Host.Outcome State Fault Refusal :=
  onDev (fun d => d.branch n p e (encB 0x33 ra rb off.toNat) off.toNat (fun g => g.reg rb ≤ g.reg ra)) s

/-- BEQI. -/
def execBeqi (ra : Fin 16) (imm : BitVec 14) (off : Byte) (s : State) : Host.Outcome State Fault Refusal :=
  onDev (fun d => d.branch n p e (encBI 0x34 ra imm.toNat off.toNat) off.toNat (fun g => (g.reg ra).toNat = imm.toNat)) s

/-- BNEI. -/
def execBnei (ra : Fin 16) (imm : BitVec 14) (off : Byte) (s : State) : Host.Outcome State Fault Refusal :=
  onDev (fun d => d.branch n p e (encBI 0x35 ra imm.toNat off.toNat) off.toNat (fun g => (g.reg ra).toNat ≠ imm.toNat)) s

/-- BBS. -/
def execBbs (ra : Fin 16) (bit : BitVec 5) (off : Byte) (s : State) : Host.Outcome State Fault Refusal :=
  onDev (fun d => d.branch n p e (encBB 0x36 ra bit.toNat off.toNat) off.toNat (fun g => (g.reg ra).getLsbD bit.toNat)) s

/-- BBC. -/
def execBbc (ra : Fin 16) (bit : BitVec 5) (off : Byte) (s : State) : Host.Outcome State Fault Refusal :=
  onDev (fun d => d.branch n p e (encBB 0x37 ra bit.toNat off.toNat) off.toNat
    (fun g => !(g.reg ra).getLsbD bit.toNat)) s

/-- JMP. -/
def execJmp (off : BitVec 14) (s : State) : Host.Outcome State Fault Refusal :=
  onDev (fun d => d.branch n p e (0x38 * 2 ^ 26 + off.toNat) off.toNat (fun _ => true)) s

/-- JTAB: the next word is pc + 1 + min(ra, n). -/
def execJtab (ra : Fin 16) (top : Byte) (s : State) : Host.Outcome State Fault Refusal :=
  onDev (fun d => d.issue n p e (0x39 * 2 ^ 26 + ra * 2 ^ 22 + top.toNat * 2 ^ 14) 1
    (fun d g f => .go d { g with pc := g.pc + 1 + min (g.reg ra).toNat top.toNat } f)) s

/-- EXIT. -/
def execExit (s : State) : Host.Outcome State Fault Refusal :=
  onDev (fun d => d.issue n p e (0x3E * 2 ^ 26) 1 (fun _ _ _ => .stop)) s

end Sys2Proof.Machine
end

