-- ==== Sys2Proof/Machine/Bank.lean ====
section
/-! DEFINITION. What the OTP says of keys and rollback (R396), the tests of a bank (R39, R40), the order of banks (R41), the
checks of a storyboard (R31) and the factory storyboard (R42). -/

namespace Sys2Proof.Machine

/-! ### The OTP (Table 19-2) -/

/-- A slot whose record was begun and not completed (R396). -/
def KeySlot.broken (k : KeySlot) : Bool := k.begun && !k.marker

/-- Whether a slot counts as revoked. -/
def KeySlot.dead (k : KeySlot) : Bool := k.revoke ≠ 0 || k.broken

/-- A key slot of the OTP. -/
def Otp.slot (o : Otp) (j : Nat) : KeySlot := (o.slots[j]?).getD {}

/-- The value of the last complete record, 0 when none. -/
def lastValue (l : List OtpRec) : Nat := ((l.filter (·.marker)).getLast?.map (·.value)).getD 0

/-- The anti-rollback counter. -/
def Otp.rollback (o : Otp) : Nat := lastValue o.advances

/-- What a request's write leaves in the OTP: `how` is 0 for a write that never began, 1 for one cut short with some of its
bits written, 2 for a complete one.  Bits change only from 0 to 1 (R396, Table 19-2). -/
def Otp.written (o : Otp) (e : ScEffect) (how part : Nat) : Otp :=
  if how = 0 then o
  else
    let full : Bool := how = 2
    let some_ := fun v => if full then v else v &&& part
    match e with
    | .program k h =>
      let old := o.slot k
      let new : KeySlot := { old with content := old.content ||| some_ h, begun := true, marker := old.marker || full }
      { o with slots := o.slots.setIfInBounds k new }
    | .revoke k =>
      let old := o.slot k
      let new : KeySlot := { old with revoke := old.revoke ||| some_ 7 }
      { o with slots := o.slots.setIfInBounds k new }
    | .advance v => { o with advances := o.advances ++ [⟨some_ v, full, []⟩] }
    | .patch v c => { o with patches := o.patches ++ [⟨some_ v, full, c.map some_⟩] }
    | .nothing | .output _ | .challenge _ => o

/-- A 4-bit mask of the slots with a property. -/
def Otp.mask (o : Otp) (f : KeySlot → Bool) : Nat :=
  (List.range 4).foldl (fun a j => if f (o.slot j) then a + 2 ^ j else a) 0

/-- SHAKE256 of a 64-byte public key. -/
def keyHash (pubkey : Nat) : Nat := Config.shake256 (toBytes (leBytes 64 pubkey) |>.map (·.toNat))

/-- Whether a public key is the one whose hash a slot holds. -/
def Otp.holds (o : Otp) (j pubkey : Nat) : Bool := j < 4 && (o.slot j).marker && (o.slot j).content = keyHash pubkey

/-! ### The tests of Table 2-8 -/

/-- The header is that of an image: MAGIC and FORMAT. -/
def ImgHeader.isImage (h : ImgHeader) : Bool := h.magic = 0x42535856 && h.format = 1

/-- LENGTH, and the overlay lies within the body. -/
def ImgHeader.lengthOk (h : ImgHeader) : Bool :=
  1 ≤ h.length && h.length ≤ 25165824 && h.ovlOffset % 16 = 0 && h.ovlLength % 16 = 0 &&
    h.ovlOffset + h.ovlLength ≤ h.length

/-- P of R39: the body's length rounded up to a multiple of 256. -/
def ImgHeader.padded (h : ImgHeader) : Nat := (h.length + 255) / 256 * 256

/-- The length of a whole image: header, body, padding and signature (R39). -/
def ImgHeader.total (h : ImgHeader) : Nat := 256 + ImgHeader.padded h + 29792

/-- Bytes [a, a + n) of a list, with the bytes that erased flash reads beyond its end. -/
def sliceFF (b : List Byte) (a n : Nat) : List Byte :=
  (List.range n).map (fun k => (b[a + k]?).getD 0xFF)

/-- A little-endian field of n bytes at offset a. -/
def fieldLe (b : List Byte) (a n : Nat) : Nat := leNat (sliceFF b a n)

/-- The header that the first 256 bytes of an image spell (Table 2-7). -/
def headerOf (b : List Byte) : ImgHeader :=
  { magic := fieldLe b 0x000 4, format := fieldLe b 0x004 2, keyIndex := fieldLe b 0x006 1, flags := fieldLe b 0x007 1,
    sequence := fieldLe b 0x008 4, length := fieldLe b 0x00C 4, rollback := fieldLe b 0x010 8, ovlOffset := fieldLe b 0x018 4,
    ovlLength := fieldLe b 0x01C 4, digest := fieldLe b 0x020 64, pubkey := fieldLe b 0x060 64, reserved := fieldLe b 0x0A0 96 }

/-- The header of an image. -/
def imgHdr (i : Image) : ImgHeader := headerOf i.bytes

/-- The L body bytes of an image. -/
def imgBody (i : Image) : List Byte := sliceFF i.bytes 0x100 (imgHdr i).length

/-- The signature of an image, after its body and padding. -/
def imgSig (i : Image) : List Byte := sliceFF i.bytes (0x100 + ImgHeader.padded (imgHdr i)) 29792

/-- An entry of the overlay (Table 2-5). -/
def ovlOf (b : List Byte) : OvlEntry :=
  { addr := fieldLe b 0 4, mask := fieldLe b 4 4, value := fieldLe b 8 4, pad := fieldLe b 12 4 }

/-- The overlay that stands in a body at OVL_OFFSET, in the OVL_LENGTH bytes from there (R35, Table 2-7). -/
def overlayOf (h : ImgHeader) (body : List Byte) : List OvlEntry :=
  (List.range (h.ovlLength / 16)).map (fun k => ovlOf (sliceFF body (h.ovlOffset + 16 * k) 16))

/-- The storyboard of an image: the sections its body spells, and its overlay. -/
def boardOf (h : ImgHeader) (body : List Byte) : Storyboard := { Config.sections body with overlay := overlayOf h body }

/-- SHAKE256 of bytes. -/
def digestOf (b : List Byte) : Nat := Config.shake256 (b.map (·.toNat))

/-- The result code of a bank up to SIGNATURE: the first test that fails.  `read` is whether every read completed. -/
def bankResult (o : Otp) (read : Bool) (x : BankData) : Nat :=
  if !read then 2
  else
    match x.hdr with
    | none => 3
    | some h =>
      if h.magic ≠ 0x42535856 then 3
      else if h.format ≠ 1 ∨ h.flags ≠ 0 ∨ h.reserved ≠ 0 ∨ 3 < h.keyIndex then 4
      else if ImgHeader.lengthOk h = false then 5
      else if Otp.holds o h.keyIndex h.pubkey = false then 6
      else if (Otp.slot o h.keyIndex).dead then 7
      else if h.rollback < Otp.rollback o then 8
      else
        match x.body with
        | none => 9
        | some y =>
          if digestOf y.1 ≠ h.digest then 9
          else if Config.headerVerifies h y.2 = false then 10
          else 0

/-- A bank of the flash. -/
def Flash.bank (f : Flash) : Bank → BankData
  | .a => f.a
  | .b => f.b

/-- The flash with a bank replaced. -/
def Flash.setBank (f : Flash) (t : Bank) (x : BankData) : Flash :=
  match t with
  | .a => { f with a := x }
  | .b => { f with b := x }

/-- The other bank. -/
def Bank.other : Bank → Bank
  | .a => .b
  | .b => .a

/-- The number of a bank in registers and events. -/
def Bank.num : Bank → Nat
  | .a => 0
  | .b => 1

/-- The order in which the banks are tried, from the headers that could be read (R41). -/
def bankOrder (f : Flash) (readOk : List Bank) : List Bank :=
  let ok := fun x => readOk.contains x && (match (Flash.bank f x).hdr with | some h => ImgHeader.isImage h | none => false)
  let seq := fun x => ((Flash.bank f x).hdr.map (·.sequence)).getD 0
  if ok .a && ok .b then
    (if 0 ≤ toSigned 32 (seq .a + 2 ^ 32 - seq .b % 2 ^ 32) then [.a, .b] else [.b, .a])
  else if ok .b then [.b, .a]
  else [.a, .b]

/-! ### The checks of R31, section by section -/

/-- Section 3: 400G only as four slots from a multiple of 4, every port on an active die, FEC only for 25G (R49). -/
def slotsOk (sb : Storyboard) : Bool :=
  (List.range 128).all (fun s =>
    match sbSlot sb s with
    | .unused => true
    | .g10 | .g25 | .g100 => activeDie sb.active (s / 32)
    | .g400 => activeDie sb.active (s / 32) && s % 4 = 0 &&
        [1, 2, 3].all (fun k => sbSlot sb (s + k) = .part)
    | .part => s % 4 ≠ 0 && sbSlot sb (s / 4 * 4) = .g400) &&
  sb.slots.length ≤ 128 &&
  sb.fec.all (fun e => sbSlot sb e.1 = .g25 && e.2 ≤ 1)

/-- Section 4: a group of an active die. -/
def lrOk (sb : Storyboard) : Bool := sb.lr.all (fun g => g < 16 && activeDie sb.active (g / 4))

/-- The length a check class implies, if any (R93). -/
def impliedLen : CheckClass → Option HLen
  | .ipv4 => some (.field 4 4 4 0)
  | .tcp => some (.field 96 4 4 0)
  | .ipv6Ext => some (.field 8 8 8 8)
  | .ipv6 => some (.fixed 40)
  | .udp | .ipv6Frag => some (.fixed 8)
  | .none | .eth => none

/-- The least length a header of a type can have. -/
def HType.least (t : HType) : Nat := match t.len with | .fixed n => n | .field .. => t.min

/-- The limits of Table 5-1 on one header type.  DESIGN CHOICE (log 76): a type whose minimum lies above its maximum, or that
lists transitions and has no next field, fails too. -/
def htypeOk (g : List HType) (t : HType) : Bool :=
  t.num < 64 &&
  (match t.len with
   | .fixed n => 1 ≤ n && n ≤ 384
   | .field bit w scale _ => 1 ≤ w && w ≤ 16 && bit + w ≤ 512 && [1, 2, 4, 8].contains scale &&
       1 ≤ t.min && t.min ≤ t.max && t.max ≤ 384) &&
  (match t.next with | some (bit, w) => 1 ≤ w && w ≤ 32 && bit + w ≤ 8 * HType.least t | none => t.trans.isEmpty) &&
  t.trans.length ≤ 16 && t.trans.all (fun x => g.any (fun y => y.num = x.next)) &&
  t.user.length ≤ 4 && t.extracts.length ≤ 16 && t.extracts.all (fun x => 1 ≤ x.2 && x.2 ≤ 128) &&
  (match impliedLen t.check with | some l => t.len = l | none => true)

/-- Section 5: the graph (R90). -/
def graphOk (g : List HType) : Bool :=
  g.length ≤ 64 && g.all (htypeOk g) && g.all (fun t => (g.filter (fun u => u.num = t.num)).length = 1) &&
  (g.map (·.trans.length)).sum ≤ 1024 && (g.map (·.user.length)).sum ≤ 64

/-- The rate of a port under a storyboard in Gb/s. -/
def sbRate (sb : Storyboard) (p : Nat) : Nat :=
  match sbSlot sb p with | .g10 => 10 | .g25 => 25 | .g100 => 100 | .g400 => 400 | .unused | .part => 0

/-- Section 8: at most 8 line ports of a die, together at most 800 Gb/s (R119), and its window. -/
def inspectOk (sb : Storyboard) : Bool :=
  sb.inspect.all (fun p => p < 128 && sbPortExists sb p) &&
  (List.range 4).all (fun n =>
    let mine := (sb.inspect.filter (fun p => p / 32 = n)).eraseDups
    mine.length ≤ 8 && (mine.map (sbRate sb)).sum ≤ 800) &&
  sb.window.all (fun w => [64, 128, 256].contains w)

/-- The index in Table 2-1 of the first section that fails, 0 when none does. -/
def sbCheck (sb : Storyboard) : Nat :=
  if 2 < sb.profile then 1
  else if [1, 2, 4].contains sb.active = false then 2
  else if slotsOk sb = false then 3
  else if lrOk sb = false then 4
  else if graphOk sb.graph = false then 5
  else if sb.programs.all (fun p => p.die < 4) = false ∨
      (List.range 4).all (fun n => progsOk (sb.programs.filter (fun p => p.die = n))) = false then 6
  else if sb.budget.all (fun b => [16, 32, 64].contains b) = false then 7
  else if inspectOk sb = false then 8
  else if sb.rates.all (fun r => [1500, 1250, 1000].contains r) = false then 9
  else if sb.idle.all (fun l => l.1 ≠ l.2 && activeDie sb.active l.1 && activeDie sb.active l.2) = false then 10
  else if 65536 < sb.overlay.length then 11
  else 0

/-! ### The factory storyboard (R42) -/

/-- The transitions of Ethernet and of VLAN tags. -/
def factoryEth : List Transition :=
  [⟨0x8100, 0xFFFF, 1⟩, ⟨0x88A8, 0xFFFF, 1⟩, ⟨0x0800, 0xFFFF, 2⟩, ⟨0x86DD, 0xFFFF, 3⟩]

/-- The transitions of IPv4 and IPv6. -/
def factoryIp : List Transition := [⟨17, 0xFF, 4⟩, ⟨6, 0xFF, 5⟩]

/-- Its parser graph: Ethernet, VLAN tags, IPv4, IPv6, UDP and TCP as types 0 to 5.  The numbers are the
model's (DESIGN CHOICE, log 69), and what each type holds beyond its protocol is that of the protocol's standard (PRESUMED,
log 77). -/
def factoryGraph : List HType :=
  [{ num := 0, len := .fixed 14, check := .eth, next := some (96, 16), trans := factoryEth },
   { num := 1, len := .fixed 4, check := .eth, next := some (16, 16), trans := factoryEth },
   { num := 2, len := .field 4 4 4 0, min := 20, max := 60, check := .ipv4, next := some (72, 8), trans := factoryIp },
   { num := 3, len := .fixed 40, check := .ipv6, next := some (48, 8), trans := factoryIp },
   { num := 4, len := .fixed 8, check := .udp },
   { num := 5, len := .field 96 4 4 0, min := 20, max := 60, check := .tcp }]

/-- The factory storyboard: every lane slot of the four active dies a 100G port, every group FR, no program, no overlay, and
the Default values of Table 1-7. -/
def factoryBoard : Storyboard := { slots := List.replicate 128 .g100, graph := factoryGraph }

end Sys2Proof.Machine
end

