-- ==== Sys2Proof/Machine/Addr.lean ====
section
/-! DEFINITION. How a BAR0 offset names a register and a selector a wide value (R339, R344, R418). -/

namespace Sys2Proof.Machine

/-- Whether a window holds registers of a kind (Table 16-2). -/
def WinKind.has : WinKind → Nat → Bool
  | .cd, w => w = 0
  | .pd, w => 1 ≤ w && w ≤ 4
  | .oe, w => w = 5 || w = 6
  | .pw, w => w = 7
  | .all, w => w ≤ 7

/-- The indices of an offset in an array of addresses. -/
def Layout.find (l : Layout) (off : Nat) : Option (Nat × Nat) :=
  (List.range l.nJ).findSome? (fun j =>
    let b := l.base + l.sJ * j
    if off < b then none
    else if l.sI = 0 then (if off = b then some (0, j + l.j0) else none)
    else if (off - b) % l.sI = 0 ∧ (off - b) / l.sI < l.nI then some ((off - b) / l.sI, j + l.j0) else none)

/-- The indices of an offset of a window in the arrays of a register or wide value. -/
def findIn (ls : List Layout) (w off : Nat) : Option (Nat × Nat) :=
  ls.findSome? (fun l => if l.win.has w then l.find off else none)

/-- The register at an offset of a window, with its indices. -/
def regAt (w off : Nat) : Option (Reg × Nat × Nat) :=
  Reg.all.findSome? (fun r => (findIn r.layouts w off).map (fun x => (r, x.1, x.2)))

/-- The wide value of a selector of a window, with its indices. -/
def wideAt (w sel : Nat) : Option (Wide × Nat × Nat) :=
  Wide.all.findSome? (fun x => (findIn x.layouts w sel).map (fun k => (x, k.1, k.2)))

/-- The offset of a register in its window. -/
def regOffset (r : Reg) (w i j : Nat) : Nat :=
  (r.layouts.findSome? (fun l => if l.win.has w ∧ l.j0 ≤ j ∧ j < l.j0 + l.nJ ∧ i < l.nI then
    some (l.base + l.sI * i + l.sJ * (j - l.j0)) else none)).getD 0

/-- Whether the rail of what a window shows is on (R33, Table 16-2). -/
def Dev.winPowered (d : Dev) (w : Nat) : Bool :=
  if 1 ≤ w ∧ w ≤ 4 then d.railOn (w - 1) else if w = 5 ∨ w = 6 then d.railOn (w - 1) else true

/-- Whether a register is one of an array that every port has (R418). -/
def Reg.perPort : Reg → Bool
  | .ptPortCtl | .ptPortStatus | .ptMacCtl | .ptPfcCtl | .ptMacThresh | .ptPfcStatus | .psPortCtl | .psPortStatus
  | .clPortCtl | .fwPortCtl | .fwPrpCtl | .swPortCtl | .swHoldLo | .swHoldHi | .swPortStatus
  | .egClassMap | .egSched | .egWeight | .egCbs | .egMaxrate | .egGateCtl | .egGateStatus | .poStorm | .poStormTypes
  | .tmPortPtp | .obBwCtl => true
  | _ => false

/-- The port that index s of a per-port array of PDn stands for, if any. -/
def portOfIdx (n s : Nat) : Option Nat := if s < 32 then some (32 * n + s) else if n = 0 ∧ s ≤ 36 then some (96 + s) else none

/-- Whether index s of a per-port array of PDn belongs to a port that exists. -/
def Dev.idxExists (d : Dev) (n s : Nat) : Bool :=
  match portOfIdx n s with | some p => d.portExists p | none => false

/-- Whether a register belongs to a port that does not exist, so that it reads 0 and ignores writes (R418). -/
def Dev.ghost (d : Dev) (r : Reg) (w i : Nat) : Bool := r.perPort && !d.idxExists (w - 1) i

end Sys2Proof.Machine
end

