-- ==== Sys2Proof/Machine/Bus.lean ====
section
/-! DEFINITION. Host accesses (R320, R338), bus errors and their log (R348, R349), and the store of a register's fields that
the overlay and the aliases share (R36, R341). -/

namespace Sys2Proof.Machine

/-! ### Accesses by the host -/

/-- Whether the host's accesses reach BAR0: the device is out of reset, its configuration space is ready and the function is
in D0 (R319, R320, R338). -/
def Dev.hostUp (d : Dev) : Bool := d.boot.run && d.sup.perstN && d.sup.cfgReady && !d.sup.d3hot

/-- A command that is an access by the host: without a link it reaches nothing. -/
def onHost (f : Dev → Dev) (s : State) : Host.Outcome State Fault Refusal :=
  onDev (fun d => if d.hostUp then f d else d) s

/-! ### Bus errors -/

/-- The BAR0 offset of an alias, a window and an offset in it (R339). -/
def barOffset (alias_ w off : Nat) : Nat := alias_ * 2 ^ 26 + w * 2 ^ 22 + off

/-- A write that meets a bus error is discarded and entered in the register error log (R348, R349). -/
def Dev.logError (d : Dev) (type offset data source index : Nat) : Dev :=
  if d.errlog.length < 16 then
    let e : ErrEntry := { offset := offset, type := type, data := data, source := source, index := index,
                          time := d.now 4 % 2 ^ 48 }
    ({ d with errlog := d.errlog ++ [e] }.raiseOnce 6 0x0D02 0 [(4, type), (28, offset), (8, source)]).irq 0
  else
    let d1 := (d.setCd .hiErrlogStatus_overflowSticky 1).bump .hiErrDropped 0 0 0 1
    (d1.raiseOnce 6 0x0D03 0 [(32, d1.wide .hiErrDropped 0 % 2 ^ 32)]).irq 0

/-- A write by the host of a register of window w, which acts when the window is powered (R33). -/
def Dev.regWrite (d : Dev) (w off data : Nat) (f : Dev → Dev) : Dev :=
  if d.winPowered w then f d else d.logError 2 (barOffset 0 w off) data 0 0

/-- A command that is a write by the host of the register r, whose operands make up the word written. -/
def onReg (w : Nat) (r : Reg) (i j data : Nat) (f : Dev → Dev) (s : State) : Host.Outcome State Fault Refusal :=
  onHost (fun d => d.regWrite w (regOffset r w i j) data f) s

/-- A register leaves its safe state when it is written in the normal alias (R351). -/
def Dev.leaveSafe (d : Dev) (r : Reg) (w i j : Nat) : Dev :=
  if d.inSafe r w i j then
    ({ d with safe := d.safe.filter (fun k => !decide (k = (⟨r, w, i, j⟩ : RKey))) }).raise 6 0x0D04 [(4, w), (22, regOffset r w i j)]
  else d

/-- A command that is a write by the host of the whole register r in the normal alias. -/
def onWord (w : Nat) (r : Reg) (i j data : Nat) (f : Dev → Dev) (s : State) : Host.Outcome State Fault Refusal :=
  onReg w r i j data (fun d => f (d.leaveSafe r w i j)) s

/-! ### Fields of a register as bits -/

/-- The bits of a register that a field occupies. -/
def FInfo.mask (f : FInfo) : Nat := (2 ^ (f.hi + 1 - f.lo) - 1) * 2 ^ f.lo

/-- A value of a field with the bits of a mask replaced. -/
def mergeBits (old mask v : Nat) : Nat := old - (old &&& mask) + (v &&& mask)

/-- The bits of a register that belong to fields with a property. -/
def Reg.bitsOf (r : Reg) (p : Fld → Bool) : Nat := (r.flds.filter p).foldl (fun a f => a ||| f.info.mask) 0

/-- The word that the stored fields of a register make up. -/
def Dev.rawWord (d : Dev) (r : Reg) (w i j : Nat) : Nat :=
  r.flds.foldl (fun a f => a + d.fld f w i j % 2 ^ (f.info.hi + 1 - f.info.lo) * 2 ^ f.info.lo) 0

end Sys2Proof.Machine
end

