-- ==== Sys2Proof/Machine/LaneRegs.lean ====
section
/-! DEFINITION. The test registers of a lane and its checker's counters (R287–R290, Tables 13-2, 13-5, 13-6). -/

namespace Sys2Proof.Machine

/-- The window and array indices of a lane's test registers and wide values. -/
def LaneId.place : LaneId → Nat × Nat × Nat
  | .line s => (s / 32 + 1, s % 32, 0)
  | .fabric a b k => (a + 1, k, b + 1)
  | .cont k => (0, k, 0)

/-- A field of a lane's test registers. -/
def Dev.lnFld (d : Dev) (l : LaneId) (f : Fld) : Nat := d.fld f (LaneId.place l).1 (LaneId.place l).2.1 (LaneId.place l).2.2

/-- The device with a field of a lane's test registers replaced. -/
def Dev.lnSet (d : Dev) (l : LaneId) (f : Fld) (v : Nat) : Dev :=
  d.setFld f (LaneId.place l).1 (LaneId.place l).2.1 (LaneId.place l).2.2 v

/-- A counter of a lane's checker advanced. -/
def Dev.lnBump (d : Dev) (l : LaneId) (x : Wide) (n : Nat) : Dev :=
  d.bump x (LaneId.place l).1 (LaneId.place l).2.1 (LaneId.place l).2.2 n

/-- KIND and index of event 0x010C. -/
def LaneId.report : LaneId → Nat × Nat
  | .line s => (0, s % 32)
  | .fabric _ b k => (1, 48 * b + k)
  | .cont k => (2, k)

/-- The die that reports a lane. -/
def LaneId.home : LaneId → Nat
  | .line s => s / 32
  | .fabric a _ _ => a
  | .cont _ => 6

/-- The other end of a fabric lane. -/
def LaneId.far : LaneId → Option LaneId
  | .fabric a b k => some (.fabric b a k)
  | _ => none

/-- The lane whose test a lane's checker serves: its own, or that of the other end of a fabric lane without loopback, where each
die checks what it receives (R288). -/
def Dev.lnTestOf (d : Dev) (l : LaneId) : Option LaneId :=
  if d.lnFld l .lnTestStatus_state = 2 then some l
  else match LaneId.far l with
    | some m => if d.lnFld m .lnTestStatus_state = 2 ∧ d.lnFld m .lnTestCtl_loopback = 0 then some m else none
    | none => none

/-- What a checker has counted is added to its lane's counters: bit errors of the raw patterns, invalid headers and block errors
of IDLE (R287). -/
def Dev.lnCount (d : Dev) (l : LaneId) (c : Checked) : Dev :=
  match d.lnTestOf l with
  | some t =>
    let d1 := d.lnBump l .lnBits c.bits.toNat
    if d.lnFld t .lnTestCtl_source = 5 then d1.lnBump l .lnSyncErrors c.syncs.toNat else d1.lnBump l .lnBitErrors c.errors.toNat
  | none => d

/-- What the checkers of a test have counted: the lane's own, and that of its other end where that checks too. -/
def Dev.lnCounts (d : Dev) (l : LaneId) (near far : Checked) : Dev :=
  match LaneId.far l with
  | some m => if d.lnFld l .lnTestCtl_loopback = 0 then (d.lnCount m far).lnCount l near else d.lnCount l near
  | none => d.lnCount l near

/-- The counts of the checkers of a test that something else than the test ends; what they received is outside the device, so
that each is a free value. -/
def Dev.lnUnseen (d : Dev) (l : LaneId) : Dev :=
  let n := d.net.draws
  ({ d with net := { d.net with draws := n + 2 } } : Dev).lnCounts l (Config.checked n) (Config.checked (n + 1))

/-- A test ends with a code and event 0x010C (R290). -/
def Dev.lnEnd (d : Dev) (l : LaneId) (code : Nat) : Dev :=
  ((d.lnSet l .lnTestStatus_state 4).lnSet l .lnTestStatus_code code).raise (LaneId.home l) 0x010C
    [(2, (LaneId.report l).1), (16, (LaneId.report l).2), (4, code),
     (32, d.wide .lnBitErrors (LaneId.place l).1 (LaneId.place l).2.1 (LaneId.place l).2.2 % 2 ^ 32)]

/-- A test that is draining, running or readmitting ends with a code. -/
def Dev.lnCut (d : Dev) (l : LaneId) (code : Nat) : Dev :=
  let st := d.lnFld l .lnTestStatus_state
  if st = 2 then (d.lnUnseen l).lnEnd l code else if st = 1 ∨ st = 3 then d.lnEnd l code else d

/-- A line or continuity lane has trained: its baseline is the margin of the next comparison (R284; DESIGN CHOICE, log 99). -/
def Dev.lnTrained (d : Dev) (key : Nat) : Dev := { d with fab := { d.fab with lineStrikes := adel d.fab.lineStrikes key } }

end Sys2Proof.Machine
end

