-- ==== Sys2Proof/Machine/Forward.lean ====
section
/-! DEFINITION. Forwarding, learning and redundancy tables: the address table (R168–R170, R178, R183), VLANs (R185),
learning (R174–R177, R179), ageing and flushes (R180–R182), PRP and HSR duplicates (R188–R191). -/

namespace Sys2Proof.Machine

/-! ### The address table -/

/-- The buckets of a die's address table by the memory profile (R169). -/
def nBuckets (profile : Nat) : Nat := if profile = 1 then 262144 else if profile = 2 then 1310720 else 524288

/-- The key of a filtering ID and an address. -/
def fwKey (fid mac : Nat) : Nat := fid * 2 ^ 48 + mac

/-- The two buckets of a key (R169). -/
def bucketsOf (nb key : Nat) : Nat × Nat :=
  let k := beBytes 8 key
  let b0 := crc32c k * nb / 2 ^ 32
  let b1 := crc32 k * nb / 2 ^ 32
  (b0, if b1 = b0 then (b0 + 1) % nb else b1)

/-- The slots of a key, those of its first bucket before those of its second. -/
def slotsOf (nb key : Nat) : List Nat :=
  let b := bucketsOf nb key
  (List.range 4).map (fun w => 4 * b.1 + w) ++ (List.range 4).map (fun w => 4 * b.2 + w)

/-- The forwarding tables of PDn. -/
def Dev.fwOf (d : Dev) (n : Nat) : Fw := (d.fw[n]?).getD {}

/-- The device with the forwarding tables of PDn replaced. -/
def Dev.setFw (d : Dev) (n : Nat) (x : Fw) : Dev := if h : n < 4 then { d with fw := d.fw.set n x } else d

/-- The key of an entry. -/
def AddrEnt.key (e : AddrEnt) : Nat := fwKey e.fid e.mac

/-- Whether an entry's word has bad parity. -/
def Dev.badEnt (d : Dev) (n i : Nat) : Bool := d.net.bad.contains (.addr n i)

/-- The entries of a key whose parity is good. -/
def Dev.entsOf (d : Dev) (n key : Nat) : List (Nat × AddrEnt) :=
  (d.fwOf n).table.filter (fun e => e.2.key = key && !d.badEnt n e.1)

/-- The entry a lookup finds: a static one that applies under the take before a learned one (R170). -/
def Dev.lookupEnt (d : Dev) (n key t : Nat) : Option (Nat × AddrEnt) :=
  let l := (d.entsOf n key).filter (fun e => !e.2.static || e.2.v.applies t)
  match l.find? (fun e => e.2.static) with
  | some e => some e
  | none => l.head?

/-- The alarm of a word of a forwarding table found bad, once per word (R183). -/
def Dev.tableAlarm (d : Dev) (b : BadWord) : Dev :=
  if d.net.alarmed.contains b then d
  else
    let go := fun (n tbl i : Nat) =>
      ((({ d with net := { d.net with alarmed := b :: d.net.alarmed } } : Dev).bump .fwParity (n + 1) 0 0 1).setPd
        .fwStatus_paritySticky n 1).raise n 0x0603 [(2, tbl), (23, i)]
    match b with
    | .addr n i => go n 0 i
    | .vlan n v => go n 1 v
    | .dup n i => go n 2 i
    | .stream n i => go n 3 i
    | _ => d

/-- The bad words a lookup of a key reads are counted and reported (R183). -/
def Dev.lookupParity (d : Dev) (n key : Nat) : Dev :=
  (slotsOf (nBuckets d.boot.sb.profile) key).foldl (fun d i => if d.badEnt n i then d.tableAlarm (.addr n i) else d) d

/-- The word of a VLAN that a frame reads is reported when it is bad (R183). -/
def Dev.vlanParity (d : Dev) (n vid : Nat) : Dev :=
  if d.net.bad.contains (.vlan n vid) then d.tableAlarm (.vlan n vid) else d

/-- The entry at an index, as its lists hold it. -/
def Dev.entAt (d : Dev) (n i : Nat) : Option AddrEnt := aget (d.fwOf n).table i

/-- The device with an entry written, which also makes its word's parity good. -/
def Dev.putEnt (d : Dev) (n i : Nat) (e : AddrEnt) : Dev :=
  d.setFw n { d.fwOf n with table := aset (d.fwOf n).table i e }

/-- The device with an entry cleared and its word's parity good. -/
def Dev.delEnt (d : Dev) (n i : Nat) : Dev :=
  let d1 := d.setFw n { d.fwOf n with table := adel (d.fwOf n).table i }
  { d1 with net := { d1.net with bad := d1.net.bad.filter (· ≠ .addr n i),
                                 alarmed := d1.net.alarmed.filter (· ≠ .addr n i) } }

/-- The fill of a table in percent, rounded down. -/
def Dev.fillPct (d : Dev) (n : Nat) : Nat := (d.fwOf n).table.length * 100 / (4 * nBuckets d.boot.sb.profile)

/-- The test of FILL_THRESH: the event is armed again once the fill has fallen 5 points below it. -/
def Dev.fillTest (d : Dev) (n : Nat) : Dev :=
  let t := d.cfg .fwCtl_fillThresh (n + 1)
  let x := d.fwOf n
  if t = 0 then d
  else if x.armed ∧ t ≤ d.fillPct n then
    ((d.setFw n { x with armed := false }).setPd .fwStatus_fillSticky n 1).raise n 0x0602 [(7, d.fillPct n)]
  else if x.armed = false ∧ d.fillPct n + 5 ≤ t then d.setFw n { x with armed := true }
  else d

/-! ### Relocation (R178, R251) -/

/-- Whether a slot is free: nothing lies in it, its word is not bad, and no static entry awaits it. -/
def Dev.freeSlot (d : Dev) (n i : Nat) : Bool :=
  (d.entAt n i).isNone && !d.badEnt n i && !d.plc.evicts.any (fun e => e.1 = n && e.2.1 = i)

/-- The slots of the other bucket of the entry in a slot. -/
def Dev.otherSlots (d : Dev) (n nb i : Nat) : List Nat :=
  match d.entAt n i with
  | some e => (slotsOf nb e.key).filter (fun j => j / 4 ≠ i / 4)
  | none => []

/-- A breadth-first search for a path of moves: each element of the queue is a path of slots, its last slot first.  The
path found ends in a free slot; `ok` says which entries may move, `most` how many may. -/
def Dev.findPath (d : Dev) (n nb most : Nat) (ok : AddrEnt → Bool) : Nat → List (List Nat) → List Nat → Option (List Nat)
  | 0, _, _ => none
  | _, [], _ => none
  | fuel + 1, path :: queue, seen =>
    match path with
    | [] => d.findPath n nb most ok fuel queue seen
    | i :: _ =>
      if most < path.length then d.findPath n nb most ok fuel queue seen
      else
        match d.entAt n i with
        | some e =>
          if ok e && !d.badEnt n i then
            let next := d.otherSlots n nb i
            match next.find? (d.freeSlot n) with
            | some j => some (j :: path)
            | none =>
              let new := next.filter (fun j => !seen.contains j)
              d.findPath n nb most ok fuel (queue ++ new.map (fun j => j :: path)) (seen ++ new)
          else d.findPath n nb most ok fuel queue seen
        | none => d.findPath n nb most ok fuel queue seen

/-- The sweeper's visit of an entry (R180): the entry it leaves, or none when it removes it. -/
def visitEnt (e : AddrEnt) : Option AddrEnt :=
  if e.static then some e
  else if e.hit then some { e with hit := false }
  else if !e.strike then some { e with strike := true }
  else none

/-- A learned entry moves from one slot to another; a move past the sweeper applies the pass's visit (R180). -/
def Dev.moveEnt (d : Dev) (n src dst : Nat) : Dev :=
  match d.entAt n src with
  | none => d
  | some e =>
    let at_ := (d.fwOf n).sweepAt
    let e1 := if at_ ≤ src ∧ dst < at_ then visitEnt e else some e
    match e1 with
    | some x => (d.putEnt n dst x).delEnt n src
    | none => (d.delEnt n src).bump .fwAged (n + 1) 0 0 1

/-- A path of moves carried out from its far end: its head is the free slot, its last the slot that becomes free. -/
def Dev.carryOut (d : Dev) (n : Nat) : List Nat → Dev
  | j :: i :: rest => (d.moveEnt n i j).carryOut n (i :: rest)
  | _ => d

/-- Where a new entry goes: a free way of its buckets, or the end of a path of at most `most` moves. -/
def Dev.placeFor (d : Dev) (n key most : Nat) (ok : AddrEnt → Bool) : Option (Nat × List Nat) :=
  let nb := nBuckets d.boot.sb.profile
  let ss := slotsOf nb key
  match ss.find? (d.freeSlot n) with
  | some i => some (i, [])
  | none =>
    match d.findPath n nb most ok ((d.fwOf n).table.length + 16) (ss.map (fun i => [i])) ss with
    | some path => some (path.getLast?.getD 0, path)
    | none => none

/-! ### VLANs (R185) -/

/-- A VLAN entry of a die. -/
structure Vlan where
  valid : Bool
  fid : Nat
  member : Nat
  untag : Nat
  floodUc : Bool
  floodMc : Bool
  learn : Bool

/-- The VLAN entry of a VID; one with bad parity is not VALID (R183). -/
def Dev.vlan (d : Dev) (n vid : Nat) : Vlan :=
  let c := d.wide .fwVlanCtl (n + 1) vid
  { valid := bitAt c 27 = 1 && !d.net.bad.contains (.vlan n vid), fid := bits c 13 0,
    member := d.wide .fwVlanMember (n + 1) vid + bits c 18 14 * 2 ^ 128,
    untag := d.wide .fwVlanUntag (n + 1) vid + bits c 23 19 * 2 ^ 128,
    floodUc := bitAt c 24 = 1, floodMc := bitAt c 25 = 1, learn := bitAt c 26 = 1 }

/-- Whether a frame passes the VLAN ingress check of R171. -/
def Dev.vlanPass (d : Dev) (f : Frame) : Bool :=
  let v := d.vlan f.die f.work.vid
  v.valid && (d.cfg .fwPortCtl_ingressFilter (f.die + 1) (idxOf f.port) = 0 || bitAt v.member f.port = 1)

/-! ### Learning -/

/-- The static entries and versions of a die, those that await their place among them. -/
def Dev.statics (d : Dev) (n : Nat) : List AddrEnt :=
  ((d.fwOf n).table.filter (fun e => e.2.static)).map (·.2) ++ (d.plc.evicts.filter (fun e => e.1 = n)).map (·.2.2)

/-- Whether a key has a static version in any state (R175). -/
def Dev.hasStatic (d : Dev) (n key : Nat) : Bool := (d.statics n).any (fun e => e.key = key)

/-- The learned entry of a key with good parity. -/
def Dev.learnedEnt (d : Dev) (n key : Nat) : Option (Nat × AddrEnt) :=
  (d.entsOf n key).find? (fun e => !e.2.static)

/-- The port of an entry. -/
def AddrEnt.port (e : AddrEnt) : Nat := match e.dest with | .port p => p | _ => 0

/-- An entry is hit: HIT set, STRIKE cleared (R179). -/
def Dev.hitEnt (d : Dev) (n i : Nat) (e : AddrEnt) : Dev :=
  d.putEnt n i { e with hit := true, strike := false }

/-- A request enters a die's learn queue of 4,096; one for a key already queued replaces it (R176). -/
def Dev.enqueue (d : Dev) (n : Nat) (r : LearnReq) : Dev :=
  let x := d.fwOf n
  let same := fun q : LearnReq => decide (q.mac = r.mac ∧ q.fid = r.fid)
  if x.queue.any same then d.setFw n { x with queue := x.queue.map (fun q => if same q then r else q) }
  else if 4096 ≤ x.queue.length then d.bump .fwLearnDrop (n + 1) 0 0 1
  else d.setFw n { x with queue := x.queue ++ [r] }

/-- The ingress-learned entries of a die toward a port (R177). -/
def Dev.learnCount (d : Dev) (n p : Nat) : Nat :=
  ((d.fwOf n).table.filter (fun e => !e.2.static && !e.2.egressLearned && e.2.port = p)).length

/-- A learn by Table 8-3: a refresh at once, a new entry or a move through the queue. -/
def Dev.learn (d : Dev) (n : Nat) (r : LearnReq) : Dev :=
  let key := fwKey r.fid r.mac
  if d.hasStatic n key then d
  else
    match d.learnedEnt n key with
    | some (i, e) =>
      if e.port = r.port then d.hitEnt n i e
      else if e.sticky then d
      else d.enqueue n r
    | none => d.enqueue n r

/-- Whether a frame may teach die n at all (R175); the VLAN entry of its ingress die rules learning (R185). -/
def Dev.mayLearn (d : Dev) (n : Nat) (f : Frame) : Bool :=
  !f.work.noLearn && d.cfg .fwCtl_learnEn (n + 1) = 1 && d.cfg .fwPortCtl_learnEn (dieOf f.port + 1) (idxOf f.port) = 1 &&
    (d.vlan f.die f.work.vid).learn

/-- The source address of a frame as received. -/
def Frame.source (f : Frame) : Nat := beNat ((f.bytes.drop 6).take 6)

/-- The destination address as the program left it (R152). -/
def Frame.dest (f : Frame) : Nat := beNat (f.work.win.take 6)

/-- Whether a frame is discarded before its destination is looked up: a policer found it red, or its program left DROP. -/
def Frame.dropped (f : Frame) : Bool := f.dropRed.isSome || f.work.dir = .drop

/-- The source lookup (R176, R177): the frame with whether it may be learned, and whether a violation discards it.  A frame
that the lookup will discard under FW_VLAN_INGRESS_DROP teaches nothing (R175). -/
def Dev.sourceLookup (d0 : Dev) (f : Frame) : Dev × Frame × Bool :=
  let n := f.die
  let fid := (d0.vlan n f.work.vid).fid
  let key := fwKey fid f.source
  let s := idxOf f.port
  let pass := d0.vlanPass f
  let d := (d0.vlanParity n f.work.vid).lookupParity n key
  if pass = false ∧ f.work.dir = .lookup ∧ f.dropRed = none then
    (d0.vlanParity n f.work.vid, { f with learnOk := false }, false)
  else if isGroup f.source then
    (if pass then d.bump .fwSrcMcast (n + 1) 0 0 1 else d, { f with learnOk := false, fid := some fid }, false)
  else if !d.mayLearn n f || d.hasStatic n key then
    (d, { f with learnOk := false, fid := some fid }, false)
  else
    match d.learnedEnt n key with
    | some (_, e) =>
      if e.sticky ∧ e.port ≠ f.port then
        let d1 := (d.bump .fwConflict (n + 1) 0 0 1).raiseOnce n 0x0605 0 [(14, fid), (48, f.source), (8, e.port), (8, f.port)]
        (d1, { f with learnOk := false, fid := some fid }, d.cfg .fwPortCtl_violation (n + 1) s = 1)
      else (d, { f with learnOk := true, fid := some fid }, false)
    | none =>
      let lim := d.cfg .fwPortCtl_learnLimit (n + 1) s
      if lim ≠ 0 ∧ lim ≤ d.learnCount n f.port then
        let d1 := (d.bump .fwLearnLimitHit (n + 1) 0 0 1).raiseOnce n 0x0606 s [(8, f.port)]
        (d1, { f with learnOk := false, fid := some fid }, d.cfg .fwPortCtl_violation (n + 1) s = 1)
      else (d, { f with learnOk := true, fid := some fid }, false)

/-- The ingress learn, made once the frame is accepted and its source lookup done (R176). -/
def Dev.ingressLearn (d : Dev) (id : Nat) : Dev :=
  match d.frame? id with
  | some f =>
    if f.whole ∧ f.learnOk ∧ f.learnDone = false ∧ f.parse.malformed = false then
      let d1 := d.setFrame { f with learnDone := true }
      d1.learn f.die { mac := f.source, fid := f.fid.getD 0, port := f.port, egress := false,
                       sticky := d.cfg .fwPortCtl_sticky (f.die + 1) (idxOf f.port) = 1 }
    else d
  | none => d

/-- LEARN_QUEUE_APPLY: the request at the front of a die's learn queue is written (R176, R178). -/
def Dev.applyLearn (d : Dev) (n : Nat) : Dev :=
  match (d.fwOf n).queue with
  | [] => d
  | r :: rest =>
    let d0 := (d.setFw n { d.fwOf n with queue := rest }).pmc n 0x0C none none none 1
    let key := fwKey r.fid r.mac
    let new : AddrEnt := { mac := r.mac, fid := r.fid, dest := .port r.port, hit := true, sticky := r.sticky,
                           egressLearned := r.egress }
    if d0.hasStatic n key then d0
    else
      match d0.learnedEnt n key with
      | some (i, e) =>
        if e.port = r.port then d0.hitEnt n i e
        else if e.sticky then d0
        else
          ((d0.putEnt n i { new with strike := false }).bump .fwMove (n + 1) 0 0 1).raiseOnce n 0x0604 0
            [(14, r.fid), (48, r.mac), (8, e.port), (8, r.port)]
      | none =>
        match d0.placeFor n key 4 (fun e => !e.static) with
        | some (i, path) => (((d0.carryOut n path).putEnt n i new).bump .fwLearnCount (n + 1) 0 0 1).fillTest n
        | none =>
          ((d0.bump .fwLearnFail (n + 1) 0 0 1).setPd .fwStatus_learnFailSticky n 1).raiseOnce n 0x0601 0
            [(14, r.fid), (48, r.mac)]

/-- The sweeper's visit of an index (R180, R181, R183). -/
def Dev.sweep (d : Dev) (n i : Nat) : Dev :=
  let d0 := d.setFw n { d.fwOf n with sweepAt := (i + 1) % (4 * nBuckets d.boot.sb.profile) }
  match d0.entAt n i with
  | none => if d0.badEnt n i then d0.delEnt n i else d0
  | some e =>
    if e.static then d0
    else if d0.badEnt n i then (d0.delEnt n i).fillTest n
    else
      match visitEnt e with
      | some x => d0.putEnt n i x
      | none => ((d0.delEnt n i).bump .fwAged (n + 1) 0 0 1).fillTest n

/-! ### Flushes (R182) -/

/-- The learned entries of a die that a flush removes, by port and FID where given. -/
def flushHits (port fid : Option Nat) (e : AddrEnt) : Bool :=
  !e.static && (match port with | some p => e.port = p | none => true) && (match fid with | some x => e.fid = x | none => true)

/-- A die's learned entries flushed, with their count. -/
def Dev.flush (d : Dev) (n : Nat) (port fid : Option Nat) : Dev × Nat :=
  let t := (d.fwOf n).table
  let keep := t.filter (fun e => !flushHits port fid e.2)
  ((d.setFw n { d.fwOf n with table := keep }).fillTest n, t.length - keep.length)

/-- A die's flush for a port that went down, with its event (R182). -/
def Dev.flushPort (d : Dev) (n p : Nat) : Dev :=
  let r := d.flush n (some p) none
  r.1.raise n 0x0607 [(8, p), (14, 0x3FFF), (23, r.2)]

/-- A port with FLUSH_ON_DOWN went down: its own die flushes, and every other active die is to be told (R182). -/
def Dev.flushOnDown (d : Dev) (p : Nat) : Dev :=
  if d.cfg .fwPortCtl_flushOnDown (dieOf p + 1) (idxOf p) = 1 then
    (d.dies.filter (· ≠ dieOf p)).foldl (fun (d : Dev) n =>
      d.setFw n { d.fwOf n with notices := (d.fwOf n).notices ++ [p] }) (d.flushPort (dieOf p) p)
  else d

/-- A die is told that a port of another die went down. -/
def Dev.flushNotice (d : Dev) (n p : Nat) : Dev :=
  let x := d.fwOf n
  if x.notices.contains p then (d.setFw n { x with notices := x.notices.erase p }).flushPort n p else d

/-! ### Duplicates (R188–R191) -/

/-- The mode a line port acts in: its own while the pairing of R188 holds. -/
def Dev.prpMode (d : Dev) (p : Nat) : Nat :=
  if p < 128 then
    (if d.pd .fwPrpCtl_pairErr (p / 32) (p % 32) = 1 then 0 else d.cfg .fwPrpCtl_mode (p / 32 + 1) (p % 32))
  else 0

/-- The pair port of a line port. -/
def Dev.pairOf (d : Dev) (p : Nat) : Nat := p / 32 * 32 + d.cfg .fwPrpCtl_pair (p / 32 + 1) (p % 32)

/-- The LAN of a line port. -/
def Dev.lanOf (d : Dev) (p : Nat) : Nat := d.cfg .fwPrpCtl_lan (p / 32 + 1) (p % 32)

/-- The trailer of a frame's bytes without FCS: sequence, LAN identifier and LSDU size, when the suffix is present
(IEC 62439-3: 0x88FB in the last two bytes, the LAN identifier 0xA or 0xB and the LSDU size before it).  The LSDU size
counts from the byte after the length/type, or after the VLAN tag's, to the end. -/
def prpTrailer (b : List Byte) : Option (Nat × Nat × Nat) :=
  let n := b.length
  if n < 20 ∨ word0 b (n - 2) ≠ 0x88FB then none
  else some (word0 b (n - 6), word0 b (n - 4) / 4096, word0 b (n - 4) % 4096)

/-- Where the length/type of a frame's LSDU lies, after the addresses and its VLAN tags. -/
def lsduStart (b : List Byte) : Nat :=
  if word0 b 12 = 0x8100 ∨ word0 b 12 = 0x88A8 then (if word0 b 16 = 0x8100 then 20 else 16) else 12

/-- Whether a trailer is a valid one: its LSDU size names the bytes of the frame and its LAN identifier is A or B. -/
def prpValid (b : List Byte) : Option (Nat × Nat) :=
  match prpTrailer b with
  | some (s, lan, size) =>
    if size = b.length - (lsduStart b + 2) ∧ (lan = 0xA ∨ lan = 0xB) then some (s, lan - 0xA) else none
  | none => none

/-- The HSR tag of a frame: its place and sequence, when 0x892F follows the addresses or the VLAN tags. -/
def hsrTag (b : List Byte) : Option (Nat × Nat) :=
  let a := lsduStart b
  if word0 b a = 0x892F then some (a, word0 b (a + 4)) else none

/-- The signed difference of two sequence numbers. -/
def seqDiff (a b : Nat) : Int := toSigned 16 (a + 65536 - b % 65536)

/-- The verdict of the algorithm of R191 with a record of `len`: the new entry, and 0 accepted, 1 duplicate, 2 outside the
record. -/
def dupJudge (len : Nat) (e : DupEnt) (s : Nat) : DupEnt × Nat :=
  let dlt := seqDiff s e.h
  if 0 < dlt then
    ({ e with h := s, marks := (if (len : Int) ≤ dlt then 1 else (e.marks * 2 ^ dlt.toNat + 1) % 2 ^ len) }, 0)
  else if -((len : Int) - 1) ≤ dlt then
    (if bitAt e.marks (-dlt).toNat = 1 then (e, 1) else ({ e with marks := e.marks + 2 ^ (-dlt).toNat }, 0))
  else (e, 2)

/-- A source and sequence enter the duplicate table of 65,536: whether the frame is a duplicate (R191). -/
def Dev.dupCheck (d : Dev) (n p src s : Nat) : Dev × Bool :=
  let x := d.fwOf n
  match x.dup.find? (fun e => e.key = src) with
  | none =>
    if 65536 ≤ x.dup.length then
      ((d.bump .fwRedundancy (n + 1) (p % 32) 4 1).raiseOnce n 0x060A 0 [(8, p)], false)
    else (d.setFw n { x with dup := x.dup ++ [⟨src, s, 1⟩] }, false)
  | some e =>
    let r := dupJudge 32 e s
    let d1 := d.setFw n { x with dup := x.dup.map (fun y => if y.key = src then r.1 else y) }
    if r.2 = 1 then (d1, true)
    else if r.2 = 2 then (d1.bump .fwRedundancy (n + 1) (p % 32) 3 1, false)
    else (d1, false)

/-- The check of a frame received on a PRP or HSR port (R189, R190): whether it is discarded as a duplicate, and whether
it is a tagged HSR frame that was accepted. -/
def Dev.dupReceive (d : Dev) (f : Frame) : Dev × Bool × Bool :=
  let n := f.die
  let p := f.port
  match d.prpMode p with
  | 1 =>
    match prpValid f.bytes with
    | some (s, lan) =>
      if lan = d.lanOf p then
        let r := d.dupCheck n p f.source s
        (r.1, r.2, false)
      else
        ((d.bump .fwRedundancy (n + 1) (p % 32) 1 1).raiseOnce n 0x0608 0 [(8, p), (48, f.source)], false, false)
    | none => (d.bump .fwRedundancy (n + 1) (p % 32) 2 1, false, false)
  | 2 =>
    match hsrTag f.bytes with
    | some (_, s) =>
      let r := d.dupCheck n p f.source s
      (r.1, r.2, !r.2)
    | none => (d.bump .fwRedundancy (n + 1) (p % 32) 2 1, false, false)
  | _ => (d, false, false)

/-- Whether two ports of a die form a pair by R188. -/
def Dev.pairs (d : Dev) (p : Nat) : Bool :=
  let q := d.pairOf p
  let m := d.cfg .fwPrpCtl_mode (p / 32 + 1) (p % 32)
  m = 0 || (q ≠ p && d.cfg .fwPrpCtl_mode (q / 32 + 1) (q % 32) = m && d.pairOf q = p && d.lanOf q ≠ d.lanOf p)

/-- PAIR_ERR of every port of a die judged again, with the alarm where it is newly set (R188). -/
def Dev.judgePairs (d : Dev) (n : Nat) : Dev :=
  (List.range 32).foldl (fun d s =>
    let p := 32 * n + s
    if d.pairs p then d.setPd .fwPrpCtl_pairErr n 0 s
    else if d.pd .fwPrpCtl_pairErr n s = 1 then d
    else (d.setPd .fwPrpCtl_pairErr n 1 s).raise n 0x0609 [(8, p), (5, d.pd .fwPrpCtl_pair n s)]) d

/-! ### The commands -/

/-- LEARN_QUEUE_APPLY: a request of a die's learn queue is applied (R176). -/
def execLearnQueueApply (n : Die) (s : State) : Host.Outcome State Fault Refusal := onDev (fun d => d.applyLearn n) s

/-- SWEEPER_VISIT. -/
def execSweeperVisit (n : Die) (i : Nat) (s : State) : Host.Outcome State Fault Refusal :=
  onDev (fun d => if d.liveDie n ∧ i = (d.fwOf n).sweepAt then d.sweep n i else d) s

/-- FLUSH_NOTICE: PDn is told of the port-down flush of a port of another die (R182). -/
def execFlushNotice (n : Die) (p : Nat) (s : State) : Host.Outcome State Fault Refusal :=
  onDev (fun d => d.flushNotice n p) s

/-- The learned entries a commanded flush of a die removes are chosen by FW_FLUSH as written; START stays set until it
completes, and a write while it is set is ignored (R182). -/
def Dev.flushStart (d : Dev) (n port fid : Nat) (byPort byFid : Bool) : Dev :=
  if d.pd .fwFlush_start n = 1 then d
  else
    let d1 := ((((d.setPd .fwFlush_port n port).setPd .fwFlush_fid n fid).setPd .fwFlush_byPort n (b2n byPort)).setPd
      .fwFlush_byFid n (b2n byFid)).setPd .fwFlush_start n 1
    let r := d1.flush n (if byPort then some port else none) (if byFid then some fid else none)
    r.1.setFw n { r.1.fwOf n with flushing := some (if byPort then port else 0xFF, if byFid then fid else 0x3FFF, r.2) }

/-- FW_FLUSH_START: a write of FW_FLUSH with START set. -/
def execFwFlushStart (n : Die) (port : BitVec 8) (fid : BitVec 14) (byPort byFid : Bool) (s : State) :
    Host.Outcome State Fault Refusal :=
  onWord (n.val + 1) .fwFlush 0 0 (port.toNat + 2 ^ 8 * fid.toNat + 2 ^ 22 * b2n byPort + 2 ^ 23 * b2n byFid + 2 ^ 24)
    (fun d => d.flushStart n port.toNat fid.toNat byPort byFid) s

/-- FW_FLUSH_COMPLETE: START clears and the event reports the entries removed (R182). -/
def execFwFlushComplete (n : Die) (s : State) : Host.Outcome State Fault Refusal :=
  onDev (fun d =>
    match (d.fwOf n).flushing with
    | some (p, x, k) =>
      ((d.setFw n { d.fwOf n with flushing := none }).setPd .fwFlush_start n 0).raise n 0x0607 [(8, p), (14, x), (23, k)]
    | none => d) s

/-- FW_PRP_CTL_WRITE: a port's mode, LAN, pair and sequence counter; the pairing of the die is judged again (R188). -/
def execFwPrpCtlWrite (n : Die) (slot : Fin 32) (mode lan : Fin 4) (pair : Fin 32) (seq : BitVec 12) (s : State) :
    Host.Outcome State Fault Refusal :=
  onWord (n.val + 1) .fwPrpCtl slot 0 (mode.val + 2 ^ 2 * (lan.val % 2) + 2 ^ 4 * pair.val + 2 ^ 12 * seq.toNat) (fun d =>
    ((((d.setPd .fwPrpCtl_mode n (Fld.store .fwPrpCtl_mode mode) slot).setPd .fwPrpCtl_lan n (lan % 2) slot).setPd
      .fwPrpCtl_pair n pair slot).setPd .fwPrpCtl_seqIndex n seq.toNat slot).judgePairs n) s

/-- DUP_FORGET: an entry of the duplicate table unused for FORGET ms is removed (R191). -/
def execDupForget (n : Die) (src : Nat) (s : State) : Host.Outcome State Fault Refusal :=
  onDev (fun d => d.setFw n { d.fwOf n with dup := (d.fwOf n).dup.filter (fun e => e.key ≠ src) }) s

/-- STREAM_RESET: a stream's recovery state resets (R193). -/
def execStreamReset (n : Die) (id : Nat) (s : State) : Host.Outcome State Fault Refusal :=
  onDev (fun d =>
    if (aget (d.fwOf n).recov id).isSome then
      (d.setFw n { d.fwOf n with recov := adel (d.fwOf n).recov id }).raise n 0x060B [(14, id)]
    else d) s

/-- STATIC_ENTRY_REWRITE: the sequencer rewrites a bad static entry from its own copy (R183). -/
def execStaticEntryRewrite (n : Die) (i : Nat) (s : State) : Host.Outcome State Fault Refusal :=
  onDev (fun d =>
    match d.entAt n i with
    | some e =>
      if e.static then
        { d with net := { d.net with bad := d.net.bad.filter (· ≠ .addr n i), alarmed := d.net.alarmed.filter (· ≠ .addr n i) } }
      else d
    | none => d) s

/-- TABLE_SCRUB_PASS: the address, VLAN, duplicate and stream tables of PDn are scrubbed; the words named are those found
bad.  A bad duplicate or stream state is reset as if newly created (R183). -/
def execTableScrubPass (n : Die) (found : List BadWord) (s : State) : Host.Outcome State Fault Refusal :=
  onDev (fun d => found.foldl (fun d b =>
    match b with
    | .addr m _ | .vlan m _ =>
      if m = n.val then ({ d with net := { d.net with bad := b :: d.net.bad.filter (· ≠ b) } } : Dev).tableAlarm b else d
    | .dup m i =>
      if m = n.val then
        let x := d.fwOf n
        (d.setFw n { x with dup := x.dup.eraseIdx i }).tableAlarm b |> fun d =>
          { d with net := { d.net with alarmed := d.net.alarmed.filter (· ≠ b) } }
      else d
    | .stream m i =>
      if m = n.val then
        let x := d.fwOf n
        (d.setFw n { x with recov := adel x.recov i }).tableAlarm b |> fun d =>
          { d with net := { d.net with alarmed := d.net.alarmed.filter (· ≠ b) } }
      else d
    | _ => d) d) s

end Sys2Proof.Machine
end

