-- ==== Sys2Proof/Machine/Queue.lean ====
section
/-! DEFINITION. Copies and their queues: forwarding modes (R22, R84, R199), VOQ entry (R208, R212, R297), mirror copies
and their deferral (R237–R240), host policing (R236), the replicator (R208), bad outcomes (R214) and port-down queues
(R211–R213). -/

namespace Sys2Proof.Machine

/-! ### Forwarding mode and VOQ entry -/

/-- Whether the unit's role lets it transmit frames (Table 14-1). -/
def Dev.sends (d : Dev) : Bool := d.cd .duStatus_role = 0 || (d.cd .duStatus_role = 3 && d.duo.forwarding)

/-- Whether the unit discards copies for line and field ports at VOQ entry (R297). -/
def Dev.standsBy (d : Dev) : Bool := d.cd .duStatus_role = 1 || d.cd .duStatus_role = 2 || d.cd .duStatus_role = 4

/-- Whether a copy of class c to a port is stored and forwarded (R22, R84, R152, R199). -/
def Dev.storeForward (d : Dev) (f : Frame) (q c : Nat) : Bool :=
  q = 132 || f.port = 132 || f.work.forceSf || d.portRate f.port < d.portRate q ||
    (128 ≤ q && 100 < d.portRate f.port) || bitAt (d.cfg .swPortCtl_cutThrough (dieOf q + 1) (idxOf q)) c = 0

/-- A copy discarded before it is queued counts once: a store-and-forward copy of a frame that is not eligible yet is no
copy before that (R199). -/
def Dev.countUnqueued (d : Dev) (f : Frame) (r : CopyReq) (k : WKey) : Dev :=
  let d1 := if d.storeForward f r.port r.tc then d.countPlace f k else d.bump k.x k.w k.i k.j 1
  d1.captureLost f r.port

/-- The copy record of a request. -/
def mkCopy (d : Dev) (f : Frame) (r : CopyReq) (deferred : Bool) : Copy :=
  { id := d.net.nextCopy, frame := f.id, kind := r.kind, port := r.port, tc := r.tc, slot := r.slot, deferred := deferred,
    sf := d.storeForward f r.port r.tc, trunc := r.trunc, seq := r.seq, group := r.group }

/-- The device with a copy added at the end of every queue it stands in. -/
def Dev.addCopy (d : Dev) (c : Copy) : Dev :=
  { d with net := { d.net with copies := d.net.copies ++ [c], nextCopy := d.net.nextCopy + 1 } }

/-- A mirror copy counts in MI_COPIES of its session. -/
def Dev.countMirror (d : Dev) (f : Frame) (k : CopyKind) : Dev :=
  match k with
  | .mirror m => d.countFor f ⟨.miCounters, f.die + 1, m, 0⟩
  | _ => d

/-- A pair copy of PRP counts in TX_DUPLICATED of its port (R189). -/
def Dev.countPair (d : Dev) (f : Frame) (r : CopyReq) : Dev :=
  if r.kind = .pair ∧ d.prpMode r.port = 1 then d.countFor f ⟨.fwRedundancy, dieOf r.port + 1, r.port % 32, 5⟩ else d

/-- VOQ entry: a copy for a line or field port of a standby or faulted unit, or for a class that discards on arrival, is
discarded and counted (R212, R297); every other enters its VOQ, where the tests of R200 are made. -/
def Dev.enterVoq (d : Dev) (f : Frame) (r : CopyReq) : Dev :=
  if d.standsBy ∧ r.port < 132 then d.countUnqueued f r ⟨.duStandbyDiscard, f.die + 1, 0, 0⟩
  else if d.outBit .swPortStatus_discarding r.port r.tc then
    d.countUnqueued f r ⟨.swDownDiscard, f.die + 1, r.port, r.tc⟩
  else (((d.addCopy (mkCopy d f r false)).countMirror f r.kind).countPair f r).cellTest f.die f.port

/-! ### Mirror deferral (R240) -/

/-- The deferral list of a session on a die, oldest first. -/
def Dev.deferrals (d : Dev) (n m : Nat) : List Copy :=
  d.net.copies.filter (fun c => c.deferred && c.kind = .mirror m &&
    (match d.frame? c.frame with | some f => f.die = n | none => false))

/-- Whether the VOQ a copy request names stands at its limit. -/
def Dev.voqFull (d : Dev) (n : Nat) (r : CopyReq) : Bool := d.voqLimit n r.tc ≤ d.voqCells n r.slot r.port r.tc

/-- A mirror copy joins its session's deferral list. -/
def Dev.defer (d : Dev) (f : Frame) (m : Nat) (r : CopyReq) : Dev :=
  ((d.addCopy (mkCopy d f r true)).countFor f ⟨.miCounters, f.die + 1, m, 1⟩).raiseOnce f.die 0x0807 m [(4, m)]

/-! ### Host policing (R236) -/

/-- The bytes that a mirror session's ENCAP adds to a copy (R239). -/
def Dev.encapLen (d : Dev) (f : Frame) : CopyKind → Nat
  | .mirror m => match d.mirror? f.take m with | some r => if r.encap then 4 else 0 | none => 0
  | _ => 0

/-- The length a host copy is charged, FCS included. -/
def Dev.hostLen (d : Dev) (f : Frame) (r : CopyReq) : Nat :=
  max 64 ((if r.trunc = 0 then f.work.win.length else min r.trunc f.work.win.length) + d.encapLen f r.kind + 4)

/-- The host policer of a class on a die charges a copy: whether it passes. -/
def Dev.hostPolice (d : Dev) (f : Frame) (r : CopyReq) : Dev × Bool :=
  let m := d.mark (.hostC f.die r.tc) (.hostP f.die r.tc) false 0 (d.hostLen f r)
  if m.1 = 2 then
    ((m.2.bump .poHostDrop (f.die + 1) r.tc 0 1).raiseOnce f.die 0x0806 r.tc [(3, r.tc)], false)
  else (m.2, true)

/-! ### The replicator (R208) -/

/-- What one copy entry of the replicator does: it is written, or the replicator stalls before it, as it does before every
entry of a copy slot under the global request (R202). -/
def Dev.replicateOne (d : Dev) (f : Frame) (r : CopyReq) : Option Dev :=
  if r.port = 132 ∧ f.whole = false then
    some (match d.frame? f.id with | some g => d.setFrame { g with tailCopies := g.tailCopies ++ [r] } | none => d)
  else if 33 ≤ r.slot ∧ d.pd .swStatus_globalXoff f.die = 1 then none
  else
    let go := fun (d : Dev) => if r.port = 132 then (let h := d.hostPolice f r; if h.2 then h.1.enterVoq f r else h.1)
      else d.enterVoq f r
    match r.kind with
    | .mirror m =>
      if d.voqFull f.die r || (d.deferrals f.die m).any (fun c => c.port = r.port) then
        (if 256 ≤ (d.deferrals f.die m).length then none else some (d.defer f m r))
      else some (go d)
    | _ => if 33 ≤ r.slot && d.voqFull f.die r then none else some (go d)

/-- A deferral list that is full stalls the replicator and raises its event. -/
def Dev.stallNote (d : Dev) (n : Nat) (r : CopyReq) : Dev :=
  match r.kind with
  | .mirror m => if 256 ≤ (d.deferrals n m).length then d.raiseOnce n 0x0809 m [(4, m)] else d
  | _ => d

/-- One frame's entries, at most `fuel` of them: the device, the entries left of the cell time, and whether the replicator
stalled. -/
def Dev.replicateFrame (d : Dev) (id : Nat) : Nat → Dev × Nat × Bool
  | 0 => (d, 0, true)
  | fuel + 1 =>
    match d.frame? id with
    | none => (d, fuel + 1, false)
    | some f =>
      match f.todo with
      | [] => ((d.setFrame { f with stage := .replicated }).reap id, fuel + 1, false)
      | r :: rest =>
        match d.replicateOne f r with
        | none => (d.stallNote f.die r, fuel, true)
        | some d1 =>
          let d2 := match d1.frame? id with | some g => d1.setFrame { g with todo := rest } | none => d1
          d2.replicateFrame id fuel

/-- The frames of a die that wait for the replicator, in the order of their hand-off: a frame with copies to make waits for
its admission (R201, R202). -/
def Dev.toReplicate (d : Dev) (n : Nat) : List Frame :=
  d.net.frames.filter (fun f => f.die = n && f.stage = .handed && (f.admitted || f.todo.isEmpty))

/-- The replicator of a die for one cell time: 64 entries (R208). -/
def Dev.replicateAll (d : Dev) : List Frame → Nat → Dev
  | [], _ => d
  | f :: fs, fuel =>
    let r := d.replicateFrame f.id fuel
    if r.2.2 then r.1 else r.1.replicateAll fs r.2.1

/-- Whether the replicator of a die stalls: the entry it comes to next cannot be written (R202, R208). -/
def Dev.replicatorStalls (d : Dev) (n : Nat) : Bool :=
  match (d.toReplicate n).head? with
  | some f => match f.todo with | r :: _ => (d.replicateOne f r).isNone | [] => false
  | none => false

/-! ### Bad outcomes (R214) -/

/-- The event of the first copy of a port ended in error in a 1 s interval. -/
def Dev.abortEvent (d : Dev) (q cause : Nat) : Dev := d.raiseOnce (dieOf q) 0x0709 q [(8, q), (3, cause)]

/-- SW_CT_ABORT of an egress port, with its event.  DEDUCED (log 81): a copy that ran dry counts in SW_CT_UNDERRUN alone
(R207, R216), and its event names that cause (Table 9-3). -/
def Dev.countAbort (d : Dev) (q cause : Nat) : Dev := (d.bump .swCtAbort (dieOf q + 1) (idxOf q) 0 1).abortEvent q cause

/-- A port is idle again. -/
def Dev.idleTx (d : Dev) (q : Nat) : Dev := d.setTx q { d.tx q with busy := false, byDwrr := false }

/-- A copy of class c that took wire bytes has ended and its port is idle: they come off the deficit of a class that DWRR
chose and off the maximum-rate bucket (R223, R225). -/
def Dev.chargeTx (d : Dev) (q c wire : Nat) : Dev :=
  let n := dieOf q
  let s := idxOf q
  let x := d.tx q
  let x1 := if x.byDwrr then { x with deficit := aset x.deficit c ((aget x.deficit c).getD 0 - wire) } else x
  let d1 := (d.setTx q x1).idleTx q
  if bitAt (d.cfg .egSched_maxrateEn (n + 1) s) c = 1 then
    d1.setBucket (.maxrate n s c) (d1.bucket (.maxrate n s c) - (wire * byteUnits : Nat))
  else d1

/-- The transmission of a copy stops before its end.  DESIGN CHOICE (log 82): its wire length is that of the bytes made for
it. -/
def Dev.stopTx (d : Dev) (q : Nat) (c : Copy) : Dev := d.chargeTx q c.tc (max 64 (c.out.length + 4) + 20)

/-- The FCS of a frame as sent (R76). -/
def fcsOf (b : List Byte) : Nat := crc32 (b.map (·.toNat))

/-- A frame that leaves whole. -/
def sentWhole (q : Nat) (b : List Byte) : Out := .frame q b (some (fcsOf b)) false

/-- A frame ended in error: by an error control block on a line port, by the complemented FCS on a field port (R76,
R214). -/
def sentBad (q : Nat) (b : List Byte) : Out :=
  if q < 128 then .frame q b none true else .frame q b (some (0xFFFFFFFF - fcsOf b)) false

/-- A copy meets a bad outcome: one not made is removed, one waiting or deferred is discarded, one leaving is ended in
error. -/
def Dev.endBad (d : Dev) (f : Frame) (c : Copy) (cause : Nat) : Dev :=
  if !copyMade f c && !c.deferred then d.takeOut c false
  else if c.tx then
    let d1 := ((if cause = 4 then d.abortEvent c.port 4 else d.countAbort c.port cause).stopTx c.port c).takeOut c false
    { d1 with out := d1.out ++ [sentBad c.port c.out] }
  else (d.bump .swCtDiscard (dieOf c.port + 1) (idxOf c.port) 0 1).takeOut c false

/-- Every copy of a frame meets a bad outcome. -/
def Dev.badOutcome (d : Dev) (id cause : Nat) : Dev :=
  (d.copiesOf id).foldl (fun d c =>
    match d.frame? id, d.net.copies.find? (fun x => x.id = c.id) with
    | some f, some x => d.endBad f x cause
    | _, _ => d) d

/-- The engine that runs a frame's program is freed when its frame is gone. -/
def Dev.freeFrame (d : Dev) (id : Nat) : Dev :=
  match d.net.engines.find? (fun g => g.frame = id) with
  | some g => (d.freeEngine g).startReady g.die g.pipe
  | none => d

/-! ### The receive buffers of the field ports (R85) -/

/-- The bytes a field port's receive buffer holds.  DESIGN CHOICE (log 84): a frame counts its bytes without the FCS. -/
def Dev.fpFill (d : Dev) (p : Nat) : Nat :=
  d.net.frames.foldl (fun a f =>
    if f.port = p ∧ f.stage = .cd ∧ f.noRoom = false ∧ f.control = false then a + f.bytes.length else a) 0

/-- F of R85, from the MAXLEN in force at the first byte of the latest frame. -/
def Dev.fpReserve (d : Dev) (p : Nat) : Nat := max 8192 (3 * (aget d.net.fpMax p).getD 1522 + 64)

/-- Whether a field port runs in full duplex. -/
def Dev.fullDuplex (d : Dev) (p : Nat) : Bool := d.cd .fpPortCtl_duplex (p - 128) = 1

/-- A field port's PFC frame for all classes becomes due, with or without a pause. -/
def Dev.fpPfcDue (d : Dev) (p on : Nat) : Dev :=
  if d.fullDuplex p then d.setTx p { d.tx p with pfcDue := (List.range 8).map (fun c => (c, on)) } else d

/-- The thresholds of back-pressure (R85).  DESIGN CHOICE (log 85): clearing BP_EN ends it. -/
def Dev.bpTest (d : Dev) (p : Nat) : Dev :=
  let fill := d.fpFill p
  let f := d.fpReserve p
  let on := d.cd .fpPortStatus_bpActive (p - 128) = 1
  if !on ∧ d.cfg .fpPortCtl_bpEn 0 (p - 128) = 1 ∧ 32768 - f < fill then
    (d.setCd .fpPortStatus_bpActive 1 (p - 128)).fpPfcDue p 1
  else if on ∧ (fill < (32768 - f) / 3 ∨ d.cfg .fpPortCtl_bpEn 0 (p - 128) = 0) then
    (d.setCd .fpPortStatus_bpActive 0 (p - 128)).fpPfcDue p 0
  else d

/-- A frame in reception is dropped by its MAC under the precedence k of Table 4-1 (R73, R199, R214); one of a field port
leaves the receive buffer. -/
def Dev.macDropFrame (d : Dev) (f : Frame) (k len cause : Nat) : Dev :=
  let d1 := (d.macDrop f.port k len).badOutcome f.id cause
  let d2 := ((d1.dropFrame f.id).freeFrame f.id).cellTest f.die f.port
  if f.stage = .cd then d2.bpTest f.port else d2

/-- The length of a frame so far, FCS included. -/
def Frame.lenNow (f : Frame) : Nat := f.bytes.length + f.excess + 4

/-- A port's frame in reception is cut short (R66, R87, R88). -/
def Dev.cutReception (d : Dev) (p k cause : Nat) : Dev :=
  match d.arriving p with
  | some f => d.macDropFrame f k f.lenNow cause
  | none => d

/-- The copy that a port is transmitting. -/
def Dev.sending (d : Dev) (p : Nat) : Option Copy := d.net.copies.find? (fun c => c.port = p && c.tx)

/-- A port's frame in transmission is cut short and counts in a statistic of its port.  DESIGN CHOICE (log 83): a
half-duplex copy between two attempts is in transmission. -/
def Dev.cutTransmission (d : Dev) (p idx : Nat) : Dev :=
  match d.sending p with
  | some c =>
    let d1 := ((d.txDrop p idx).stopTx p c).takeOut c false
    { d1 with out := d1.out ++ [.frame p c.out none true] }
  | none => d.idleTx p

/-! ### Port down (R211–R213) -/

/-- The hold of a port and class in ms (SW_HOLD_LO, SW_HOLD_HI). -/
def Dev.holdMs (d : Dev) (q c : Nat) : Nat :=
  let f : Fld := match c with
    | 0 => .swHoldLo_tc0 | 1 => .swHoldLo_tc1 | 2 => .swHoldLo_tc2 | 3 => .swHoldLo_tc3
    | 4 => .swHoldHi_tc4 | 5 => .swHoldHi_tc5 | 6 => .swHoldHi_tc6 | _ => .swHoldHi_tc7
  d.cfg f (dieOf q + 1) (idxOf q)

/-- The die on which a copy now stands: its ingress die until its last cell has been read, then that of its port. -/
def Dev.holderOf (d : Dev) (c : Copy) : Nat :=
  match d.frame? c.frame with
  | some f => if copyRead f c then dieOf c.port else f.die
  | none => dieOf c.port

/-- Every copy queued for a port in a class is removed and counted on the die that held it; the deferred ones are not yet
queued (R212, R240).  A copy in transmission has left its queue. -/
def Dev.flushClass (d : Dev) (q c : Nat) : Dev :=
  let mine := d.net.copies.filter (fun x => x.port = q && x.tc = c && !x.deferred && !x.tx)
  let counts := (List.range 4).map (fun n => (n, (mine.filter (fun x => d.holderOf x = n)).length))
  let d1 := mine.foldl (fun d x => d.discard x ⟨.swDownFlush, d.holderOf x + 1, q, c⟩) d
  counts.foldl (fun d e =>
    if d.railOn e.1 ∧ (e.1 = dieOf q ∨ e.2 ≠ 0) then d.raise e.1 0x0702 [(8, q), (3, c), (20, e.2)] else d) d1

/-- A class of a port is flushed at the end of its hold and discards on arrival (R212). -/
def Dev.endHold (d : Dev) (q c : Nat) : Dev :=
  let n := dieOf q
  (((d.clrBit .swPortStatus_holding (n + 1) (idxOf q) 0 c).setBit .swPortStatus_discarding (n + 1) (idxOf q) 0 c).flushClass
    q c)

/-- The pause tests of every input, after an output entered or left hold. -/
def Dev.pauseAll (d : Dev) : Dev :=
  (List.range 4).foldl (fun d m => (inputsOf m).foldl (fun d i => d.pauseInput m i) d) d

/-- An output passes to a down state: every class that does not already discard enters hold, or is flushed at once when its
hold is 0 (R211–R213). -/
def Dev.outputDown (d : Dev) (q : Nat) : Dev :=
  let n := dieOf q
  let cs := (List.range 8).filter (fun c => !d.outBit .swPortStatus_discarding q c)
  if cs = [] then d
  else
    let held := cs.filter (fun c => d.holdMs q c ≠ 0)
    let d1 := held.foldl (fun d c => d.setBit .swPortStatus_holding (n + 1) (idxOf q) 0 c) d
    let d2 := d1.raise n 0x0701 [(8, q), (8, d1.pd .swPortStatus_holding n (idxOf q))]
    ((cs.filter (fun c => d.holdMs q c = 0)).foldl (fun d c => d.endHold q c) d2).pauseAll

/-- An output enters UP: holds end with their copies kept, and discard on arrival ends (R213). -/
def Dev.outputUp (d : Dev) (q : Nat) : Dev :=
  let n := dieOf q
  let held := d.pd .swPortStatus_holding n (idxOf q)
  let d1 := (d.setPd .swPortStatus_holding n 0 (idxOf q)).setPd .swPortStatus_discarding n 0 (idxOf q)
  let d2 := d1.pauseAll
  if held ≠ 0 then d2.raise n 0x0703 [(8, q), (8, held)] else d2

end Sys2Proof.Machine
end

