-- ==== Sys2Proof/Machine/Gates.lean ====
section
/-! DEFINITION. Time-aware gates (R226–R230) and the timed-action entries that gate changes and takes book (R271). -/

namespace Sys2Proof.Machine

/-! ### Timed-action entries -/

/-- The lowest free entry of the CD's 256. -/
def Dev.freeTimer (d : Dev) : Option Nat := (List.range 256).find? (fun i => (aget d.tm.ta i).isNone)

/-- An entry is taken. -/
def Dev.bookTimer (d : Dev) (i : Nat) (e : TaEntry) : Dev := { d with tm := { d.tm with ta := aset d.tm.ta i e } }

/-- An entry is freed. -/
def Dev.dropTimer (d : Dev) (i : Nat) : Dev := { d with tm := { d.tm with ta := adel d.tm.ta i } }

/-! ### Lists -/

/-- The gate lists of a port. -/
def Dev.gate (d : Dev) (q : Nat) : GateSt := (aget d.net.gates q).getD {}

/-- The device with a port's gate lists replaced. -/
def Dev.setGate (d : Dev) (q : Nat) (g : GateSt) : Dev := { d with net := { d.net with gates := aset d.net.gates q g } }

/-- Entry i of list l of a port (Table 10-2). -/
def Dev.gcl (d : Dev) (q l i : Nat) : Nat := d.wide (if l = 0 then .egGcl0 else .egGcl1) (q / 32 + 1) (q % 32) i

/-- The segments of a cycle: gates, and where each ends; the list is cut at the cycle boundary, and its last entry's gates
hold until it (R227). -/
def Dev.segments (d : Dev) (q l len cycle : Nat) : Nat → Nat → List (Nat × Nat)
  | 0, _ => []
  | k + 1, acc =>
    let e := d.gcl q l (len - (k + 1))
    let fin := if k = 0 then cycle else min cycle (acc + bits e 39 8)
    if cycle ≤ acc then [] else (bits e 7 0, fin) :: d.segments q l len cycle k fin

/-- The segments of the operational list. -/
def Dev.operSegs (d : Dev) (q : Nat) : List (Nat × Nat) :=
  let g := d.gate q
  d.segments q (d.pd .egGateStatus_operList (q / 32) (q % 32)) g.len g.cycle g.len 0

/-- The index of the segment that holds a position. -/
def segAt : List (Nat × Nat) → Nat → Nat → Nat
  | [], _, k => k - 1
  | [_], _, k => k
  | (_, fin) :: t, pos, k => if pos < fin then k else segAt t pos (k + 1)

/-- A pending change of a port that extends the running cycle, with the instant at which the cycle would have ended: the rest
of the cycle begun there is shorter than the cycle-time extension (R228). -/
def Dev.gateExtends (d : Dev) (q : Nat) : Option Nat :=
  let g := d.gate q
  match g.pending with
  | some (at_, _) =>
    let run := diff64 at_ g.start
    let rest := run % (max 1 g.cycle : Nat)
    if g.running ∧ rest ≠ 0 ∧ rest < (bits (d.wide .egGateCycle (q / 32 + 1) (q % 32)) 63 32 : Nat) ∧ 0 < run - rest then
      some ((at_ + 2 ^ 64 - rest.toNat) % 2 ^ 64)
    else none
  | none => none

/-- The position of an instant in the operational list, which runs from its change time; in an extension the last entry goes
on (R227, R228, R263). -/
def Dev.gatePos (d : Dev) (q : Nat) (t : Nat) : Nat :=
  let g := d.gate q
  match d.gateExtends q with
  | some b => if 0 ≤ diff64 t b then g.cycle - 1 else (diff64 t g.start % (max 1 g.cycle : Nat)).toNat
  | none => (diff64 t g.start % (max 1 g.cycle : Nat)).toNat

/-- How long class c stays open from a segment on: `none` when its gate never closes. -/
def openFrom (segs : List (Nat × Nat)) (c pos : Nat) : Option Nat :=
  let k := segAt segs pos 0
  let rot := segs.drop (k + 1) ++ segs.take (k + 1)
  let starts := 0 :: segs.map (·.2)
  let dur := fun (i : Nat) => ((segs[i]?).map (·.2)).getD 0 - (starts[i]?).getD 0
  if segs.all (fun s => bitAt s.1 c = 1) then none
  else if bitAt (((segs[k]?).map (·.1)).getD 0) c = 0 then some 0
  else
    let n := ((rot.map (fun s => bitAt s.1 c)).takeWhile (· = 1)).length
    let more := (List.range n).foldl (fun a i => a + dur ((k + 1 + i) % segs.length)) 0
    some (((segs[k]?).map (·.2)).getD 0 - pos + more)

/-- The longest time class c stays open, a run across the boundary included (R230). -/
def longestOpen (segs : List (Nat × Nat)) (c : Nat) : Option Nat :=
  let starts := 0 :: segs.map (·.2)
  (List.range segs.length).foldl (fun a i =>
    match a, openFrom segs c ((starts[i]?).getD 0) with
    | some x, some y => some (max x y)
    | _, _ => none) (some 0)

/-- The time a wire length takes at a rate in Mb/s, begun so many sixteenths of a nanosecond late, fits in so many ns. -/
def wireFits (wire rate late : Nat) : Option Nat → Bool
  | none => true
  | some ns => wire * 128000 + late * rate ≤ ns * 16 * rate

/-- Whether a port's gating is on. -/
def Dev.gating (d : Dev) (q : Nat) : Bool := q < 128 && d.cfg .egGateCtl_gateEn (q / 32 + 1) (q % 32) = 1

/-- The admin list of a port: the one that is not operational. -/
def Dev.adminList (d : Dev) (q : Nat) : Nat := 1 - d.pd .egGateStatus_operList (q / 32) (q % 32)

/-- The cycle time of the admin list. -/
def Dev.adminCycle (d : Dev) (q : Nat) : Nat := max 1 (bits (d.wide .egGateCycle (q / 32 + 1) (q % 32)) 31 0)

/-- The segments of the admin list. -/
def Dev.adminSegs (d : Dev) (q : Nat) : List (Nat × Nat) :=
  let len := d.cfg .egGateCtl_adminLen (q / 32 + 1) (q % 32)
  d.segments q (d.adminList q) len (d.adminCycle q) len 0

/-- The instant at which a bit leaving now crosses the connector face, in sixteenths of a nanosecond (R68, R227). -/
def Dev.faceTime (d : Dev) (q : Nat) : Nat :=
  if q < 128 then
    let off : Int := toSigned 16 (d.cfg .lnTsTrim_txTrim (q / 32 + 1) (q % 32)) + ((Config.txDelay q (d.portRate q)).toNat : Int)
    ((((d.instant (q / 32)) / 2 ^ 28 : Nat) + off : Int) % (2 ^ 68 : Nat)).toNat
  else d.now 4 * 16

/-- How long class c stays open from an instant on by the lists that run then, before any pending change. -/
def Dev.openNow (d : Dev) (q c t : Nat) : Option Nat :=
  if (d.gate q).running then openFrom (d.operSegs q) c (d.gatePos q t)
  else if bitAt (d.pd .egGateStatus_gates (q / 32) (q % 32)) c = 1 then none else some 0

/-- How long class c stays open from an instant on, in ns: by the running list until a pending change, in an extension by its
last entry, and by the new list from the change time (R227, R228). -/
def Dev.openAt (d : Dev) (q c t : Nat) : Option Nat :=
  match (d.gate q).pending with
  | none => d.openNow q c t
  | some (at_, _) =>
    let left := diff64 at_ t
    if left ≤ 0 then openFrom (d.adminSegs q) c (-left % (d.adminCycle q : Nat)).toNat
    else
      let runs := (match d.gateExtends q with | some b => max 0 (diff64 b t) | none => left).toNat
      let now_ := d.openNow q c t
      let held := match now_ with | none => true | some x => runs ≤ x && x ≠ 0
      if held then (openFrom (d.adminSegs q) c 0).map (· + left.toNat) else now_

/-- Condition 3 of R221: the gate of a class is open when the first bit crosses the face, and a copy of a wire length ends
there before it closes (R227). -/
def Dev.gateOk (d : Dev) (q c wire : Nat) : Bool :=
  !d.gating q || wireFits wire (d.portRate q) (d.faceTime q % 16) (d.openAt q c (d.faceTime q / 16))

/-! ### The commands -/

/-- The gates and the entry in force of a running list (R227). -/
def Dev.gateShow (d : Dev) (q : Nat) : Dev :=
  let k := segAt (d.operSegs q) (d.gatePos q (d.now (q / 32))) 0
  let g := (((d.operSegs q)[k]?).map (·.1)).getD 0
  (d.setPd .egGateStatus_gates (q / 32) g (q % 32)).setPd .egGateStatus_entry (q / 32) k (q % 32)

/-- A pending change ends without taking effect: its entry is freed. -/
def Dev.gateCancel (d : Dev) (q code : Nat) : Dev :=
  match (d.gate q).pending with
  | some (_, i) =>
    ((d.dropTimer i).setGate q { d.gate q with pending := none }).setPd .egGateStatus_code (q / 32) code (q % 32)
  | none => d

/-- A change that is refused (Table 10-3). -/
def Dev.gateRefuse (d : Dev) (q code : Nat) : Dev :=
  (d.setPd .egGateStatus_code (q / 32) code (q % 32)).raise (q / 32) 0x0802 [(8, q), (3, code)]

/-- Whether an entry within ADMIN_LEN has INTERVAL 0 or a reserved bit set. -/
def Dev.badList (d : Dev) (q : Nat) : Bool :=
  (List.range (d.cfg .egGateCtl_adminLen (q / 32 + 1) (q % 32))).any (fun i =>
    bits (d.gcl q (d.adminList q) i) 39 8 = 0 || bits (d.gcl q (d.adminList q) i) 63 40 ≠ 0)

/-- The change time: the earliest base + N × cycle at least 100 µs away (R228). -/
def changeTime (base cycle now : Nat) : Nat :=
  let away := diff64 (now + 100000) base
  if away ≤ 0 then base else (base + (away.toNat + cycle - 1) / cycle * cycle) % 2 ^ 64

/-- CONFIG_CHANGE (R228). -/
def Dev.gateChange (d : Dev) (q : Nat) : Dev :=
  let n := q / 32
  let s := q % 32
  let d1 := d.gateCancel q 5
  if d1.badList q then d1.gateRefuse q 4
  else
    match d1.freeTimer with
    | none => d1.gateRefuse q 3
    | some i =>
      let t := changeTime (d1.wide .egGateBase (n + 1) s) (d1.adminCycle q) (d1.now n)
      (((d1.bookTimer i { kind := 2, t := t, arg := q }).setGate q { d1.gate q with pending := some (t, i) }).setWide
        .egGateChange (n + 1) s 0 t).setPd .egGateStatus_code n 2 s

/-- GATE_CONFIG_CHANGE. -/
def execGateConfigChange (q : LinePort) (s : State) : Host.Outcome State Fault Refusal :=
  onReg (q.val / 32 + 1) .egGateCtl (q.val % 32) 0 (2 ^ 12) (fun d => d.gateChange q) s

/-- A pending change becomes operational, late or not (R228, Table 12-1): the admin list and the operational list change
places. -/
def Dev.gateOperational (d : Dev) (q : Nat) (late : Bool) : Dev :=
  let n := q / 32
  let s := q % 32
  match (d.gate q).pending with
  | none => d
  | some (t, i) =>
    let list := d.adminList q
    let g1 : GateSt := { running := d.gating q, len := d.cfg .egGateCtl_adminLen (n + 1) s, cycle := d.adminCycle q,
                         start := t, pending := none }
    let d1 := (((d.dropTimer i).setGate q g1).setPd .egGateStatus_operList n list s).setPd .egGateStatus_code n 1 s
    let d2 := if g1.running then d1.gateShow q else d1
    d2.raise n 0x0801 [(8, q), (1, list), (48, t % 2 ^ 48), (1, b2n (d.gateExtends q).isSome), (1, b2n late),
      (32, if late then (diff64 (d.now n) t).toNat else 0)]

/-- GATE_LIST_OPERATIONAL: the change time of a port's pending change is reached. -/
def execGateListOperational (q : LinePort) (s : State) : Host.Outcome State Fault Refusal :=
  onDev (fun d =>
    match (d.gate q).pending with
    | some (t, _) => if 0 ≤ diff64 (d.now (q.val / 32)) t then d.gateOperational q false else d
    | none => d) s

/-- GATE_ENTRY_ADVANCE: the entry in force of a port's running list ends. -/
def execGateEntryAdvance (q : LinePort) (s : State) : Host.Outcome State Fault Refusal :=
  onDev (fun d => if (d.gate q).running && d.gating q then d.gateShow q else d) s

/-- GATE_EN (R229): ADMIN_GATES gives the gate states until a list runs, or every gate opens at once and the list stops. -/
def Dev.gateEnable (d : Dev) (q : Nat) (en : Bool) : Dev :=
  let n := q / 32
  let s := q % 32
  let d1 := d.setPd .egGateCtl_gateEn n (b2n en) s
  if en then
    (if d.pd .egGateCtl_gateEn n s = 1 ∧ (d.gate q).running = true then d1
     else (d1.setPd .egGateStatus_gates n (d.cfg .egGateCtl_adminGates (n + 1) s) s).setGate q { d.gate q with running := false })
  else (d1.setPd .egGateStatus_gates n 0xFF s).setGate q { d.gate q with running := false }

/-- GATE_EN_WRITE. -/
def execGateEnWrite (q : LinePort) (en : Bool) (s : State) : Host.Outcome State Fault Refusal :=
  onReg (q.val / 32 + 1) .egGateCtl (q.val % 32) 0 (2 ^ 13) (fun d => d.gateEnable q en) s

end Sys2Proof.Machine
end

