-- ==== Sys2Proof/Machine/Fabric.lean ====
section
/-! DEFINITION. Fabric lanes: states and removals (R279–R281, R285, R286), electrical idle (R282, R283), drift (R284) and the
choice of a lane for a cell (R206, R251). -/

namespace Sys2Proof.Machine

/-! ### Lane state -/

/-- STATE of a lane at a die (Table 13-1). -/
def Dev.laneState (d : Dev) (a b k : Nat) : Nat := d.pd .fbLaneStatus_state a k b

/-- TX_IDLE of a lane at its sending die. -/
def Dev.laneIdle (d : Dev) (a b k : Nat) : Nat := d.pd .fbLaneStatus_txIdle a k b

/-- STATE of a lane set at one die. -/
def Dev.setLane (d : Dev) (a b k v : Nat) : Dev := d.setPd .fbLaneStatus_state a v k b

/-- STATE of a lane pair set at both dies. -/
def Dev.setPair (d : Dev) (a b k v : Nat) : Dev := (d.setLane a b k v).setLane b a k v

/-- The lanes of a direction that are in service. -/
def Dev.inService (d : Dev) (a b : Nat) : List Nat := (List.range 48).filter (fun k => d.laneState a b k = 0)

/-- The lanes of a direction that are in service and awake. -/
def Dev.awake (d : Dev) (a b : Nat) : List Nat := (d.inService a b).filter (fun k => d.laneIdle a b k = 0)

/-- A link named in a payload: its dies, the lower first. -/
def linkNo (a b : Nat) : Nat := min a b * 4 + max a b

/-- What is kept of a lane beside its registers. -/
def Dev.laneX (d : Dev) (a b k : Nat) : LaneX :=
  (d.fab.lanes.find? (fun x => x.die = a && x.peer = b && x.lane = k)).getD { die := a, peer := b, lane := k }

/-- The device with what is kept of a lane replaced. -/
def Dev.setLaneX (d : Dev) (x : LaneX) : Dev :=
  let rest := d.fab.lanes.filter (fun y => !(y.die = x.die && y.peer = x.peer && y.lane = x.lane))
  { d with fab := { d.fab with lanes := x :: rest } }

/-- What is kept of a lane pair as a whole. -/
def Dev.pairX (d : Dev) (a b k : Nat) : LaneX := d.laneX (min a b) (max a b) k

/-- The storyboard's policy of a link: whether its lanes may park (R17, R282). -/
def Dev.idleEligible (d : Dev) (a b : Nat) : Bool :=
  d.boot.sb.idle.contains (a, b) || d.boot.sb.idle.contains (b, a)

/-! ### Cells on lanes -/

/-- The cells waiting on a lane or in serialization. -/
def Dev.onLane (d : Dev) (a b k : Nat) : List Flight :=
  d.net.flights.filter (fun x => x.src = a && x.dst = b && x.lane = k)

/-- Cells that follow one another on a lane, each with the tick at which its serialization begins: 66 ns take 33 ticks (R206). -/
def serialized : Nat → List Flight → List (Flight × Nat)
  | _, [] => []
  | free, x :: t => (x, max x.since free) :: serialized (max x.since free + 33) t

/-- The cells of a lane with the ticks at which their serialization begins. -/
def Dev.laneCells (d : Dev) (a b k : Nat) : List (Flight × Nat) := serialized 0 (d.onLane a b k)

/-- The cells of a lane that are in serialization or on the channel. -/
def Dev.begun (d : Dev) (a b k : Nat) : List Flight := ((d.laneCells a b k).filter (fun x => x.2 ≤ d.ticks a)).map (·.1)

/-- The cells that wait on a lane. -/
def Dev.waitingOn (d : Dev) (a b k : Nat) : List Flight := ((d.laneCells a b k).filter (fun x => d.ticks a < x.2)).map (·.1)

/-- The backlog of a lane: the cells that wait and the one in serialization (R251). -/
def Dev.backlog (d : Dev) (a b k : Nat) : Nat := ((d.laneCells a b k).filter (fun x => d.ticks a < x.2 + 33)).length

/-- The lane with the smallest backlog among some, the lowest of equals (R251). -/
def Dev.bestLane (d : Dev) (a b : Nat) : List Nat → Option Nat
  | [] => none
  | k :: ks =>
    match d.bestLane a b ks with
    | none => some k
    | some m => if d.backlog a b m < d.backlog a b k then some m else some k

/-- Whether a copy is cut through. -/
def Dev.isCut (d : Dev) (copy : Nat) : Bool := d.net.copies.any (fun c => c.id = copy && !c.sf)

/-- A cell joins its lane: a cell of a cut-through copy goes ahead of the other copies' waiting cells (R207). -/
def Dev.joinLane (d : Dev) (x : Flight) : List Flight → List Flight
  | [] => [x]
  | y :: ys =>
    if d.isCut x.copy && !d.isCut y.copy && (d.waitingOn x.src x.dst x.lane).contains y then x :: y :: ys
    else y :: d.joinLane x ys

/-- A cell is put on a lane. -/
def Dev.putFlight (d : Dev) (x : Flight) : Dev :=
  let y := { x with since := d.ticks x.src }
  { d with net := { d.net with flights := d.joinLane y d.net.flights } }

/-! ### Electrical idle (R282, R283) -/

/-- A cell is offered to a direction: every parked lane begins its exit when no lane is awake or exiting, or every awake
lane holds 2 or more cells. -/
def Dev.offer (d : Dev) (a b : Nat) : Dev :=
  let sv := d.inService a b
  let stirring := sv.any (fun k => d.laneIdle a b k ≠ 1)
  if !stirring || (d.awake a b ≠ [] && (d.awake a b).all (fun k => 2 ≤ d.backlog a b k)) then
    let d1 := (sv.filter (fun k => d.laneIdle a b k = 1)).foldl (fun (d : Dev) k => d.setPd .fbLaneStatus_txIdle a 2 k b) d
    let rest := d1.fab.lastWake.filter (fun e => !(e.1 = a && e.2.1 = b))
    { d1 with fab := { d1.fab with lastWake := (a, b, d.ticks a) :: rest } }
  else d

/-- The cells sent on a direction in the running window. -/
def Dev.sentIn (d : Dev) (a b : Nat) : Nat := sumOf d.fab.sent a b

/-- LANE_PARK_WINDOW: a window of a direction ends (R282). -/
def Dev.parkWindow (d : Dev) (a b : Nat) : Dev :=
  let c := d.sentIn a b
  let d1 := { d with fab := { d.fab with sent := d.fab.sent.filter (fun e => !(e.1 = a && e.2.1 = b)) } }
  let keep := max (d.cfg .fbLinkCtl_minAwake (a + 1) b) ((c + 74) / 75)
  let wake := sumOf d.fab.lastWake a b
  if d.idleEligible a b ∧ d.cfg .fbLinkCtl_entryUs (a + 1) b * 500 ≤ d.ticks a - wake then
    ((d.awake a b).drop keep).foldl (fun d k => d.setPd .fbLaneStatus_txIdle a 1 k b) d1
  else d1

/-- The place of cells that were moved while no lane of their link was awake: they wait there for the first that is (DESIGN
CHOICE, log 98). -/
def noLane : Nat := 48

/-- A cell whose lane left service goes to the other lanes in service; with none of them awake it is offered to the link
(R280, R282). -/
def Dev.relane (d : Dev) (x : Flight) : Dev :=
  match d.bestLane x.src x.dst (d.awake x.src x.dst) with
  | some m => d.putFlight { x with lane := m }
  | none => (d.offer x.src x.dst).putFlight { x with lane := noLane }

/-- A lane that is awake takes up the cells that wait for one. -/
def Dev.takeUp (d : Dev) (a b k : Nat) : Dev :=
  let mine := d.onLane a b noLane
  let d1 := { d with net := { d.net with flights := d.net.flights.filter (fun x => !mine.contains x) } }
  mine.foldl (fun (d : Dev) x => d.putFlight { x with lane := k }) d1

/-- The cells in serialization and on the channel of a lane are lost (R280). -/
def Dev.loseBegun (d : Dev) (a b k : Nat) : Dev :=
  let lost := d.begun a b k
  { d with net := { d.net with flights := d.net.flights.filter (fun x => !lost.contains x), missing := d.net.missing ++ lost } }

/-- A sudden removal at the sending die of a direction: the waiting cells move to the other lanes in service, in their
order; the cell in serialization and those on the channel are lost (R280). -/
def Dev.shed (d : Dev) (a b k : Nat) : Dev :=
  let wait := d.waitingOn a b k
  let d1 := d.loseBegun a b k
  wait.foldl (fun (d : Dev) x => d.relane x)
    { d1 with net := { d1.net with flights := d1.net.flights.filter (fun x => !wait.contains x) } }

/-! ### Removals (R280, R281, R285, R286) -/

/-- BELOW_MIN_STICKY and alarm 0x010B when a die's lanes in service fall below MIN_SERVICE, and again at 0. -/
def Dev.minServiceTest (d : Dev) (a b before : Nat) : Dev :=
  let now := (d.inService a b).length
  let m := d.cfg .fbLinkCtl_minService (a + 1) b
  if (now < m ∧ m ≤ before) ∨ (now = 0 ∧ before ≠ 0) then
    (d.setPd .fbLinkStatus_belowMinSticky a 1 b).raise a 0x010B [(4, linkNo a b), (6, now)]
  else d

/-- The lanes of a link that are out of service for DRIFT, CELL_ERRORS, TEST or CALIBRATE (R286); one in FAILED waits for
software and is none of them (DEDUCED, log 100). -/
def Dev.outCount (d : Dev) (a b : Nat) : Nat :=
  ((List.range 48).filter (fun k =>
    (d.laneState a b k ∈ [1, 2, 3, 4] || d.laneState b a k ∈ [1, 2, 3, 4]) && (d.pairX a b k).cause ∈ [1, 2, 5, 6])).length

/-- A lane leaves service at a die: its record and its event (R281). -/
def Dev.noteRemoval (d : Dev) (a b k : Nat) : Dev :=
  if (d.laneX a b k).noted then d
  else
    let cause := (d.pairX a b k).cause
    let r := d.pd .fbLaneStatus_removals a k b
    (((d.setLaneX { d.laneX a b k with noted := true }).setPd .fbLaneStatus_lastCause a cause k b).setPd .fbLaneStatus_removals a
      (min 255 (r + 1)) k b).raise a 0x0106 [(4, linkNo a b), (6, k), (3, cause), (8, d.pd .lnTestStatus_margin a k (1 + b))]

/-- A lane pair takes a state: a die at which it was in service or draining leaves service, and the cells still waiting there
move (R279, R280). -/
def Dev.leaveFor (d : Dev) (a b k v : Nat) : Dev :=
  let st := d.laneState a b k
  if st = 0 then
    (((d.setLane a b k v).noteRemoval a b k).shed a b k).minServiceTest a b (d.inService a b).length
  else if st = 1 then ((d.setLane a b k v).noteRemoval a b k).shed a b k
  else d.setLane a b k v

/-- Both dies of a lane pair take a state. -/
def Dev.pairTo (d : Dev) (a b k v : Nat) : Dev := (d.leaveFor a b k v).leaveFor b a k v

/-- The third removal within 10 s for DRIFT, CELL_ERRORS, LOCK_LOST or EXIT_FAILED: the history of a lane pair with one
more, and whether it then holds three (R285). -/
def Dev.noteHistory (d : Dev) (a b k cause : Nat) : Dev × Bool :=
  if cause ∈ [1, 2, 3, 4] then
    let x := d.pairX a b k
    let now := d.ticks (min a b)
    let h := now :: x.history.filter (fun t => now < t + 5000000000)
    (d.setLaneX { x with history := h }, 3 ≤ h.length)
  else (d, false)

/-- Whether OUT is 1 at either die of a lane pair. -/
def Dev.outAsked (d : Dev) (a b k : Nat) : Bool :=
  d.cfg .fbLaneCtl_out (a + 1) k b = 1 || d.cfg .fbLaneCtl_out (b + 1) k a = 1

/-- A planned removal begins at a die: the lane drains toward its next state (R280).  One that its peer drains already keeps
that aim, unless software takes it OUT. -/
def Dev.drainLane (d : Dev) (a b k cause next : Nat) : Dev :=
  let before := (d.inService a b).length
  let x := d.pairX a b k
  let y := if d.laneState b a k = 0 then { x with next := next, cause := cause, waiting := none }
    else if next = 5 then { x with next := 5, waiting := none } else { x with waiting := none }
  ((d.setLane a b k 1).setLaneX y).minServiceTest a b before

/-- A test or calibration that took a lane out ends with a code at both dies (R290, R291). -/
def Dev.endLaneRequests (d : Dev) (a b k code : Nat) : Dev :=
  (((d.setPd .fbLaneCtl_calibrate a 0 k b).setPd .fbLaneCtl_calibrate b 0 k a).lnCut (.fabric a b k) code).lnCut (.fabric b a k) code

/-- A removal for DRIFT or CELL_ERRORS, which waits while 4 lanes of the link are out (R286). -/
def Dev.wearLane (d : Dev) (a b k cause : Nat) : Dev :=
  if d.laneState a b k ≠ 0 then d
  else if 4 ≤ d.outCount a b then
    let x := d.pairX a b k
    d.setLaneX { x with waiting := some (x.waiting.getD (a, cause)) }
  else d.drainLane a b k cause 2

/-- The removals of a link that wait are made as room allows. -/
def Dev.wakeWaiting (d : Dev) (a b : Nat) : Dev :=
  (List.range 48).foldl (fun (d : Dev) k =>
    let x := d.pairX a b k
    match x.waiting with
    | some (n, c) =>
      if 4 ≤ d.outCount a b then d
      else (d.setLaneX { x with waiting := none }).wearLane n (if n = a then b else a) k c
    | none => d) d

/-- A lane of a link enters FAILED at both dies, with alarm 0x010A; what asked for it ends NOT_QUALIFIED. -/
def Dev.laneLost (d : Dev) (a b k : Nat) : Dev :=
  let d1 := d.pairTo a b k 6
  ((d1.raise a 0x010A [(4, linkNo a b), (6, k), (3, d1.pd .fbLaneStatus_lastCause a k b)]).endLaneRequests a b k 4).wakeWaiting a b

/-- The tests that wait for a lane to drain run. -/
def Dev.runTests (d : Dev) (a b k : Nat) : Dev :=
  let run := fun (d : Dev) (l : LaneId) =>
    if d.lnFld l .lnTestStatus_state = 1 then d.lnSet l .lnTestStatus_state 2 else d
  run (run d (.fabric a b k)) (.fabric b a k)

/-- A lane that has left service goes to its next state, or to FAILED after its third removal (R285). -/
def Dev.afterLeave (d : Dev) (a b k : Nat) : Dev :=
  let d1 := if (d.pairX a b k).next = 4 then d.runTests a b k else d
  let h := d1.noteHistory a b k (d.pairX a b k).cause
  if h.2 then h.1.laneLost a b k else h.1

/-- A sudden removal at a die: the lane goes to CALIBRATING, or where it was draining to, or OUT (R280, R283).  The cells on
its channel in both directions are lost; the peer leaves with its notice. -/
def Dev.dropLane (d : Dev) (a b k cause : Nat) : Dev :=
  let before := (d.inService a b).length
  let x := d.pairX a b k
  let next := if d.outAsked a b k then 5 else if d.laneState a b k = 1 then x.next else 2
  let d1 := d.setLaneX { x with next := next, cause := cause, waiting := none }
  let d2 := ((((d1.setLane a b k next).noteRemoval a b k).shed a b k).loseBegun b a k).minServiceTest a b before
  d2.afterLeave a b k

/-! ### The commands -/

/-- A link both of whose dies run. -/
def Dev.link (d : Dev) (a b : Nat) : Bool := a ≠ b && d.liveDie a && d.liveDie b

/-- LANE_PARK_WINDOW. -/
def execLaneParkWindow (a b : Die) (s : State) : Host.Outcome State Fault Refusal :=
  onDev (fun d => if d.link a b then d.parkWindow a b else d) s

/-- The absolute difference of two margins. -/
def apart (a b : Nat) : Nat := (a - b) + (b - a)

/-- Event 0x0108, at most once per link in each 1 s interval (R283). -/
def Dev.longExit (d : Dev) (a b lanes : Nat) : Dev :=
  let e := (min a b, 0x0108, 16 + max a b)
  if d.obs.once.contains e then d
  else
    let d1 := d.raise a 0x0108 [(4, linkNo a b), (32, lanes)]
    { d1 with obs := { d1.obs with once := e :: d1.obs.once } }

/-- LANE_EXIT_END: a lane's training burst ends with the margin its receiver measured (R283). -/
def execLaneExitEnd (a b : Die) (k : Fin 48) (margin : Byte) (s : State) : Host.Outcome State Fault Refusal :=
  onDev (fun d =>
    if d.link a b ∧ d.laneState a b k = 0 ∧ d.laneIdle a b k = 2 then
      let d1 := d.setPd .lnTestStatus_margin b margin.toNat k (1 + a)
      if apart margin.toNat (d.pd .lnTestStatus_baseline b k (1 + a)) ≤ d.cfg .fbCtl_exitSteps (b + 1) then
        (d1.setPd .fbLaneStatus_txIdle a 0 k b).takeUp a b k
      else
        let d2 := ((d1.setPd .fbLaneStatus_txIdle a 3 k b).bump .fbLongExits (a + 1) k b 1).setPd
          .fbLinkStatus_longExitSticky a 1 b
        d2.longExit a b ((d2.inService a b).filter (fun m => d2.laneIdle a b m = 3)).length
    else d) s

/-- LANE_LONG_EXIT_END: a retrain ends with the margin its receiver measured (R283). -/
def execLaneLongExitEnd (a b : Die) (k : Fin 48) (margin : Byte) (s : State) : Host.Outcome State Fault Refusal :=
  onDev (fun d =>
    if d.link a b ∧ d.laneState a b k = 0 ∧ d.laneIdle a b k = 3 then
      let d1 := (d.setPd .lnTestStatus_margin b margin.toNat k (1 + a)).setPd .fbLaneStatus_txIdle a 0 k b
      if margin.toNat < d.cfg .fbCtl_minMargin (b + 1) then d1.dropLane a b k 4 else d1.takeUp a b k
    else d) s

/-- LANE_LOCK_LOST: PDa loses block lock on a lane from PDb, and the lane is removed suddenly (R280). -/
def execLaneLockLost (a b : Die) (k : Fin 48) (s : State) : Host.Outcome State Fault Refusal :=
  onDev (fun d => if d.link a b ∧ d.laneState a b k ≤ 1 then d.dropLane a b k 3 else d) s

/-- The lane of a peer's notice leaves service at this die.  When cells wait on it, or the peer removed it suddenly, they move as
in a sudden removal; else the cell in serialization is still sent (R279, R280). -/
def Dev.peerNotice (d : Dev) (a b k : Nat) : Dev :=
  let st := d.laneState b a k
  if d.laneState a b k = 0 ∧ st ≠ 0 then
    let before := (d.inService a b).length
    let d1 := ((d.setLaneX { d.pairX a b k with waiting := none }).setLane a b k st).noteRemoval a b k
    let d2 := if st = 1 ∧ d.waitingOn a b k = [] then d1 else d1.shed a b k
    d2.minServiceTest a b before
  else d

/-- LANE_PEER_NOTICE: PDa learns that PDb took a lane pair out of service. -/
def execLanePeerNotice (a b : Die) (k : Fin 48) (s : State) : Host.Outcome State Fault Refusal :=
  onDev (fun d => if d.link a b then d.peerNotice a b k else d) s

/-- LANE_DRAIN_COMPLETE: the last waiting cell has been serialized, and the lane leaves service toward its next state
(R280, R281). -/
def execLaneDrainComplete (a b : Die) (k : Fin 48) (s : State) : Host.Outcome State Fault Refusal :=
  onDev (fun d =>
    if d.link a b ∧ d.laneState a b k = 1 ∧ d.onLane a b k = [] ∧ (d.laneState b a k = 1 → d.onLane b a k = []) then
      (d.pairTo a b k (d.pairX a b k).next).afterLeave a b k
    else d) s

/-- LANE_CALIBRATION_DONE: both receivers have adapted, with their margins (Table 13-1). -/
def execLaneCalibrationDone (a b : Die) (k : Fin 48) (marginA marginB : Byte) (s : State) :
    Host.Outcome State Fault Refusal :=
  onDev (fun d =>
    if d.link a b ∧ d.laneState a b k = 2 then
      let d1 := (d.setPd .lnTestStatus_margin a marginA.toNat k (1 + b)).setPd .lnTestStatus_margin b marginB.toNat k (1 + a)
      if marginA.toNat < d.cfg .fbCtl_minMargin (a + 1) ∨ marginB.toNat < d.cfg .fbCtl_minMargin (b + 1) then
        d1.laneLost a b k
      else d1.pairTo a b k 3
    else d) s

/-- A lane enters service with new baselines (R281). -/
def Dev.enterService (d : Dev) (a b k ma mb : Nat) : Dev :=
  let base := fun (d : Dev) (x y m : Nat) =>
    (((d.setPd .lnTestStatus_margin x m k (1 + y)).setPd .lnTestStatus_baseline x m k (1 + y)).setPd .fbLaneStatus_txIdle x 0 k
      y).raise x 0x0107 [(4, linkNo x y), (6, k), (8, m)]
  let clear := fun (d : Dev) (x y : Nat) => d.setLaneX { d.laneX x y k with strikes := 0, errs := [], noted := false }
  let d1 := clear (clear (base (base (d.setPair a b k 0) a b ma) b a mb) a b) b a
  (((d1.endLaneRequests a b k 1).takeUp a b k).takeUp b a k).wakeWaiting a b

/-- LANE_QUALIFY_DONE: the 1 ms of idle blocks ends, with the margins and whether a block error occurred. -/
def execLaneQualifyDone (a b : Die) (k : Fin 48) (marginA marginB : Byte) (blockError : Bool) (s : State) :
    Host.Outcome State Fault Refusal :=
  onDev (fun d =>
    if d.link a b ∧ d.laneState a b k = 3 then
      if blockError ∨ marginA.toNat < d.cfg .fbCtl_minMargin (a + 1) ∨ marginB.toNat < d.cfg .fbCtl_minMargin (b + 1) then
        d.laneLost a b k
      else d.enterService a b k marginA.toNat marginB.toNat
    else d) s

/-- FB_LANE_OUT: a write of OUT at one die (R286, Table 13-1). -/
def Dev.laneOut (d : Dev) (a b k : Nat) (out : Bool) : Dev :=
  let was := d.pd .fbLaneCtl_out a k b
  let d1 := d.setPd .fbLaneCtl_out a (b2n out) k b
  let st := d1.laneState a b k
  if out then
    (if st = 0 then d1.drainLane a b k 7 5
     else if st = 5 then d1
     else if st = 1 then (d1.setLaneX { d1.pairX a b k with next := 5 }).endLaneRequests a b k 3
     else ((d1.pairTo a b k 5).endLaneRequests a b k 3).wakeWaiting a b)
  else if was = 1 ∧ d1.outAsked a b k = false then
    (if st = 5 ∨ st = 6 then d1.pairTo a b k 2
     else if st = 1 ∧ (d1.pairX a b k).next = 5 then d1.setLaneX { d1.pairX a b k with next := 2 }
     else d1)
  else d1

/-- FB_LANE_OUT. -/
def execFbLaneOut (a b : Die) (k : Fin 48) (out : Bool) (s : State) : Host.Outcome State Fault Refusal :=
  onReg (a.val + 1) .fbLaneCtl k b 1 (fun d => if a ≠ b then d.laneOut a b k out else d) s

/-- Whether a lane in service may be taken out for a test or a calibration (R286, R291). -/
def Dev.mayTake (d : Dev) (a b k : Nat) : Bool :=
  d.laneState a b k = 0 && d.laneState b a k = 0 && d.outCount a b < 4 &&
    d.cfg .fbLinkCtl_minService (a + 1) b < (d.inService a b).length

/-- FB_LANE_CALIBRATE: a request of calibration (Table 13-4). -/
def Dev.laneCalibrate (d : Dev) (a b k : Nat) : Dev :=
  if d.mayTake a b k then (d.drainLane a b k 6 2).setPd .fbLaneCtl_calibrate a 1 k b
  else if d.laneState a b k = 6 then
    let d1 := d.pairTo a b k 2
    (d1.setLaneX { d1.pairX a b k with history := [], cause := 6 }).setPd .fbLaneCtl_calibrate a 1 k b
  else d.setPd .lnTestStatus_code a 2 k (1 + b)

/-- FB_LANE_CALIBRATE. -/
def execFbLaneCalibrate (a b : Die) (k : Fin 48) (s : State) : Host.Outcome State Fault Refusal :=
  onReg (a.val + 1) .fbLaneCtl k b 2 (fun d => if d.link a b then d.laneCalibrate a b k else d) s

/-! ### Drift (R284) -/

/-- A comparison of a fabric receiver's margin with its baseline. -/
def Dev.driftFabric (d : Dev) (a b k m : Nat) : Dev :=
  let d1 := d.setPd .lnTestStatus_margin a m k (1 + b)
  if d.laneState a b k ≠ 0 ∨ d.laneIdle b a k ≠ 0 then d1
  else
    let x := d1.laneX a b k
    let low := m + d.cfg .fbCtl_driftSteps (a + 1) < d.pd .lnTestStatus_baseline a k (1 + b)
    let n := if low then x.strikes + 1 else 0
    let d2 := d1.setLaneX { x with strikes := n }
    if 2 ≤ n then d2.wearLane a b k 1 else d2

/-- The port whose state a line lane asks about: that of a 400G port's first slot for its other three. -/
def Dev.slotPort (d : Dev) (s : Nat) : Nat := if sbSlot d.boot.sb s = .part then s / 4 * 4 else s

/-- A comparison of a line or continuity receiver: key names it, kind and index its event.  The first since it trained gives
its baseline (DESIGN CHOICE, log 99); a count of 3 is an episode already reported. -/
def Dev.driftOther (d : Dev) (die key kind i w steps m : Nat) : Dev :=
  let d1 := d.setFld .lnTestStatus_margin w i 0 m
  let base := d.fld .lnTestStatus_baseline w i
  let old := (aget d.fab.lineStrikes key).getD 0
  let fresh := (aget d.fab.lineStrikes key).isNone
  let put := fun (d : Dev) (n : Nat) => { d with fab := { d.fab with lineStrikes := aset d.fab.lineStrikes key n } }
  if fresh then (put d1 0).setFld .lnTestStatus_baseline w i 0 m
  else if m + steps < base then
    (if old = 0 then put d1 1
     else if old = 1 then (put d1 3).raise die 0x0109 [(2, kind), (16, i), (8, m), (8, base)]
     else d1)
  else if old = 3 then (if base ≤ m + steps / 2 then put d1 0 else d1)
  else put d1 0

/-- DRIFT_CHECK: the margins of a die's receivers.  Each is a kind (a peer 0–3, 4 a line lane, 5 a continuity lane of the
CD), a lane and its margin. -/
def execDriftCheck (n : Isl) (ms : List (Nat × Nat × Byte)) (s : State) : Host.Outcome State Fault Refusal :=
  onDev (fun d => ms.foldl (fun d e =>
    let m := e.2.2.toNat
    if n.val < 4 ∧ d.liveDie n = true then
      if e.1 < 4 then (if d.link n e.1 ∧ e.2.1 < 48 then d.driftFabric n e.1 e.2.1 m else d)
      else if e.1 = 4 ∧ e.2.1 < 32 ∧ d.pd .ptPortStatus_state n (d.slotPort (32 * n + e.2.1) % 32) = 6 then
        d.driftOther n (32 * n + e.2.1) 0 e.2.1 (n + 1) (d.cfg .fbCtl_driftSteps (n + 1)) m
      else d
    else if n.val = 4 ∧ e.1 = 5 ∧ e.2.1 < 4 then
      d.driftOther 6 (128 + e.2.1) 2 e.2.1 0 (d.cfg .fbCtl_driftSteps 1) m
    else d) d) s

end Sys2Proof.Machine
end

