-- ==== Sys2Proof/Machine/Handoff.lean ====
section
/-! DEFINITION. The hand-off of a frame (R141): sequence numbers (R155), policers (R233), source lookup (R176), duplicates
(R189–R191), VLAN check and destination lookup (R171, R172), storm control (R235) and the copies to make (R187, R190,
R208, R238). -/

namespace Sys2Proof.Machine

/-- What a frame's hand-off finds for its forwarding: the ports with the kind of each copy, the group whose plan orders
them, and whether they are discarded already. -/
structure Fwd where
  kinds : List (CopyKind × Nat) := []
  group : Option Nat := none
  deriving DecidableEq, Repr

/-! ### Sequence numbers and policers -/

/-- A draw from sequence counter i of a die (R155). -/
def Dev.drawSeq (d : Dev) (n i : Nat) : Nat × Dev :=
  let s := d.wide .aeSeq (n + 1) i
  (s, d.setWide .aeSeq (n + 1) i 0 (s + 1))

/-- The number a frame handed on with an RTAG request of mode 0 or 2 draws; mode 2 writes it into the tag. -/
def Dev.drawRtag (d : Dev) (f : Frame) : Dev × Frame :=
  match f.work.rtag with
  | some (m, i) =>
    if m = 0 ∨ m = 2 then
      let r := d.drawSeq f.die i
      let k := match f.work.tagAt with
        | some a => { f.work with win := patch f.work.win (a + 4) (toBytes (beBytes 2 r.1)) }
        | none => f.work
      (r.2, { f with seqNo := some r.1, work := k })
    else (d, f)
  | none => (d, f)

/-- The record of an object that charged a frame, under the frame's take. -/
def Dev.policerOf (d : Dev) (f : Frame) (h : Nat) : Option MeterRec :=
  match d.obj h f.take with
  | some o => (match o.data with | .meter r => if r.policer then some r else none | _ => none)
  | none => none

/-- The class actions of the policers in the order of their charges, and the first that discards (R233). -/
def Dev.police (d : Dev) (f : Frame) : Frame :=
  if f.work.dir = .drop then f
  else
    f.charges.foldl (fun f e =>
      match d.policerOf f e.1 with
      | some r =>
        if e.2 = 1 ∧ r.yellowAction = 1 then { f with work := { f.work with tc := r.yellowTc, tcSet := true } }
        else if e.2 = 2 ∧ r.redAction = 1 then { f with work := { f.work with tc := r.redTc, tcSet := true } }
        else if e.2 = 2 ∧ r.redAction = 0 ∧ f.dropRed = none then { f with dropRed := some e.1 }
        else f
      | none => f) f

/-- PO_RED_DROP of an instance advanced by one. -/
def redDrop (l : List MeterInst) (h n : Nat) : List MeterInst :=
  l.map (fun m => if m.h = h ∧ m.die = n then
    { m with cnt := (List.range 7).map (fun k => ((m.cnt[k]?).getD 0 + if k = 6 then 1 else 0) % 2 ^ 64) } else m)

/-- A frame that a policer discards counts once it is accepted (R19, R233). -/
def Dev.countRed (d : Dev) (f : Frame) : Dev :=
  match f.dropRed with
  | some h =>
    if f.whole then
      ({ d with plc := { d.plc with meters := redDrop d.plc.meters h f.die } }.raiseOnce f.die 0x0804 0 [(32, h)]).setFrame
        { f with dropRed := none }
    else d
  | none => d

/-! ### Destinations -/

/-- Whether a port takes part in flooding and groups for a frame (R172, R187). -/
def Dev.reachable (d : Dev) (f : Frame) (q : Nat) : Bool :=
  q ≠ f.port && d.portExists q && d.railOn (dieOf q) && d.portUp q

/-- The members of a group in the order of the copy plan: the die's own ports first, then the other dies' (R251). -/
def planOrder (n : Nat) (ms : List Nat) : List Nat :=
  let up := (List.range 133).filter (fun p => ms.contains p)
  (up.filter (fun p => dieOf p = n)) ++ ((List.range 4).filter (· ≠ n)).flatMap (fun m => up.filter (fun p => dieOf p = m))

/-- The copies to a set of ports. -/
def fwdTo (ps : List Nat) : List (CopyKind × Nat) := ps.map (fun p => (.fwd, p))

/-- The copies of a group for a frame, counted in FW_NO_DEST when there is none (R172, R187). -/
def Dev.groupCopies (d : Dev) (f : Frame) (h : Nat) (ms : List Nat) : Dev × Fwd :=
  let ps := (planOrder f.die ms).filter (d.reachable f)
  if ps = [] then (d.countFor f ⟨.fwNoDest, f.die + 1, 0, 0⟩, {}) else (d, { kinds := fwdTo ps, group := some h })

/-- The kind of a flooded frame in PO_STORM_TYPES (R235). -/
def stormKind (mac : Nat) : Nat := if mac = 0xFFFFFFFFFFFF then 0 else if isGroup mac then 1 else 2

/-- Storm control on a flooded frame: whether its forwarding copies are discarded. -/
def Dev.storm (d : Dev) (f : Frame) : Dev × Bool :=
  let n := f.die
  let s := idxOf f.port
  let c := f.work.tc
  if bitAt (d.cfg .poStormTypes_types (n + 1) s) (stormKind f.dest) = 1 ∧ d.cfg .poStorm_rate (n + 1) s c ≠ 0 then
    let need : Int := (chargeLen f * byteUnits : Nat)
    let have_ := d.bucket (.storm n s c)
    if have_ < need then
      ((d.countFor f ⟨.poStormDrop, n + 1, s, c⟩).raiseOnce n 0x0805 f.port [(8, f.port), (3, c)], true)
    else (d.setBucket (.storm n s c) (have_ - need), false)
  else (d, false)

/-- A flooded frame (R172, R235). -/
def Dev.floodCopies (d : Dev) (f : Frame) (member : Nat) : Dev × Frame × Fwd :=
  let d0 := d.bump .fwFlood (f.die + 1) 0 0 1
  let ps := (planOrder f.die (portSet member 133)).filter (d.reachable f)
  let f1 := { f with flooded := true }
  let r := d0.storm f
  if r.2 then (r.1, f1, {})
  else if ps = [] then (r.1.countFor f ⟨.fwNoDest, f.die + 1, 0, 0⟩, f1, {})
  else (r.1, f1, { kinds := fwdTo ps })

/-- The destination lookup (R171, Table 8-2). -/
def Dev.lookupDest (d : Dev) (f : Frame) : Dev × Frame × Fwd :=
  let n := f.die
  let count := fun (d : Dev) (x : Wide) => d.countFor f ⟨x, n + 1, 0, 0⟩
  let v := d.vlan n f.work.vid
  if !d.vlanPass f then (count d .fwVlanIngressDrop, f, {})
  else
    let key := fwKey v.fid f.dest
    let d0 := (d.pmc n 0x0B none none none 1).lookupParity n key
    match d0.lookupEnt n key f.take with
    | some (i, e) =>
      let d1 := if d0.cfg .fwCtl_dstRefresh (n + 1) = 1 ∧ e.static = false then d0.hitEnt n i e else d0
      let f1 := { f with
        stream := e.stream
        work := match e.cls with | some c => if f.work.tcSet then f.work else { f.work with tc := c } | none => f.work }
      match e.dest with
      | .port q =>
        if q = f.port then (count d1 .fwSamePortDrop, f1, {})
        else if bitAt v.member q = 0 then (count d1 .fwEgressFilterDrop, f1, {})
        else (d1, f1, { kinds := fwdTo [q] })
      | .group g =>
        match d1.plc.objs.find? (fun o => (match o.data with | .mcast k _ => k = g | _ => false) && o.v.applies f.take) with
        | some o =>
          match o.data with
          | .mcast _ ms => let r := d1.groupCopies f1 o.h ms; (r.1, f1, r.2)
          | _ => (d1, f1, {})
        | none => (count d1 .fwNoDest, f1, {})
      | .drop => (count d1 .fwStaticDrop, f1, {})
      | .host c => (d1, f1, { kinds := [(.host c, 132)] })
    | none =>
      if f.dest = 0xFFFFFFFFFFFF ∨ (isGroup f.dest = true ∧ v.floodMc = true) ∨ (isGroup f.dest = false ∧ v.floodUc = true) then
        d0.floodCopies f v.member
      else (count d0 .fwUnknownDrop, f, {})

/-- The forwarding copies of a frame by its directive (Table 7-5). -/
def Dev.forwardCopies (d : Dev) (f : Frame) : Dev × Frame × Fwd :=
  match f.work.dir with
  | .lookup => d.lookupDest f
  | .port q => (d, f, { kinds := fwdTo [q] })
  | .group h =>
    match d.obj h f.take with
    | some o =>
      match o.data with
      | .mcast _ ms => let r := d.groupCopies f h ms; (r.1, f, r.2)
      | _ => (d, f, {})
    | none => (d.countFor f ⟨.fwNoDest, f.die + 1, 0, 0⟩, f, {})
  | .host c => (d, f, { kinds := [(.host c, 132)] })
  | .drop => (d, f, {})

/-! ### Redundancy (R189, R190) -/

/-- The pass-through copy of an accepted tagged frame of an HSR port (R190). -/
def Dev.passThrough (d : Dev) (f : Frame) : List (CopyKind × Nat) :=
  let q := d.pairOf f.port
  let other := !isGroup f.dest &&
    (match d.lookupEnt f.die (fwKey (d.vlan f.die f.work.vid).fid f.dest) f.take with
     | some (_, e) => (match e.dest with | .port p => p ≠ q && p ≠ f.port | _ => false)
     | none => false)
  if other then [] else [(.ring, q)]

/-- The copies with the pair copies of PRP and HSR.  A frame that entered from the same HSR ring goes to the pair port
alone. -/
def Dev.addPairs (d : Dev) (f : Frame) (ks : List (CopyKind × Nat)) : List (CopyKind × Nat) :=
  ks.flatMap (fun k =>
    if k.1 = .fwd ∧ k.2 < 128 then
      let q := d.pairOf k.2
      let fromRing := d.prpMode f.port = 2 && (f.port = k.2 || f.port = q)
      if d.prpMode k.2 = 1 ∧ (match f.work.rtag with | some (m, _) => m = 0 | none => false) = true then [k, (.pair, q)]
      else if d.prpMode k.2 = 2 ∧ fromRing = false ∧ ks.contains (.fwd, q) = false then [k, (.pair, q)]
      else [k]
    else [k])

/-- Whether a frame carries an HSR tag as its program left it (R190). -/
def carriesHsr (f : Frame) : Bool := f.work.tagAt.isSome || (hsrTag f.work.win).isSome

/-- The numbers of untagged copies to HSR ports (R190): the first copy to a port or its pair draws from SEQ_INDEX of its port,
and the copy to the other port of the pair carries the same number.  `drawn` are the numbers drawn so far, by port. -/
def Dev.hsrNumbers (d : Dev) (f : Frame) (drawn : List (Nat × Nat)) :
    List (CopyKind × Nat) → List (CopyKind × Nat × Option Nat) × Dev
  | [] => ([], d)
  | k :: ks =>
    let strip := (match f.work.rtag with | some (m, _) => m = 3 | none => false)
    if (k.1 = .fwd ∨ k.1 = .pair) ∧ k.2 < 128 ∧ d.prpMode k.2 = 2 ∧ carriesHsr f = false ∧ strip = false then
      match aget drawn (d.pairOf k.2) with
      | some s =>
        let t := d.hsrNumbers f drawn ks
        ((k.1, k.2, some s) :: t.1, t.2)
      | none =>
        let x := d.drawSeq (dieOf k.2) (d.cfg .fwPrpCtl_seqIndex (k.2 / 32 + 1) (k.2 % 32))
        let t := x.2.hsrNumbers f ((k.2, x.1) :: drawn) ks
        ((k.1, k.2, some x.1) :: t.1, t.2)
    else
      let t := d.hsrNumbers f drawn ks
      ((k.1, k.2, none) :: t.1, t.2)

/-! ### Mirrors and slots -/

/-- The sessions a frame's program requested, as copies (R158). -/
def Dev.mirrorReqs (d : Dev) (f : Frame) (ms : List Nat) : List CopyReq :=
  ms.filterMap (fun m => (d.mirror? f.take m).map (fun r =>
    ({ kind := .mirror m, port := r.dest, tc := r.tc, trunc := r.trunc } : CopyReq)))

/-- The port sources added in session order while the frame has fewer than four mirror copies, each beyond counting
MI_EXCESS (R238). -/
def Dev.portMirrors (d : Dev) (f : Frame) (outs : List Nat) : List (Nat × Nat × MirrorRec) → List Nat → Dev × List Nat
  | [], ms => (d, ms)
  | (m, _, r) :: rest, ms =>
    if (r.inPorts.contains f.port || outs.any (fun q => r.outPorts.contains q)) && !ms.contains m then
      (if 4 ≤ ms.length then (d.countFor f ⟨.miCounters, f.die + 1, m, 3⟩).portMirrors f outs rest ms
       else d.portMirrors f outs rest (ms ++ [m]))
    else d.portMirrors f outs rest ms

/-- The next copy slot of a die's rotation. -/
def Dev.nextSlot (d : Dev) (n : Nat) : Nat × Dev :=
  let k := (aget d.net.copyRot n).getD 0
  (33 + k, { d with net := { d.net with copyRot := aset d.net.copyRot n ((k + 1) % 16) } })

/-- The copies with the slot of each: the first that is no mirror copy leaves from the frame's own input, every further one
from a copy slot, by the group's plan or in rotation (R208, R251). -/
def Dev.assignSlots (d : Dev) (f : Frame) (g : Option (Nat × Nat)) : List CopyReq → Nat → Bool → List CopyReq × Dev
  | [], _, _ => ([], d)
  | r :: rs, i, first =>
    let mirror := match r.kind with | .mirror _ => true | _ => false
    if first && !mirror then
      let t := d.assignSlots f g rs (i + 1) false
      ({ r with slot := inputOf f.port } :: t.1, t.2)
    else
      match g, mirror with
      | some (h, k), false =>
        let t := d.assignSlots f g rs (i + 1) first
        ({ r with slot := 33 + Config.copyPlan f.die h k i % 16, group := h } :: t.1, t.2)
      | _, _ =>
        let s := d.nextSlot f.die
        let t := s.2.assignSlots f g rs (i + 1) first
        ({ r with slot := s.1 } :: t.1, t.2)

/-- The group whose plan orders a frame's copies, with the number of times its die re-planned it. -/
def Dev.planOf (d : Dev) (f : Frame) (g : Option Nat) : Option (Nat × Nat) :=
  match g with | some h => (d.obj h f.take).map (fun o => (h, (aget o.plans f.die).getD 0)) | none => none

/-- A frame's copies: those of its forwarding, its host copy, its mirror copies and the copy of its malformed action. -/
def Dev.planCopies (d : Dev) (f : Frame) (w : Fwd) : Dev × Frame :=
  let nums := d.hsrNumbers f [] (d.addPairs f w.kinds)
  let outs := nums.1.map (fun k => k.2.1)
  let fw := nums.1.map (fun k => ({ kind := k.1, port := k.2.1, tc := f.work.tc, seq := k.2.2 } : CopyReq))
  let hostC := match f.work.hostReq with
    | some c => [({ kind := .host c, port := 132, tc := f.work.tc } : CopyReq)]
    | none => []
  let ms := nums.2.portMirrors f outs (nums.2.mirrors f.take) f.work.mirrors
  let r := ms.1.assignSlots f (d.planOf f w.group) (fw ++ hostC ++ ms.1.mirrorReqs f ms.2 ++ f.todo) 0 true
  (r.2, { f with todo := r.1, stage := .handed })

/-- A frame stands last among its die's frames, in the order of hand-off. -/
def Dev.moveLast (d : Dev) (f : Frame) : Dev :=
  { d with net := { d.net with frames := d.net.frames.filter (fun g => g.id ≠ f.id) ++ [f] } }

/-- The frame of a port that may be handed on: the oldest whose program has ended, when no earlier frame of the port is
still on its way (R141). -/
def Dev.nextHandoff (d : Dev) (p : Nat) : Option Frame :=
  match d.net.frames.find? (fun f => f.port = p && (f.stage = .arriving || f.stage = .parsed || f.stage = .looked ||
      f.stage = .ready || f.stage = .running || f.stage = .ended) && !f.control) with
  | some f => if f.stage = .ended ∧ (d.prpMode p = 1 → f.whole = true) then some f else none
  | none => none

/-- A frame planned, with the counters that wait for its tail, is handed on. -/
def Dev.putHanded (d : Dev) (f : Frame) : Dev :=
  d.moveLast (match d.frame? f.id with | some g => { f with onAccept := g.onAccept, onKnown := g.onKnown } | none => f)

/-- The copies of a tagged frame accepted on an HSR port: its pass-through copy goes unchanged, in place of a forwarding copy to
the same port (R190; DEDUCED, log 92). -/
def Dev.ringCopies (d : Dev) (f : Frame) (ks : List (CopyKind × Nat)) : List (CopyKind × Nat) :=
  let r := d.passThrough f
  if r = [] then ks else r ++ ks.filter (fun k => k ≠ (.fwd, d.pairOf f.port))

/-- The hand-off of a frame that goes to the lookup.  A frame already discarded counts in no second discard counter (R19,
R150). -/
def Dev.handoffFull (d : Dev) (f : Frame) : Dev :=
  let a := d.drawRtag f
  let f1 := a.1.police a.2
  let s := (a.1.countRed f1).sourceLookup f1
  let f2 := s.2.1
  let dup := s.1.dupReceive f2
  if dup.2.1 then
    let d1 := if f1.dropped then dup.1 else dup.1.countFor f2 ⟨.fwRedundancy, f2.die + 1, f2.port % 32, 0⟩
    (d1.putHanded { f2 with stage := .handed }).ingressLearn f2.id
  else if s.2.2 then
    let d1 := if f1.dropped then dup.1 else dup.1.countFor f2 ⟨.fwViolationDrop, f2.die + 1, 0, 0⟩
    (d1.putHanded { f2 with stage := .handed, todo := [] }).ingressLearn f2.id
  else
    let w := if f1.dropRed.isSome then (dup.1, f2, {}) else dup.1.forwardCopies f2
    let ks := w.2.2.kinds
    let kinds := if dup.2.2 then w.1.ringCopies w.2.1 ks else ks
    let r := w.1.planCopies w.2.1 { w.2.2 with kinds := kinds }
    (r.1.putHanded r.2).ingressLearn f2.id

/-- The hand-off of a frame: one discarded before the lookup has only its port's mirror copies and those of its malformed
action. -/
def Dev.handoff (d : Dev) (f : Frame) : Dev :=
  if f.silent then
    let k := { f.work with dir := .drop, mirrors := [], hostReq := none, rtag := none }
    let r := d.planCopies { f with work := k } {}
    r.1.putHanded r.2
  else d.handoffFull f

/-- ACTION_HANDOFF: the next frame of a port is handed on to the forwarding lookup (R141). -/
def execActionHandoff (p : Port) (s : State) : Host.Outcome State Fault Refusal :=
  onDev (fun d => match d.nextHandoff p with | some f => d.handoff f | none => d) s

end Sys2Proof.Machine
end

