-- ==== Sys2Proof/Machine/Front.lean ====
section
/-! DEFINITION. The front of the frame path: stamping (R129, R264), the walk and the malformed action (R96–R105),
classification (R117, R122), admission and cells (R196–R202), the end of reception (R71–R73, R78) and the service channel
(R85, R86, R129). -/

namespace Sys2Proof.Machine

/-! ### Stamping and the first class (R219, R171) -/

/-- The island whose time stamps a port: the ingress die's for a line port, the CD's for the others (Table 12-2). -/
def stampIsl (p : Nat) : Nat := if p < 128 then p / 32 else 4

/-- The fixed receive delay and trim of a line port, in 1/16 ns (R68, R69).  DESIGN CHOICE (log 87): RX_TRIM is added to the
stamp. -/
def Dev.rxOffset (d : Dev) (p : Nat) : Int :=
  if p < 128 then
    toSigned 16 (d.cfg .lnTsTrim_rxTrim (p / 32 + 1) (p % 32)) - ((Config.rxDelay p (d.portRate p)).toNat : Int)
  else 0

/-- An instant moved by sixteenths of a nanosecond and cut to them (R264). -/
def stampAt (t : Nat) (by16 : Int) : Nat := ((((t / 2 ^ 28 : Nat) : Int) + by16) % 2 ^ 68).toNat * 2 ^ 28

/-- The take that a die gives a frame of a line port stamped at an instant (R129): that of a sealed commit whose S is no
later, the one before the current take for a stamp earlier than its S, and else the current take. -/
def Dev.takeAt (d : Dev) (n t : Nat) : Nat :=
  match d.tak.commits.find? (fun c => c.step = .sealed && decide (0 ≤ instDiff t c.s)) with
  | some c => c.n
  | none =>
    let before := d.tak.live.dropLast.getLast?.getD (d.takeOf n)
    if d.tak.live.getLast? = some (d.takeOf n) ∧ instDiff t (d.wide .tkSwitchTime 0 * nsUnit) < 0 then before else d.takeOf n

/-- The first parsed VLAN tag of a frame: a header of class ETH that is 4 bytes long, by its tag control field. -/
def firstTag (g : List HType) (p : ParseRes) (bytes : List Byte) : Option Nat :=
  (p.stack.find? (fun h => h.len = 4 && hdrClass g h = .eth)).map (fun h => word0 bytes h.start)

/-- The initial class of a frame (R219). -/
def Dev.firstClass (d : Dev) (f : Frame) (tag : Option Nat) : Nat :=
  if f.port = 132 then f.work.tc
  else
    match tag with
    | some t => bits (d.cfg .egClassMap_pcpMap (f.die + 1) (idxOf f.port)) (3 * (t / 8192) + 2) (3 * (t / 8192))
    | none => d.cfg .egClassMap_defaultTc (f.die + 1) (idxOf f.port)

/-- The initial VID of a frame (R171). -/
def Dev.firstVid (d : Dev) (f : Frame) (tag : Option Nat) : Nat :=
  match tag with
  | some t => if t % 4096 = 0 then d.cfg .fwPortCtl_defaultVid (f.die + 1) (idxOf f.port) else t % 4096
  | none => d.cfg .fwPortCtl_defaultVid (f.die + 1) (idxOf f.port)

/-! ### Malformed frames (R97, R98, R104) -/

/-- The action that PS_MAL_ACTION and PS_MAL_MIRROR hold for a reason; Drop while either is in its safe state (Table
16-10). -/
def Dev.malActOf (d : Dev) (n r : Nat) : MalAct :=
  { action := if d.inSafe .psMalMirror (n + 1) then 0 else d.cfg .psMalAction_action (n + 1) r, tc := d.cfg .psMalAction_tc (n + 1) r,
    trace := d.cfg .psMalAction_trace (n + 1) r = 1, handle := d.cfg .psMalMirror_handle (n + 1) }

/-- The counts and reports of a malformed frame that its MAC accepted (R98, R104). -/
def Dev.malReport (d : Dev) (f : Frame) (a : MalAct) : Dev :=
  let n := f.die
  let s := idxOf f.port
  let d1 := (d.bump .psMalCount (n + 1) s f.parse.reason 1).pmc n 0x02 (some (pipeOf f.port)) none (some s) 1
  let d2 := (d1.setPd .psPortStatus_lastReason n f.parse.reason s).setPd .psPortStatus_malformedSticky n 1 s
  let c := (aget d2.net.malSum f.port).getD 0 + 1
  let d3 := { d2 with net := { d2.net with malSum := aset d2.net.malSum f.port c } }
  let t := d.pd .psPortCtl_thresh n s
  let d4 := if t ≠ 0 ∧ t ≤ c then d3.setPd .psPortStatus_exceededSticky n 1 s else d3
  if a.trace then
    d4.raise n 0x0301 [(8, f.port), (4, f.parse.reason), (16, f.parse.failIdx), (16, f.parse.failOff), (4, f.take)]
  else d4

/-- The copy that a malformed action calls for (Table 5-4). -/
def Dev.malCopy (d : Dev) (f : Frame) (a : MalAct) : Dev × List CopyReq :=
  match a.action with
  | 1 =>
    if f.port = 132 then (d.bump .psHostLoop (f.die + 1) 0 0 1, [])
    else (d, [{ kind := .host f.parse.reason, port := 132, tc := a.tc }])
  | 2 =>
    match (d.mirrors f.take).find? (fun m => m.2.1 = a.handle) with
    | some (m, _, r) => (d, [{ kind := .mirror m, port := r.dest, tc := r.tc, trunc := r.trunc }])
    | none =>
      ((d.setPd .psStatus_noSessionSticky f.die 1).raise f.die 0x0304 [(4, f.parse.reason), (32, a.handle)], [])
  | _ => (d, [])

/-- An early verdict on an accepted frame is reported and, but for Forward as is, acted on (R97, R99). -/
def Dev.malEarly (d : Dev) (f : Frame) (a : MalAct) : Dev :=
  let d1 := d.malReport f a
  if a.action = 3 then d1
  else
    let r := d1.malCopy f a
    match r.1.frame? f.id with
    | some g => r.1.setFrame { g with stage := .ended, silent := true, learnDone := true, todo := r.2,
                                      work := { g.work with dir := .drop } }
    | none => r.1

/-- A parity error met by a walk (R105). -/
def Dev.graphAlarm (d : Dev) (n port addr : Nat) : Dev :=
  (d.setPd .psStatus_graphParitySticky n 1).raise n 0x0303 [(2, pipeOf port), (32, addr)]

/-- A walk ended in a verdict.  Under Forward as is the frame goes to the lookup at once; every other action waits for the
MAC (R101). -/
def Dev.verdict (d : Dev) (f : Frame) (r : ParseRes) : Dev :=
  let a := d.malActOf f.die r.reason
  let d0 := if r.reason = 15 then d.graphAlarm f.die f.port r.badAddr else d
  let tag := firstTag d.boot.sb.graph r f.bytes
  let k := { f.work with stack := r.stack, payload := r.payload, tc := a.tc, vid := d.firstVid f tag }
  let f1 := { f with parse := r, mal := some a, learnDone := true, work := k, init := k,
                     stage := if a.action = 3 then .ended else .arriving }
  let d1 := d0.setFrame f1
  if f.whole then d1.malEarly f1 a else d1

/-- A frame of a port whose PS_PORT_CTL is in its safe state: malformed with reason PARSER_ERROR, and dropped (Table
16-10). -/
def Dev.verdictSafe (d : Dev) (f : Frame) : Dev :=
  let a : MalAct := { d.malActOf f.die 15 with action := 0 }
  let f1 := { f with parse := { malformed := true, reason := 15 }, mal := some a, learnDone := true }
  let d1 := d.setFrame f1
  if f.whole then d1.malEarly f1 a else d1

/-- A late verdict (R100): the copies made meet a bad outcome, and the action's own copy is made from the whole frame.  A
program that has not ended goes on, so that its meters and counters keep the frame. -/
def Dev.verdictLate (d : Dev) (f : Frame) (reason idx off : Nat) : Dev :=
  let a := d.malActOf f.die reason
  let f1 := { f with parse := { f.parse with malformed := true, reason := reason, failIdx := idx, failOff := off },
                     mal := some a, learnDone := true }
  let d1 := (d.setFrame f1).malReport f1 a
  if a.action = 3 then d1
  else
    let r := (d1.badOutcome f.id 1).malCopy f1 a
    match r.1.frame? f.id with
    | none => r.1
    | some g =>
      if g.stage = .handed ∨ g.stage = .replicated then
        let reqs := r.2.map (fun q => { q with slot := match q.kind with | .mirror _ => 33 | _ => inputOf f.port })
        r.1.moveLast { g with
          stage := .handed
          silent := true
          todo := reqs
          tailCopies := []
          onKnown := []
          work := { g.work with dir := .drop, mirrors := [], hostReq := none, rtag := none } }
      else r.1.setFrame { g with silent := true, todo := r.2 }

/-! ### The walk, the search and the start of the program -/

/-- The words of the graph memory of a die that are bad. -/
def Dev.badGraph (d : Dev) (n : Nat) : List Nat :=
  d.net.bad.filterMap (fun b => match b with | .graph m a => if m = n then some a else none | _ => none)

/-- A frame that parity discards (R118). -/
def Dev.parityDrop (d : Dev) (f : Frame) (c : ClsRes) : Dev :=
  let f1 := { f with cls := c, stage := .ended, silent := true, learnDone := true, work := { f.work with dir := .drop } }
  (d.setFrame f1).countFor f1 ⟨.clParityDrop, f.die + 1, 0, 0⟩

/-- The sticky flag, count and event of frames that wait for search rate (0), scan capacity (1) or action slots (2) on a
pipe (R113, R125, R160). -/
def Dev.slowNote (d : Dev) (n p k : Nat) : Dev :=
  match k with
  | 0 => d.setPd .clPipeStatus_rateSticky n 1 p
  | 1 => ((d.bump .clScanWait (n + 1) 0 0 1).setPd .clInspectStatus_scanWaitSticky n 1).raiseOnce n 0x0408 0 [(2, p)]
  | _ => (d.setBit .aeStatus_rateSticky (n + 1) 0 0 p).raiseOnce n 0x0504 0 [(2, p)]

/-- A frame waits in its port's receive path for supply k, and its class is paused meanwhile.  DESIGN CHOICE (log 86): it
waits until the next command that brings its port bytes or a cell. -/
def Dev.stall (d : Dev) (f : Frame) (k : Nat) : Dev :=
  ((d.setFrame { f with waiting := true, slow := f.slow - bitAt f.slow k * 2 ^ k }).slowNote f.die (pipeOf f.port) k).cellTest
    f.die f.port

/-- A classified frame has its program started, unless it waits for action slots (R139, R160). -/
def Dev.startOrWait (d : Dev) (f : Frame) : Dev :=
  let f1 := { f with stage := .ready }
  if bitAt f.slow 2 = 1 then d.stall f1 2 else (d.setFrame f1).startProgram f1

/-- The patterns of a searched frame are scanned once the bytes of its window have come (R122); only a frame that asked for
the scan waits for scan capacity (R125). -/
def Dev.scanStep (d : Dev) (f : Frame) (read : List BadWord) : Dev :=
  let f1 := { f with stage := .looked }
  if d.scanned f f.cls = false then d.startOrWait f
  else
    match d.scan f f.cls f.whole read with
    | none => d.setFrame f1
    | some r =>
      if bitAt f.slow 1 = 1 ∧ d.inspection f.port = false then d.stall f1 1
      else if r.2.2 then r.1.parityDrop f r.2.1
      else r.1.startOrWait { f with cls := r.2.1 }

/-- A parsed frame is searched (R112, R117, R119): a frame of a port in the associative memory may wait for search rate
(R113).  While CL_PORT_CTL of its port is in its safe state it is discarded with the miss result and ERR (Table 16-10). -/
def Dev.lookStep (d : Dev) (f : Frame) (read : List BadWord) : Dev :=
  let f1 := { f with stage := .parsed }
  if d.inSafe .clPortCtl (f.die + 1) (idxOf f.port) then d.parityDrop f { d.missResult f.die f.port with err := true }
  else if bitAt f.slow 0 = 1 ∧ d.inspection f.port = false then d.stall f1 0
  else
    let s := d.search f read
    if s.2.2 then s.1.parityDrop f s.2.1 else s.1.scanStep { f with cls := s.2.1 } read

/-- A frame whose head has come is parsed, as far as its bytes allow. -/
def Dev.parseNow (d : Dev) (f : Frame) (read : List BadWord) : Dev :=
  if f.control = true ∨ f.mal.isSome = true then d
  else if d.inSafe .psPortCtl (f.die + 1) (idxOf f.port) then d.verdictSafe f
  else
    let g := d.boot.sb.graph
    match parseFrame g (d.badGraph f.die) f.walkCfg.1 f.walkCfg.2 f.bytes f.whole with
    | none => d
    | some r =>
      let d1 := d.pmc f.die 0x01 (some (pipeOf f.port)) none (some (idxOf f.port)) 1
      if r.malformed then d1.verdict f r
      else
        let tag := firstTag g r f.bytes
        let k := { f.work with stack := r.stack, payload := r.payload, tc := d.firstClass f tag, vid := d.firstVid f tag }
        d1.lookStep { f with parse := r, work := k, init := k } read

/-- A frame passes as many of the front steps as its bytes allow. -/
def Dev.advance (d : Dev) (f : Frame) (read : List BadWord) : Dev :=
  match f.stage with
  | .arriving => d.parseNow f read
  | .parsed => d.lookStep f read
  | .looked => d.scanStep f read
  | .ready => d.startOrWait f
  | _ => d

/-- The oldest frame of a port that waits for a supply is served and goes on; its class is paused no longer for it. -/
def Dev.resume (d : Dev) (p : Nat) (read : List BadWord) : Dev :=
  match d.net.frames.find? (fun f => f.port = p && f.waiting) with
  | some f =>
    let f1 := { f with waiting := false }
    ((d.setFrame f1).cellTest f.die f.port).advance f1 read
  | none => d

/-- The walk of a frame begins with its port's START_TYPE and PAD_LIMIT (R102), and the frame is parsed. -/
def Dev.startWalk (d : Dev) (f : Frame) (read : List BadWord) : Dev :=
  let f1 := { f with
    stage := .arriving
    walkCfg := (d.cfg .psPortCtl_startType (f.die + 1) (idxOf f.port), d.cfg .psPortCtl_padLimit (f.die + 1) (idxOf f.port)) }
  (d.setFrame f1).parseNow f1 read

/-- The words a frame's lookups found bad are bad until they are rewritten. -/
def Dev.noteBad (d : Dev) (read : List BadWord) : Dev :=
  { d with net := { d.net with bad := d.net.bad ++ read.filter (fun b => !d.net.bad.contains b) } }

/-! ### Bytes of a frame -/

/-- A frame with bytes received: the MAC discards those after byte MAXLEN + 1 (R76), and a length/type of 0x8808 makes it a
MAC control frame (R78). -/
def Frame.receive (f : Frame) (b : List Byte) : Frame :=
  let k := b.take (f.maxlen + 1 - f.bytes.length)
  let all := f.bytes ++ k
  { f with bytes := all, excess := f.excess + (b.length - k.length),
           control := f.port ≠ 132 && 14 ≤ all.length && word0 all 12 = 0x8808,
           work := { f.work with win := f.work.win ++ k }, init := { f.init with win := f.init.win ++ k } }

/-- MAXLEN of a port (R72). -/
def Dev.maxlenOf (d : Dev) (p : Nat) : Nat :=
  if p < 128 then d.cfg .ptMacCtl_maxlen (p / 32 + 1) (p % 32)
  else if p < 132 then d.cfg .fpPortCtl_maxlen 0 (p - 128) else 10240

/-- A frame begins to arrive: its stamp, its take for a line port, and its head's walk. -/
def Dev.headArrival (d : Dev) (p : Nat) (head : List Byte) (back slow : Nat) (read : List BadWord) : Dev :=
  let n := dieOf p
  if !(d.liveDie n && d.portExists p && d.portUp p) || (d.arriving p).isSome then d
  else if 128 ≤ p ∧ d.inRun = false then d
  else if 128 ≤ p ∧ d.cd .fpPortStatus_bpActive (p - 128) = 1 ∧ d.fullDuplex p = false then { d with out := d.out ++ [.jam p] }
  else
    let m := d.maxlenOf p
    let t := stampAt (d.instant (stampIsl p)) (d.rxOffset p - back)
    let f0 : Frame := { id := d.net.nextId, die := n, port := p, take := d.takeAt n t, bytes := [], maxlen := m, stage := .cd,
                        slow := if p < 128 then slow else 0, stamp := t }
    let f1 := f0.receive head
    let d1 := d.noteBad read
    if p < 128 then
      ({ d1 with net := { d1.net with nextId := d1.net.nextId + 1, frames := d1.net.frames ++ [f1] } }).startWalk f1 read
    else
      let f2 := { f1 with noRoom := 32768 < d.fpFill p + m }
      ({ d1 with net := { d1.net with nextId := d1.net.nextId + 1, frames := d1.net.frames ++ [f2],
                                      fpMax := aset d1.net.fpMax p m } }).bpTest p

/-- FRAME_HEAD_ARRIVAL: a frame's head at a line or field port.  `back` is how long ago its first bit crossed the reference
point beyond the fixed delays, in 1/16 ns (R68); `slow` names the supplies a frame of a line port will wait for (bit 0 search
rate, 1 scan capacity, 2 action slots); `read` the words with bad parity that its walk or search reads. -/
def execFrameHeadArrival (p : Port) (head : List Byte) (back : Nat) (slow : Fin 8) (read : List BadWord) (s : State) :
    Host.Outcome State Fault Refusal :=
  onDev (fun d => if p.val < 132 then d.headArrival p head back slow read else d) s

/-! ### Cells and admission (R196–R202) -/

/-- The draw on a port's headroom with one more cell of class c (R201). -/
def Dev.headroomDraw (d : Dev) (n inp c : Nat) : Nat :=
  (List.range 8).foldl (fun a k =>
    a + (d.cellsIn n inp k + (if k = c then 1 else 0) - d.cfg .swClassCtl_xoff (n + 1) k)) 0

/-- The next frame of a port with a cell to write: one that has copies to carry and a complete cell. -/
def Dev.nextCell (d : Dev) (p : Nat) : Option Frame :=
  d.net.frames.find? (fun f => f.port = p && (f.stage = .handed || f.stage = .replicated) && !f.noRoom &&
    (f.todo ≠ [] || f.tailCopies ≠ [] || d.copiesOf f.id ≠ []) && f.cells < f.cellsNow)

/-- A frame is not admitted: it has no copies and counts once (R201, R202). -/
def Dev.notAdmitted (d : Dev) (f : Frame) (k : WKey) : Dev :=
  ((d.setFrame { f with noRoom := true, todo := [], tailCopies := [], stage := .replicated }).countFor f k).reap f.id

/-- The cells a frame's admission reserves (R202). -/
def admitCells (f : Frame) : Nat := (f.maxlen + 255) / 256

/-- A frame's next cell is written, and the first cell of a line port's frame admits it (R200–R202); other frames were
admitted as they entered the service channel. -/
def Dev.writeCell (d : Dev) (f : Frame) : Dev :=
  let n := f.die
  let c := f.work.tc
  let put := fun (g : Frame) =>
    ((d.setFrame { g with admitted := true, cells := g.cells + 1, reserved := g.reserved - 1 }).pmc n 0x0E
      none (some c) (some (idxOf f.port)) 1).cellTest n f.port
  if f.admitted ∨ 128 ≤ f.port then put f
  else if d.cellsFree n < admitCells f then
    ((d.setPd .swStatus_bufFullSticky n 1).raiseOnce n 0x0706 0 [(20, d.cellsFree n)]).notAdmitted f ⟨.swBufferFull, n + 1, 0, 0⟩
  else if d.cfg .swPortCtl_headroom (n + 1) (idxOf f.port) < d.headroomDraw n (inputOf f.port) c then
    (((d.setPd .swStatus_overrunSticky n 1).setPd .swPortStatus_overrunSticky n 1 (idxOf f.port)).raiseOnce n 0x0705 f.port
      [(8, f.port), (3, c)]).notAdmitted f ⟨.swHeadroomOverrun, n + 1, idxOf f.port, c⟩
  else put { f with reserved := admitCells f }

/-- Bytes of the frame a port is receiving arrive. -/
def Dev.moreBytes (d : Dev) (p : Nat) (b : List Byte) (read : List BadWord) : Dev :=
  match d.arriving p with
  | some f =>
    let f1 := f.receive b
    let d1 := d.setFrame f1
    if f.stage = .cd then d1.bpTest p else if f.waiting then d1 else d1.advance f1 read
  | none => d

/-- CELL_WRITTEN: a frame of a port that waits for a supply goes on, bytes of the frame in reception arrive, and the next
complete cell of the port's oldest frame with one is written. -/
def execCellWritten (p : Port) (more : Arrived) (s : State) : Host.Outcome State Fault Refusal :=
  onDev (fun d =>
    let d0 := (d.noteBad more.bad).resume p more.bad
    let d1 := if more.bytes = [] then d0 else d0.moreBytes p more.bytes more.bad
    match d1.nextCell p with | some f => d1.writeCell f | none => d1) s

/-! ### The end of reception (R71–R73, R78) -/

/-- The precedence of Table 4-1 that drops a frame of len bytes with its FCS, if any.  DESIGN CHOICE (log 88): a frame that
is not a whole octet counts RX_ALIGN_ERROR though its FCS is good. -/
def macVerdict (f : Frame) (line : Bool) (len : Nat) (fcsOk octets codeErr validPfc : Bool) : Option Nat :=
  if line && codeErr then some 4
  else if len < 64 then (if fcsOk && octets then some 7 else some 6)
  else if f.maxlen < len then some 8
  else if !octets then some 9
  else if !fcsOk then some 10
  else if !line && f.noRoom && f.stage = .cd then some 11
  else if f.control && !validPfc then some 12
  else none

/-- Whether a control frame of good FCS is a valid PFC frame (R78). -/
def validPfc (f : Frame) : Bool :=
  f.control && f.bytes.length + 4 = 64 && beNat (f.bytes.take 6) = 0x0180C2000001 && word0 f.bytes 14 = 0x0101

/-- The classes a port honours pause for (R78). -/
def Dev.honours (d : Dev) (p : Nat) : Nat :=
  if p < 128 then d.cfg .ptPfcCtl_rxEn (p / 32 + 1) (p % 32) else if d.fullDuplex p then 0xFF else 0

/-- A valid PFC frame is consumed (R78). -/
def Dev.takePfc (d : Dev) (f : Frame) : Dev :=
  let p := f.port
  let d1 := (d.stat p 0x05 1).dropFrame f.id
  let on := d.honours p
  let x := d1.tx p
  let v := word0 f.bytes 16
  let cs := (List.range 8).filter (fun c => bitAt v c = 1 && bitAt on c = 1)
  let rel := cs.filter (fun c => word0 f.bytes (18 + 2 * c) = 0)
  let hold := cs.filter (fun c => word0 f.bytes (18 + 2 * c) ≠ 0)
  d1.setTx p { x with held := (x.held.filter (fun c => !rel.contains c)) ++ hold.filter (fun c => !x.held.contains c),
                      heldSaid := x.heldSaid.filter (fun c => !rel.contains c) }

/-- The late verdict that the tail of an accepted frame shows, if any (R94, R99). -/
def Dev.tailLate (d : Dev) (f : Frame) : Dev :=
  if f.stage ≠ .arriving ∧ f.parse.tailPending = true then
    match tailVerdict f.parse f.walkCfg.2 f.bytes.length with
    | some (r, i, o) => d.verdictLate f r i o
    | none => d
  else d

/-- The tail checks of the parser on an accepted frame (R94, R99): a frame with an early verdict has none.  A frame whose walk
or window lacked bytes then goes on. -/
def Dev.tailChecks (d : Dev) (f : Frame) (read : List BadWord) : Dev :=
  match f.mal with
  | some a => d.malEarly f a
  | none =>
    let d1 := d.tailLate f
    match d1.frame? f.id with
    | some g => if (g.stage = .arriving ∨ g.stage = .looked) ∧ g.waiting = false then d1.advance g read else d1
    | none => d1

/-- The counters that waited for a frame's acceptance count (R19). -/
def Dev.countAccepted (d : Dev) (f : Frame) : Dev := f.onAccept.foldl (fun d k => d.bump k.x k.w k.i k.j 1) d

/-- The byte halves of the counter entries that a frame's program counted it in while its length was not known (R156). -/
def Dev.countTail (d : Dev) (f : Frame) : Dev :=
  f.counts.foldl (fun d e => d.countBlock e.1 e.2.1 e.2.2 0 f.lenNow) (d.setFrame { f with counts := [] })

/-- A frame's late verdict is known: its store-and-forward places are copies now, and those discarded before count
(R199). -/
def Dev.tailKnown (d : Dev) (id : Nat) : Dev :=
  match d.frame? id with
  | some f => f.onKnown.foldl (fun d k => d.bump k.x k.w k.i k.j 1) (d.setFrame { f with known := true, onKnown := [] })
  | none => d

/-- The host copies that waited for a frame's length go to the replicator (R236). -/
def Dev.tailHost (d : Dev) (id : Nat) : Dev :=
  match d.frame? id with
  | some f =>
    if f.tailCopies = [] then d
    else
      let f1 := { f with todo := f.todo ++ f.tailCopies, tailCopies := [] }
      if f.stage = .replicated then d.moveLast { f1 with stage := .handed } else d.setFrame f1
  | none => d

/-- A frame's MAC accepts it. -/
def Dev.accept (d : Dev) (f : Frame) (read : List BadWord) : Dev :=
  let f0 := { f with whole := true, onAccept := [] }
  let f1 := { f0 with reserved := min f.reserved (f0.cellsNow - f.cells) }
  let d1 := ((d.setFrame f1).rxStats f.port (f.bytes.length + 4) (beNat (f.bytes.take 6))).countAccepted f
  let d2 := if f.stage = .handed ∨ f.stage = .replicated then
      d1.countRed f1 else d1
  let f2 := (d2.frame? f.id).getD f1
  let d3 := if f2.stage = .cd then d2.bpTest f.port else d2.tailChecks f2 read
  (((d3.tailKnown f.id).ingressLearn f.id).tailHost f.id).reap f.id

/-- The codewords that RS-FEC of a line port corrected and could not correct count (R55, Table 18-1). -/
def Dev.fecStats (d : Dev) (p : Nat) (fec : Nat × Nat) : Dev :=
  if p < 128 ∧ d.portFec p ≠ 0 then (d.stat p 0x3C fec.1).stat p 0x3D fec.2 else d

/-- The end of the frame that a port is receiving. -/
def Dev.tailEnd (d : Dev) (p : Nat) (rest : List Byte) (fcsOk octets codeErr falseCarrier : Bool) (read : List BadWord) : Dev :=
  match d.arriving p with
  | none => if falseCarrier ∧ 128 ≤ p ∧ p < 132 ∧ d.portUp p = true ∧ d.inRun = true then d.macDrop p 5 0 else d
  | some f0 =>
    let g := f0.receive rest
    let len := g.lenNow
    let d0 := d.countTail g
    let f := { g with counts := [] }
    match macVerdict f (p < 128) len fcsOk (octets || p < 128) codeErr (validPfc f) with
    | some k => d0.macDropFrame f k (if k = 12 then 0 else len) 0
    | none => if f.control then d0.takePfc f else d0.accept f read

/-- FRAME_TAIL_END: the last bytes before the FCS arrive and the MAC judges the frame. -/
def execFrameTailEnd (p : Port) (rest : Arrived) (fcsOk octets : Bool) (code : Coding) (falseCarrier : Bool) (s : State) :
    Host.Outcome State Fault Refusal :=
  onDev (fun d =>
    if p.val < 132 then
      (((d.noteBad rest.bad).fecStats p code.fec).resume p rest.bad).tailEnd p rest.bytes fcsOk octets code.errors
        falseCarrier rest.bad
    else d) s

/-! ### The service channel (R129, R203) -/

/-- Whether the service input takes a frame: none of its classes is stalled and the global request does not hold. -/
def Dev.serviceOpen (d : Dev) : Bool := d.pd .swPortStatus_xoff 0 36 = 0 && d.pd .swStatus_globalXoff 0 = 0

/-- A frame of a field port or the host port as it enters the service channel: with the take then current on PD0 (R129) and
admitted, the cells it may need reserved (R202). -/
def Dev.serviceFrame (d : Dev) (f : Frame) (slow : Nat) : Frame :=
  { f with take := d.takeOf 0, slow := slow, admitted := true, reserved := if f.whole then f.cellsNow else admitCells f }

/-- SERVICE_CHANNEL_ENTRY: the oldest frame a field port holds in the CD enters the service channel, toward
pipe 0 of PD0. -/
def execServiceChannelEntry (p : Port) (meets : Entered) (s : State) : Host.Outcome State Fault Refusal :=
  onDev (fun d =>
    match d.net.frames.find? (fun f => f.port = p.val && f.stage = .cd) with
    | some f =>
      if d.serviceOpen ∧ d.liveDie 0 = true ∧ f.control = false ∧ f.noRoom = false ∧ (14 ≤ f.bytes.length ∨ f.whole = true) ∧
          admitCells f ≤ d.cellsFree 0 then
        ((d.noteBad meets.bad).startWalk (d.serviceFrame f meets.slow) meets.bad).bpTest p
      else d
    | none => d) s

end Sys2Proof.Machine
end

