-- ==== Sys2Proof/Machine/SwitchCore.lean ====
section
/-! DEFINITION. The switch core's scheduling: tokens (R204), the rounds of a cell time (R205–R207), age limits (R209, R210),
holds (R212) and fabric cells (R215, R280, R285). -/

namespace Sys2Proof.Machine

/-! ### Age limits (R209, R210) -/

/-- The age of a frame on a die in ns: signed32(t[31:0] − TS32). -/
def Dev.ageOf (d : Dev) (n : Nat) (f : Frame) : Int :=
  toSigned 32 (d.now n % 2 ^ 32 + 2 ^ 32 - f.stamp / 2 ^ 32 % 2 ^ 32)

/-- Whether an age exceeds a limit in µs or is negative. -/
def ageBad (age : Int) (limit : Nat) : Bool := age < 0 || (limit * 1000 : Nat) < age

/-- Whether a copy of class c is past its limit on a die. -/
def Dev.tooOld (d : Dev) (n c : Nat) (f : Frame) : Bool :=
  d.cfg .swAgeLimit_limit (n + 1) c ≠ 0 && ageBad (d.ageOf n f) (d.cfg .swAgeLimit_limit (n + 1) c)

/-- A copy is discarded for age on a die. -/
def Dev.ageDiscard (d : Dev) (n : Nat) (c : Copy) : Dev :=
  (d.discard c ⟨.swAgeDiscard, n + 1, c.port, c.tc⟩).raiseOnce n 0x0704 0 [(8, c.port), (3, c.tc)]

/-- The head copies of the VOQs of a die. -/
def Dev.heads (d : Dev) (n : Nat) : List Copy :=
  d.net.copies.filter (fun c => !c.deferred &&
    (match (d.voq n c.slot c.port c.tc).head? with | some h => h.id = c.id | none => false))

/-- A head copy is checked against its age limit, unless its transmission has begun. -/
def Dev.ageCheck (d : Dev) (n : Nat) (c : Copy) : Dev :=
  match d.frame? c.frame with
  | some f => if !c.tx && d.tooOld n c.tc f then d.ageDiscard n c else d
  | none => d

/-- HEAD_SCAN: the head copy of every VOQ of a die is checked (R209). -/
def execHeadScan (n : Die) (s : State) : Host.Outcome State Fault Refusal :=
  onDev (fun d => if d.liveDie n then (d.heads n).foldl (fun d c => d.ageCheck n c) d else d) s

/-! ### Slots and tokens (R197, R204) -/

/-- The port a line slot belongs to. -/
def Dev.portOfSlot (d : Dev) (o : Nat) : Nat :=
  if o < 128 then (match sbSlot d.boot.sb o with | .part | .g400 => o / 4 * 4 | _ => o) else 128

/-- The output slots of a die: the slots of its ports, and on PD0 the service slot 128. -/
def Dev.outSlots (d : Dev) (n : Nat) : List Nat :=
  ((List.range 32).map (fun s => 32 * n + s)).filter (fun o => sbSlot d.boot.sb o ≠ .unused) ++ (if n = 0 then [128] else [])

/-- The inputs of a die's scheduler: its line slots, the service input 32, the copy slots 33–48. -/
def Dev.inSlots (d : Dev) (n : Nat) : List Nat :=
  ((List.range 32).filter (fun s => sbSlot d.boot.sb (32 * n + s) ≠ .unused)) ++ (if n = 0 then [32] else []) ++
    (List.range 16).map (· + 33)

/-- The input whose VOQs a scheduler input serves. -/
def Dev.voqSlot (d : Dev) (n i : Nat) : Nat := if i < 32 then d.portOfSlot (32 * n + i) % 32 else i

/-- The head of a VOQ when its next cell may be requested (R199, R209). -/
def Dev.ready (d : Dev) (n slot port c : Nat) : Option Copy :=
  match (d.voq n slot port c).head? with
  | some h =>
    match d.frame? h.frame with
    | some f => if copyEligible f h && h.sent < f.cells then some h else none
    | none => none
  | none => none

/-- Whether a die reports demand for an output and class: the next cell of one of its VOQs toward them may be requested. -/
def Dev.demand (d : Dev) (n port c : Nat) : Bool :=
  d.net.copies.any (fun x => outOf x.port = outOf port && x.tc = c && (d.ready n x.slot port c).isSome)

/-- The cells of a class that stand in egress queues and came through an output slot (R220). -/
def Dev.slotCells (d : Dev) (o c : Nat) : Nat :=
  d.net.copies.foldl (fun a x => if x.tc = c then a + (x.got.filter (fun g => g.2 = o)).length else a) 0

/-- The outstanding tokens of an output slot and class. -/
def Dev.outstanding (d : Dev) (o c : Nat) : Nat := (d.net.tokens.filter (fun t => t.slot = o && t.tc = c)).length

/-- The first of the dies at or after a pointer that reports demand. -/
def Dev.nextDemand (d : Dev) (p port c : Nat) : Option Nat :=
  ((List.range 4).map (fun k => (p + k) % 4)).find? (fun m => d.liveDie m && d.demand m port c)

/-- The tokens of an output slot for one class, at most k of them, and what is left of the cell time's two. -/
def Dev.issueClass (d : Dev) (o c : Nat) : Nat → Dev × Nat
  | 0 => (d, 0)
  | k + 1 =>
    let q := d.portOfSlot o
    if d.slotCells o c + d.outstanding o c < 64 then
      match d.nextDemand (sumOf d.net.rr o c) q c with
      | some m =>
        let net := { d.net with
          tokens := d.net.tokens ++ [{ slot := o, tc := c, holder := m }]
          rr := (o, c, (m + 1) % 4) :: d.net.rr.filter (fun e => !(e.1 = o && e.2.1 = c)) }
        Dev.issueClass { d with net := net } o c k
      | none => (d, k + 1)
    else (d, k + 1)

/-- How many tokens an output slot is offered in a cell time: two, or one at the port's own rate below 100G (R197). -/
def Dev.tokenBudget (d : Dev) (n o : Nat) : Nat :=
  let r := if o < 128 then d.portRate (d.portOfSlot o) else 100000
  let k := (aget d.net.cellNo n).getD 0
  if 100000 ≤ r then 2 else (k + 1) * r / 100000 - k * r / 100000

/-- The tokens a die issues in a cell time, each slot's in descending class order (R204). -/
def Dev.issueTokens (d : Dev) (n : Nat) : Dev :=
  (d.outSlots n).foldl (fun d o =>
    ((List.range 8).foldl (fun (a : Dev × Nat) i => a.1.issueClass o (7 - i) a.2) (d, d.tokenBudget n o)).1) d

/-- Whether a token has reached its holder: its own die in the next cell time, another within two, until it is 4 old. -/
def Token.usable (t : Token) (owner : Nat) : Bool :=
  t.age ≤ 4 && (if owner = t.holder then 1 ≤ t.age else 2 ≤ t.age)

/-- The die that owns an output slot. -/
def slotDie (o : Nat) : Nat := if o < 128 then o / 32 else 0

/-- The usable tokens a die holds for an output slot and class. -/
def Dev.heldTokens (d : Dev) (n o c : Nat) : Nat :=
  (d.net.tokens.filter (fun t => t.slot = o && t.tc = c && t.holder = n && t.usable (slotDie o))).length

/-- The list without the first element that satisfies a test. -/
def dropFirst {α : Type} (p : α → Bool) : List α → List α
  | [] => []
  | a :: t => if p a then t else a :: dropFirst p t

/-! ### One cell time (R205–R207) -/

/-- A cell of a copy that came through an output slot is held at the egress die, where the cells are put in order again (R15,
R220). -/
def Dev.arriveCell (d : Dev) (c : Copy) (cell o : Nat) : Dev :=
  let d1 := d.setCopy { c with got := c.got ++ [(cell, o)] }
  match d1.frame? c.frame with
  | some f => d1.placeCopies (d1.unplaced f.die c)
  | none => d1

/-- The cells a link can begin within the cell time, which lasts 10 ticks and a part: one for each awake lane that has nothing
left to serialize by then (R206). -/
def Dev.room (d : Dev) (a b : Nat) : Nat :=
  ((d.awake a b).filter (fun k => (d.laneCells a b k).all (fun x => x.2 + 33 ≤ d.ticks a + 10))).length

/-- An input sends the next cell of its VOQ toward an output slot and class, and its token is spent. -/
def Dev.sendCell (d : Dev) (n i o c : Nat) : Dev :=
  match d.ready n (d.voqSlot n i) (d.portOfSlot o) c with
  | none => d
  | some h =>
    let e := slotDie o
    let d1 := { d with net := { d.net with
      tokens := dropFirst (fun t => t.slot = o && t.tc = c && t.holder = n && t.usable e) d.net.tokens } }
    let d2 := d1.pmc n 0x0F none (some c) (some (idxOf h.port)) 1
    let last := match d.frame? h.frame with | some f => copyWhole f h && copyCells f h ≤ h.sent + 1 | none => false
    let d3 :=
      if e = n then d2.arriveCell { h with sent := h.sent + 1 } h.sent o
      else
        let d2 := d2.offer n e
        match d2.bestLane n e (d2.awake n e) with
        | some k =>
          let x := (d2.setCopy { h with sent := h.sent + 1 }).putFlight
            { copy := h.id, cell := h.sent, slot := o, src := n, dst := e, lane := k, last := last }
          { x with fab := { x.fab with sent := sumAdd x.fab.sent n e } } |> fun y => y.pmc n 0x10 none none none 1
        | none => d1
    match d3.frame? h.frame with
    | some f => d3.cellTest f.die f.port
    | none => d3

/-- Whether an input may ask for an output: it is on the die, or its link has room. -/
def Dev.reaches (d : Dev) (n o : Nat) : Bool := slotDie o = n || 0 < d.room n (slotDie o)

/-- The highest class in which an input can ask for an output slot. -/
def Dev.askClass (d : Dev) (n i o : Nat) : Option Nat :=
  ((List.range 8).map (7 - ·)).find? (fun c =>
    0 < d.heldTokens n o c && (d.ready n (d.voqSlot n i) (d.portOfSlot o) c).isSome)

/-- The output slots for which a die holds tokens. -/
def Dev.tokenSlots (d : Dev) (n : Nat) : List Nat := ((d.net.tokens.filter (fun t => t.holder = n)).map (·.slot)).eraseDups

/-- The requests of the free inputs: input, output slot, class. -/
def Dev.requests (d : Dev) (n : Nat) (free : List Nat) : List (Nat × Nat × Nat) :=
  free.flatMap (fun i => (d.tokenSlots n).filterMap (fun o =>
    match d.askClass n i o with | some c => if d.reaches n o then some (i, o, c) else none | none => none))

/-- The best of some candidates: the highest class, then the first at or after a pointer. -/
def bestOf (key : Nat × Nat × Nat → Nat) (size ptr : Nat) : List (Nat × Nat × Nat) → Option (Nat × Nat × Nat)
  | [] => none
  | a :: t =>
    match bestOf key size ptr t with
    | none => some a
    | some b =>
      if a.2.2 < b.2.2 ∨ (a.2.2 = b.2.2 ∧ (key b + size - ptr) % size < (key a + size - ptr) % size) then some b else some a

/-- The grants of one output slot while tokens of it remain unpromised. -/
def grantsOf (ptr : Nat) (tok : Nat → Nat) : Nat → List (Nat × Nat × Nat) → List (Nat × Nat × Nat)
  | 0, _ => []
  | fuel + 1, rs =>
    match bestOf (·.1) 49 ptr rs with
    | none => []
    | some r =>
      let rest := rs.filter (· ≠ r)
      if tok r.2.2 = 0 then grantsOf ptr tok fuel rest
      else r :: grantsOf ptr (fun c => if c = r.2.2 then tok c - 1 else tok c) fuel rest

/-- Whether the first cell of a head copy would be requested. -/
def Dev.wouldAsk (d : Dev) (n : Nat) (c : Copy) : Bool :=
  c.sent = 0 && (d.ready n c.slot c.port c.tc).isSome &&
    (d.tokenSlots n).any (fun o => d.portOfSlot o = outOf c.port && 0 < d.heldTokens n o c.tc)

/-- The head copies whose first cell would be requested are checked for age, and the heads behind those discarded (R209). -/
def Dev.ageRequested (d : Dev) (n : Nat) : Nat → Dev
  | 0 => d
  | fuel + 1 =>
    match (d.heads n).find? (fun c => d.wouldAsk n c &&
        (match d.frame? c.frame with | some f => d.tooOld n c.tc f | none => false)) with
    | some c => (d.ageDiscard n c).ageRequested n fuel
    | none => d

/-- One round of request, grant and accept: the device, and the inputs still free.  The heads it would request are checked for
age first. -/
def Dev.round (d0 : Dev) (n : Nat) (first : Bool) (free : List Nat) : Dev × List Nat :=
  let d := d0.ageRequested n d0.net.copies.length
  let rs := d.requests n free
  let d1 := rs.foldl (fun d r => d.pmc n 0x12 none (some r.2.2) none 1) d
  let gs := (d.tokenSlots n).flatMap (fun o =>
    grantsOf (sumOf d.net.gptr n o) (d.heldTokens n o) 64 (rs.filter (fun r => r.2.1 = o)))
  let d2 := gs.foldl (fun d r => d.pmc n 0x13 none (some r.2.2) none 1) d1
  free.foldl (fun (a : Dev × List Nat) i =>
    match bestOf (·.2.1) 129 (sumOf d.net.aptr n i) (gs.filter (fun r => r.1 = i)) with
    | some (_, o, c) =>
      if (a.1.ready n (a.1.voqSlot n i) (a.1.portOfSlot o) c).isSome then
        let x := a.1
        let y := if first then
            { x with net := { x.net with
                gptr := (n, o, (i + 1) % 49) :: x.net.gptr.filter (fun e => !(e.1 = n && e.2.1 = o))
                aptr := (n, i, (o + 1) % 129) :: x.net.aptr.filter (fun e => !(e.1 = n && e.2.1 = i)) } }
          else x
        ((y.pmc n 0x14 none (some c) none 1).sendCell n i o c, a.2.filter (· ≠ i))
      else a
    | none => a) (d2, free)

/-- The cut-through copy in progress of an input whose next cell is complete, with an output slot whose token it holds
(R207). -/
def Dev.inProgress (d : Dev) (n i : Nat) : Option (Nat × Nat) :=
  d.net.copies.findSome? (fun x =>
    if x.slot = d.voqSlot n i && !x.sf && x.sent ≠ 0 then
      match d.ready n x.slot x.port x.tc with
      | some h =>
        if h.id = x.id then
          ((d.tokenSlots n).find? (fun o => d.portOfSlot o = outOf x.port && 0 < d.heldTokens n o x.tc && d.reaches n o)).map
            (fun o => (o, x.tc))
        else none
      | none => none
    else none)

/-- The copies in progress go before any other cell of their input. -/
def Dev.serveCut (d : Dev) (n : Nat) : List Nat → Dev × List Nat
  | [] => (d, [])
  | i :: is =>
    match d.inProgress n i with
    | some (o, c) => (d.sendCell n i o c).serveCut n is
    | none => let r := d.serveCut n is; (r.1, i :: r.2)

/-- Every link toward which an eligible cell holds a token is offered it (R282). -/
def Dev.offers (d : Dev) (n : Nat) : Dev :=
  (((d.tokenSlots n).filter (fun o => slotDie o ≠ n &&
      (d.inSlots n).any (fun i => (d.askClass n i o).isSome))).map slotDie).eraseDups.foldl (fun d e => d.offer n e) d

/-- CELL_TIME: one cell time of a die: its tokens age, it issues tokens for its own output slots, and its scheduler runs
three rounds. -/
def Dev.cellTime (d : Dev) (n : Nat) : Dev :=
  let older : Token → Token := fun t => if t.holder = n then { t with age := t.age + 1 } else t
  let aged : Dev := { d with net := { d.net with tokens := d.net.tokens.map older } }
  let d1 := ((aged.ageRequested n aged.net.copies.length).issueTokens n).offers n
  let d2 := { d1 with net := { d1.net with cellNo := aset d1.net.cellNo n ((aget d1.net.cellNo n).getD 0 + 1) } }
  let a := d2.serveCut n (d2.inSlots n)
  let r1 := a.1.round n true a.2
  let r2 := r1.1.round n false r1.2
  (r2.1.round n false r2.2).1

/-- CELL_TIME. -/
def execCellTime (n : Die) (s : State) : Host.Outcome State Fault Refusal :=
  onDev (fun d => if d.liveDie n then d.cellTime n else d) s

/-- TOKEN_EXPIRE: a token of a die unused 4 cell times after its issue expires (R204). -/
def execTokenExpire (n : Die) (o : Fin 129) (c : Tc) (s : State) : Host.Outcome State Fault Refusal :=
  onDev (fun d =>
    let old := fun t : Token => t.slot = o.val && t.tc = c.val && t.holder = n.val && 4 ≤ t.age
    if d.net.tokens.any old then
      ({ d with net := { d.net with tokens := dropFirst old d.net.tokens } }).pmc (slotDie o) 0x15 none (some c.val) none 1
    else d) s

/-- REPLICATE: a cell time of a die's replicator (R208). -/
def execReplicate (n : Die) (s : State) : Host.Outcome State Fault Refusal :=
  onDev (fun d => if d.liveDie n then d.replicateAll (d.toReplicate n) 64 else d) s

/-- HOLD_EXPIRE: a class's port-down hold ends with the port still down (R212). -/
def execHoldExpire (q : Port) (c : Tc) (s : State) : Host.Outcome State Fault Refusal :=
  onDev (fun d => if d.outBit .swPortStatus_holding q c then d.endHold q c else d) s

/-! ### Fabric cells (R215, R280, R285) -/

/-- A copy with a bad or missing cell (R214, R215). -/
def Dev.badCell (d : Dev) (copy : Nat) : Dev :=
  match d.net.copies.find? (fun c => c.id = copy) with
  | some c =>
    match d.frame? c.frame with
    | some f => d.endBad f c 3
    | none => d
  | none => d

/-- A failed check of a lane's cell counts toward its removal (R285). -/
def Dev.laneError (d : Dev) (a b k : Nat) : Dev :=
  let x := d.laneX b a k
  let now := d.ticks b
  let errs := now :: x.errs.filter (fun t => now < t + 500000)
  let d1 := (d.setLaneX { x with errs := errs }).bump .fbCellErrors (b + 1) k a 1
  if d.cfg .fbCtl_cellErrLimit (b + 1) ≤ errs.length then d1.wearLane b a k 2 else d1

/-- FABRIC_CELL_RECEIVE: the next cell of a lane from PDa arrives at PDb and is checked. -/
def Dev.fabricReceive (d : Dev) (a b k : Nat) (ok : Bool) : Dev :=
  match (if d.laneState b a k ≤ 1 then d.onLane a b k else []) with
  | [] => d
  | x :: _ =>
    let d1 := ({ d with net := { d.net with flights := dropFirst (fun y => y = x) d.net.flights } } : Dev).pmc b 0x11 none none
      none 1
    if ok then
      match d1.net.copies.find? (fun c => c.id = x.copy) with
      | some c => d1.arriveCell c x.cell x.slot
      | none => d1
    else
      let d2 := ((d1.bump .swFabricCellError (b + 1) 0 0 1).setPd .swStatus_fabricErrSticky b 1).raise b 0x0708
        [(4, linkNo a b), (6, k)]
      (d2.badCell x.copy).laneError a b k

/-- FABRIC_CELL_RECEIVE. -/
def execFabricCellReceive (a b : Die) (k : Fin 48) (crcOk : Bool) (s : State) : Host.Outcome State Fault Refusal :=
  onDev (fun d => if d.link a b then d.fabricReceive a b k crcOk else d) s

/-- FABRIC_CELL_MISSING: the oldest lost cell of a link direction for which a later cell of its copy has arrived is found
missing (R280). -/
def execFabricCellMissing (a b : Die) (s : State) : Host.Outcome State Fault Refusal :=
  onDev (fun d =>
    match d.net.missing.find? (fun x => x.src = a.val && x.dst = b.val &&
        d.net.copies.any (fun c => c.id = x.copy && c.got.any (fun g => x.cell < g.1))) with
    | some x =>
      let d1 := { d with net := { d.net with missing := d.net.missing.filter (· ≠ x) } }
      ((d1.bump .swFabricCellError (b + 1) 0 0 1).setPd .swStatus_fabricErrSticky b 1).badCell x.copy
    | none => d) s

end Sys2Proof.Machine
end

