-- ==== Sys2Proof/Machine/Egress.lean ====
section
/-! DEFINITION. Egress: what a copy becomes as it leaves (R173, R189, R190, R192, R193, R239, R266–R269), the choice of a
queue (R220–R225, R230), transmission and its end (R23, R75, R76, R130, R174, R270) and mirror deferral (R240). -/

namespace Sys2Proof.Machine

/-! ### VLAN tags (R173, R239) -/

/-- A VLAN tag's bytes. -/
def vlanTag (tci : Nat) : List Byte := toBytes ([0x81, 0x00] ++ beBytes 2 tci)

/-- Whether a frame carries an outer VLAN tag: its type says so, or the walk found one there. -/
def outerTag (g : List HType) (k : Work) : Bool :=
  word0 k.win 12 = 0x8100 || word0 k.win 12 = 0x88A8 || k.stack.any (fun h => h.cur = 14 && h.len = 4 && hdrClass g h = .eth)

/-- The tag a copy leaves a port with, by the VLAN entry of the egress die (R173). -/
def Dev.vlanEdit (d : Dev) (q vid tc : Nat) (k : Work) : Work :=
  let v := d.vlan (dieOf q) vid
  let tagged := outerTag d.boot.sb.graph k
  if bitAt v.untag q = 1 then (if tagged then k.delete 12 4 else k)
  else if tagged then { k with win := patch k.win 14 (toBytes (beBytes 2 (word0 k.win 14 / 4096 * 4096 + vid % 4096))) }
  else k.insert 12 (vlanTag (tc * 8192 + vid % 4096))

/-- A mirror copy of the bytes it keeps (R239). -/
def mirrorWork (r : Option MirrorRec) (c : Copy) (k : Work) : Work :=
  let k1 := if c.trunc = 0 then k else { k with win := k.win.take c.trunc }
  match r with
  | some m => if m.encap then k1.insert 12 (vlanTag (m.tc * 8192 + m.vid)) else k1
  | none => k1

/-! ### Streams (R192, R193) -/

/-- The stream of a copy: the one its frame's address entry names, on copies to the stream's port. -/
def Dev.streamOf (d : Dev) (f : Frame) (c : Copy) : Option StreamRec :=
  match f.stream with
  | none => none
  | some id =>
    if c.kind ≠ .fwd then none
    else
      match d.plc.objs.find? (fun o => (match o.data with | .stream r => r.id = id && r.port = c.port | _ => false) &&
          o.v.applies f.take) with
      | some o => (match o.data with | .stream r => some r | _ => none)
      | none => none

/-- The place and number of a frame's R-TAG. -/
def rTag (b : List Byte) : Option (Nat × Nat) :=
  let a := lsduStart b
  if word0 b a = 0xF1C1 then some (a, word0 b (a + 4)) else none

/-- Recovery of a copy (R193): the counter that discards it, if any. -/
def Dev.recover (d : Dev) (n : Nat) (r : StreamRec) (b : List Byte) : Dev × Option WKey :=
  if !r.recover then (d, none)
  else
    match rTag b with
    | none =>
      if r.takeNoSeq then (d.bump .fwSrTagless (n + 1) 0 0 1, none) else (d, some ⟨.fwSrTagless, n + 1, 0, 0⟩)
    | some (_, s) =>
      let x := d.fwOf n
      let j := match aget x.recov r.id with
        | some e => dupJudge r.history e s
        | none => (⟨r.id, s, 1⟩, 0)
      let d1 := d.setFw n { x with recov := aset x.recov r.id j.1 }
      if j.2 = 1 then (d1, some ⟨.fwSrDiscarded, n + 1, r.id, 0⟩)
      else if j.2 = 2 then (d1, some ⟨.fwSrRogue, n + 1, 0, 0⟩)
      else (d1.bump .fwSrPassed (n + 1) r.id 0 1, none)

/-- The R-TAG of a passed copy: removed under POP, and added under ENCODE with the stream's next number. -/
def Dev.streamEdit (d : Dev) (n : Nat) (r : StreamRec) (k : Work) : Dev × Work :=
  let k1 := if r.pop then (match rTag k.win with | some (a, _) => k.delete a 6 | none => k) else k
  if r.encode then
    let x := d.fwOf n
    let s := (aget x.gen r.id).getD 0
    (d.setFw n { x with gen := aset x.gen r.id ((s + 1) % 65536) },
      k1.insert (lsduStart k1.win) (toBytes ([0xF1, 0xC1, 0, 0] ++ beBytes 2 s)))
  else (d, k1)

/-! ### Redundancy (R189, R190) -/

/-- The mode of a frame's RTAG request. -/
def rtagMode (f : Frame) : Option Nat := f.work.rtag.map (·.1)

/-- The path field of an HSR tag at a place: its LAN identifier in the lowest bit of the path, and the LSDU size as far as
the window goes. -/
def hsrFill (b : List Byte) (a lan : Nat) : List Byte :=
  let path := word0 b (a + 2) / 4096 / 2 * 2 + lan
  patch b (a + 2) (toBytes (beBytes 2 (path * 4096 + (b.length - (a + 2)) % 4096)))

/-- The HSR tag a copy leaves a port with, and where the tag stands. -/
def Dev.hsrEdit (d : Dev) (f : Frame) (c : Copy) (k : Work) : Work × Option Nat :=
  let at_ := (hsrTag k.win).map (·.1)
  if c.port < 128 ∧ d.prpMode c.port = 2 ∧ rtagMode f ≠ some 3 then
    match at_ with
    | some a => ({ k with win := hsrFill k.win a (d.lanOf c.port) }, some a)
    | none =>
      let a := lsduStart k.win
      let k1 := k.insert a (toBytes ([0x89, 0x2F, 0, 0] ++ beBytes 2 (c.seq.getD 0)))
      ({ k1 with win := hsrFill k1.win a (d.lanOf c.port) }, some a)
  else
    match at_ with
    | some a => (k.delete a 6, none)
    | none => (k, none)

/-- A frame's source and sequence enter the duplicate table when the frame is sent onto a ring (R190). -/
def Dev.dupEnter (d : Dev) (n : Nat) (b : List Byte) : Dev :=
  match hsrTag b with
  | none => d
  | some (_, s) =>
    let src := beNat ((b.drop 6).take 6)
    let x := d.fwOf n
    match x.dup.find? (fun e => e.key = src) with
    | some e => d.setFw n { x with dup := x.dup.map (fun y => if y.key = src then (dupJudge 32 e s).1 else y) }
    | none => if 65536 ≤ x.dup.length then d else d.setFw n { x with dup := x.dup ++ [⟨src, s, 1⟩] }

/-- Whether a copy gains a redundancy trailer of the device. -/
def Dev.ownTrailer (d : Dev) (f : Frame) (c : Copy) : Bool :=
  (c.kind = .fwd || c.kind = .pair) && c.port < 128 && d.prpMode c.port = 1 && rtagMode f = some 0

/-- Bytes padded to the shortest frame without its FCS (R75). -/
def padTo60 (b : List Byte) : List Byte := b ++ List.replicate (60 - b.length) 0

/-- The tail of a copy: a received trailer removed (RTAG modes 0 and 1), and the device's own appended (R189). -/
def Dev.trailer (d : Dev) (f : Frame) (c : Copy) (b : List Byte) : List Byte :=
  let strip := (match prpValid b with | some _ => true | none => false) &&
    (rtagMode f = some 1 || d.ownTrailer f c)
  let b1 := if strip then b.take (b.length - 6) else b
  if d.ownTrailer f c then
    let b2 := padTo60 b1
    let size := b2.length + 6 - (lsduStart b2 + 2)
    b2 ++ toBytes (beBytes 2 (f.seqNo.getD 0) ++ beBytes 2 ((0xA + d.lanOf c.port) * 4096 + size % 4096) ++ [0x88, 0xFB])
  else b1

/-! ### What a copy becomes -/

/-- What a copy is made of: the frame as its program left it, or for a pass-through copy as it was received (R190). -/
def copyWork (f : Frame) (c : Copy) : Work := if c.kind = .ring then { f.init with win := f.bytes } else f.work

/-- The bytes a copy leaves with as far as its frame has come, without the numbers of streams and PTP updates. -/
def Dev.headWork (d : Dev) (f : Frame) (c : Copy) (k : Work) : Work × Option Nat :=
  match c.kind with
  | .mirror m => (mirrorWork (d.mirror? f.take m) c k, none)
  | .ring => if rtagMode f = some 3 then d.hsrEdit f c k else (k, none)
  | _ => d.hsrEdit f c (d.vlanEdit c.port f.work.vid c.tc k)

/-- A copy's bytes with its tail when all of its frame has come. -/
def Dev.tailWork (d : Dev) (f : Frame) (c : Copy) (b : List Byte) : List Byte :=
  match c.kind with
  | .mirror _ => b
  | _ => d.trailer f c b

/-- The length of a copy as it will leave, with FCS. -/
def Dev.sentLen (d : Dev) (f : Frame) (c : Copy) : Nat :=
  let grown := match d.streamOf f c with
    | some r => (if r.encode then 6 else 0)
    | none => 0
  let cut := match d.streamOf f c with
    | some r => if r.pop ∧ (rTag f.work.win).isSome = true then 6 else 0
    | none => 0
  max 64 ((d.tailWork f c (d.headWork f c (copyWork f c)).1.win).length + grown - cut + 4)

/-- The wire length of a copy: MAXLEN of its port plus 20 while its length is not known (R223). -/
def Dev.wireLen (d : Dev) (f : Frame) (c : Copy) : Nat :=
  if copyWhole f c then d.sentLen f c + 20 else d.maxlenOf c.port + 20

/-! ### PTP (R266–R270) -/

/-- The departure stamp of a frame that a port begins now (R264). -/
def Dev.departure (d : Dev) (q : Nat) : Nat :=
  let off : Int := if q < 128 then
      toSigned 16 (d.cfg .lnTsTrim_txTrim (q / 32 + 1) (q % 32)) + ((Config.txDelay q (d.portRate q)).toNat : Int)
    else 0
  stampAt (d.instant (stampIsl q)) off

/-- A message skipped: one of the right transport that is no event message. -/
def Dev.ptpSkip (d : Dev) (n q : Nat) (k : Work) : Dev :=
  (d.bump .tmPtpSkipped (n + 1) 0 0 1).raiseOnce n 0x0A09 0
    [(8, q), (4, at0 k.win k.payload % 16), (16, word0 k.win (k.payload + 2))]

/-- The one-step request of a host frame applied to an event message (Table 12-4). -/
def oneStepEdit (o : OneStep) (dep : Nat) (k : Work) : List Byte :=
  if o.mode = 1 then
    addCorrection (setOrigin k.win k.payload (dep / nsUnit)) k.payload (corrUnits (dep % nsUnit : Nat))
  else if o.mode = 2 then addCorrection k.win k.payload (corrUnits ((dep : Int) - (o.ref * nsUnit : Nat)))
  else k.win

/-- The amount a transparent clock adds to an event message's correctionField (Table 12-3). -/
def Dev.clockAdds (d : Dev) (f : Frame) (mode ty dep : Nat) : Option Int :=
  let res := corrUnits (instDiff dep f.stamp - f.moved)
  if mode = 1 then some res
  else if mode = 2 ∧ ty = 0 then some (res + (d.wide .tmPortPdelay (f.die + 1) (idxOf f.port) : Int))
  else none

/-- What carries a frame's message, with the place of its UDP header in the bytes that egress leaves. -/
def Dev.ptpPlace (d : Dev) (f : Frame) (q : Nat) (k : Work) : Option PtpVia :=
  (ptpVia d.boot.sb.graph f.work (d.cfg .tmPortPtp_transport (dieOf q + 1) (idxOf q))).map (fun v =>
    match v with
    | .eth => .eth
    | .udp _ v4 => .udp ((k.stack.getLast?.map (·.cur)).getD 0) v4)

/-- What an event message becomes in a copy that departs at an instant: a host frame's own request applies in place of the
transparent clock (Tables 12-3 and 12-4). -/
def Dev.ptpBytes (d : Dev) (f : Frame) (mode ty dep : Nat) (k : Work) : Option (List Byte) :=
  match f.oneStep.filter (fun o => o.mode ≠ 0) with
  | some o => if o.mode = 1 ∨ o.mode = 2 then some (oneStepEdit o dep k) else none
  | none => (d.clockAdds f mode ty dep).map (addCorrection k.win k.payload)

/-- The PTP update of a forwarding copy that departs at an instant: the bytes, with the counts it makes (R266–R269). -/
def Dev.ptpEdit (d : Dev) (f : Frame) (c : Copy) (dep : Nat) (k : Work) : Dev × List Byte :=
  let n := dieOf c.port
  let mode := d.cfg .tmPortPtp_mode (n + 1) (idxOf c.port)
  if 132 ≤ c.port ∨ (c.kind ≠ .fwd ∧ c.kind ≠ .pair) then (d, k.win)
  else
    match d.ptpPlace f c.port k, ptpEvent f.whole k with
    | some via, some ty =>
      match (if mode = 0 then none else d.ptpBytes f mode ty dep k) with
      | some b => (d.bump .tmPtpUpdated (n + 1) 0 0 1, keepChecksum k.win b via)
      | none => (d, k.win)
    | some _, none => (d.ptpSkip n c.port k, k.win)
    | none, _ =>
      if mode ≠ 0 ∧ (f.oneStep.filter (fun o => o.mode ≠ 0)).isSome = true then (d.bump .tmPtpSkipped (n + 1) 0 0 1, k.win)
      else (d, k.win)

/-- Whether a copy is a host frame's whose departure is captured (R269, R270). -/
def Dev.captures (d : Dev) (f : Frame) (c : Copy) : Bool :=
  let n := dieOf c.port
  match f.oneStep with
  | some o =>
    o.mode = 3 && c.port < 132 && d.cfg .tmPortPtp_mode (n + 1) (idxOf c.port) ≠ 0 &&
      (ptpVia d.boot.sb.graph f.work (d.cfg .tmPortPtp_transport (n + 1) (idxOf c.port))).isSome && (ptpEvent f.whole f.work).isSome
  | none => false

/-! ### Egress queues (R220–R225, R230) -/

/-- The head of an egress queue of a port. -/
def Dev.egressHead (d : Dev) (q c : Nat) : Option Copy :=
  (d.net.copies.filter (fun x => x.port = q && x.tc = c && x.qseq ≠ 0 && !x.tx)).foldl (fun a x =>
    match a with
    | some y => if x.qseq < y.qseq then some x else some y
    | none => some x) none

/-- Condition 1 of R221: the cells that R207 requires, or all of a store-and-forward copy. -/
def cellsReady (f : Frame) (c : Copy) : Bool :=
  if c.sf then f.known && copyCells f c ≤ c.front else 2 ≤ c.front || (copyWhole f c && copyCells f c ≤ c.front)

/-- The bytes the CD's receive queue holds, of 256 KiB (R367). -/
def Dev.rxFill (d : Dev) : Nat := d.dma.rxq.foldl (fun a x => a + x.bytes.length) 0

/-- Whether the head of queue c of a port may leave (R221). -/
def Dev.eligible (d : Dev) (q c : Nat) : Bool :=
  match d.egressHead q c with
  | none => false
  | some x =>
    match d.frame? x.frame with
    | none => false
    | some f =>
      let n := dieOf q
      let s := idxOf q
      cellsReady f x && !(d.tx q).held.contains c && d.gateOk q c (d.wireLen f x) &&
        (bitAt (d.cfg .egSched_cbsEn (n + 1) s) c = 0 || 0 ≤ d.bucket (.cbs n s c)) &&
        (bitAt (d.cfg .egSched_maxrateEn (n + 1) s) c = 0 || 0 ≤ d.bucket (.maxrate n s c)) &&
        (q ≠ 132 || d.rxFill + d.sentLen f x ≤ 262144)

/-- Whether a class of a port is strict (R222). -/
def Dev.strict (d : Dev) (q c : Nat) : Bool := bitAt (d.cfg .egSched_strict (dieOf q + 1) (idxOf q)) c = 1

/-- The classes of a port's DWRR group, in descending order. -/
def Dev.dwrrGroup (d : Dev) (q : Nat) : List Nat := ((List.range 8).map (7 - ·)).filter (fun c => !d.strict q c)

/-- The next class of the group below another, wrapping to the highest. -/
def nextBelow (g : List Nat) (c : Nat) : Nat := (g.find? (fun x => x < c)).getD (g.head?.getD c)

/-- The quantum of a class (R223). -/
def Dev.quantum (d : Dev) (q c : Nat) : Nat := bits (d.cfg .egWeight_weight (dieOf q + 1) (idxOf q)) (4 * c + 3) (4 * c) * 1024

/-- The wire length of the head of a queue. -/
def Dev.headWire (d : Dev) (q c : Nat) : Nat :=
  match d.egressHead q c with
  | some x => (match d.frame? x.frame with | some f => d.wireLen f x | none => 0)
  | none => 0

/-- dwrr_next() of R223: the class chosen, with the sending side as it leaves it. -/
def Dev.dwrrNext (d : Dev) (q : Nat) (g : List Nat) : Nat → PortTx → Option Nat × PortTx
  | 0, x => (none, x)
  | fuel + 1, x =>
    let c := x.dwrrPtr
    let have_ := (aget x.deficit c).getD 0
    if d.eligible q c ∧ (d.headWire q c : Int) ≤ have_ then (some c, x)
    else
      let x1 := if (d.egressHead q c).isNone then { x with deficit := aset x.deficit c 0 } else x
      let p := nextBelow g c
      let x2 := { x1 with dwrrPtr := p }
      let x3 := if d.eligible q p then { x2 with deficit := aset x2.deficit p ((aget x2.deficit p).getD 0 + d.quantum q p) }
        else x2
      d.dwrrNext q g fuel x3

/-- The sending side with its DWRR group as the STRICT bits now give it: a class outside has no deficit. -/
def dwrrNow (g : List Nat) (x : PortTx) : PortTx :=
  { x with deficit := x.deficit.filter (fun e => g.contains e.1),
           dwrrPtr := if g.contains x.dwrrPtr then x.dwrrPtr else nextBelow g x.dwrrPtr }

/-- The class a port chooses (R222). -/
def Dev.choose (d : Dev) (q : Nat) : Option Nat × PortTx :=
  let g := d.dwrrGroup q
  let x := dwrrNow g (d.tx q)
  let top := g.head?
  let hit := ((List.range 8).map (7 - ·)).find? (fun lv =>
    (d.strict q lv && d.eligible q lv) || (top = some lv && g.any (fun c => d.eligible q c)))
  match hit with
  | some lv =>
    if d.strict q lv then (some lv, { x with byDwrr := false })
    else let r := d.dwrrNext q g 256 x; (r.1, { r.2 with byDwrr := true })
  | none => (none, x)

/-- Head copies of known length that can never pass their gate are discarded (R230). -/
def Dev.gateOversize (d : Dev) (q : Nat) : Dev :=
  if !d.gating q || !(d.gate q).running then d
  else
    (List.range 8).foldl (fun d c =>
      match d.egressHead q c with
      | none => d
      | some x =>
        match d.frame? x.frame with
        | none => d
        | some f =>
          if copyWhole f x ∧ wireFits (d.wireLen f x) (d.portRate q) 0 (longestOpen (d.operSegs q) c) = false then
            (d.raiseOnce (q / 32) 0x0803 q [(8, q), (3, c), (32, d.sentLen f x)]).discard x
              ⟨.egGateOversize, q / 32 + 1, q % 32, c⟩
          else d) d

/-! ### The start of a transmission -/

/-- Whether a field port runs in half duplex. -/
def Dev.halfDuplex (d : Dev) (q : Nat) : Bool := 128 ≤ q && q < 132 && !d.fullDuplex q

/-- The egress limit of a copy: MAXLEN of its port, and 6 more when the device added a PRP trailer (R75). -/
def Dev.egressLimit (d : Dev) (f : Frame) (c : Copy) : Nat := d.maxlenOf c.port + (if d.ownTrailer f c then 6 else 0)

/-- What becomes of a chosen copy: it is discarded, or its transmission begins. -/
def Dev.beginCopy (d : Dev) (q : Nat) (f : Frame) (c : Copy) : Dev × Bool :=
  let n := dieOf q
  if d.tooOld n c.tc f then (d.ageDiscard n c, false)
  else
    let st := d.streamOf f c
    let rec_ := match st with
      | some r => d.recover n r f.work.win
      | none => (d, none)
    match rec_.2 with
    | some k => (rec_.1.discard c k, false)
    | none =>
      if copyWhole f c ∧ d.egressLimit f c < d.sentLen f c then ((rec_.1.txDrop q 0x30).takeOut c false, false)
      else
        let s := match st with
          | some r => rec_.1.streamEdit n r f.work
          | none => (rec_.1, copyWork f c)
        let h := s.1.headWork f c s.2
        let dep := s.1.departure q
        let p := s.1.ptpEdit f c dep h.1
        let b := if copyWhole f c then p.1.tailWork f c p.2 else p.2
        let known := if copyWhole f c then none else h.2
        let c1 := { c with tx := true, out := b, departed := dep, used := (copyWork f c).win.length, hsrAt := known,
                           pre := if d.halfDuplex q then some h.1 else none }
        let d0 := match c.kind with | .mirror _ | .ring => p.1 | _ => p.1.vlanParity (dieOf q) f.work.vid
        let d1 := (d0.setCopy c1).setTx q { d0.tx q with busy := true }
        let d2 := if q < 128 ∧ d1.prpMode q = 2 ∧ (c.kind = .fwd ∨ c.kind = .pair) then d1.dupEnter n b else d1
        (d2, true)

/-- A port chooses, and chooses again while the copy it chose is discarded; under `wait` the copy chosen only defers. -/
def Dev.startLoop (d : Dev) (q : Nat) (wait : Bool) : Nat → Dev
  | 0 => d
  | fuel + 1 =>
    let d0 := d.gateOversize q
    let ch := d0.choose q
    let d1 := d0.setTx q ch.2
    match ch.1 with
    | none => d1
    | some cls =>
      match d1.egressHead q cls with
      | none => d1
      | some c =>
        match d1.frame? c.frame with
        | none => d1
        | some f =>
          if wait then (if c.deferredOnce then d1 else (d1.setCopy { c with deferredOnce := true }).stat q 0x38 1)
          else
            let r := d1.beginCopy q f c
            if r.2 then r.1 else r.1.startLoop q wait fuel

/-- Whether a port may begin a frame of its MAC: it sends, it is up, and no frame is in transmission (R65, R82, R297, R299). -/
def Dev.canSend (d : Dev) (q : Nat) : Bool :=
  d.liveDie (dieOf q) && d.portExists q && !(d.tx q).busy &&
    (q = 132 || (d.sends && (if q < 128 then d.pd .ptPortStatus_state (q / 32) (q % 32) = 6
      else d.portUp q && d.inRun)))

/-- The classes and times of the PFC frame that a port's MAC is to send: those due whose TX_EN is set, or on a full-duplex
field port all (R79, R85). -/
def Dev.pfcToSend (d : Dev) (p : Nat) : List (Nat × Nat) :=
  (d.tx p).pfcDue.filter (fun e => if p < 128 then d.pfcTxEn p e.1 else d.fullDuplex p)

/-- Whether a port may begin a queued frame: a PFC frame that is due goes ahead of it (R79). -/
def Dev.canStart (d : Dev) (q : Nat) : Bool := d.canSend q && (132 ≤ q || (d.pfcToSend q).isEmpty)

/-! ### The end of a transmission -/

/-- The bytes of a copy whose frame came whole while it was leaving. -/
def Dev.finalBytes (d : Dev) (f : Frame) (c : Copy) : List Byte :=
  let win := (copyWork f c).win
  if copyWhole f c ∧ c.used = win.length ∧ c.hsrAt = none then c.out
  else
    let limit := if c.trunc = 0 then win.length else min c.trunc win.length
    let b := c.out ++ ((win.take limit).drop c.used)
    let b1 := match c.hsrAt with
      | some a => hsrFill b a (d.lanOf c.port)
      | none => b
    d.tailWork f c b1

/-- The egress learn of a frame of another die that left one of a die's ports (R174–R176, R185). -/
def Dev.egressLearn (d : Dev) (f : Frame) (c : Copy) : Dev :=
  let n := dieOf c.port
  match f.fid with
  | some fid =>
    if f.parse.malformed = false ∧ n ≠ f.die ∧ f.egLearned.contains n = false then
      let d1 := d.setFrame { f with egLearned := n :: f.egLearned }
      if d.mayLearn n f ∧ isGroup f.source = false then
        (d1.lookupParity n (fwKey fid f.source)).learn n { mac := f.source, fid := fid, port := f.port, egress := true, sticky := false }
      else d1
    else d
  | none => d

/-- The entry of the CD's receive queue for a copy to the host port (R367). -/
def rxItem (f : Frame) (c : Copy) (b : List Byte) : RxItem :=
  let mal := (match f.mal with | some a => a.action = 1 | none => false) && (match c.kind with | .host _ => true | _ => false)
  { bytes := b, inport := f.port, tc := c.tc, malformed := mal,
    code := if mal then f.parse.reason else (match c.kind with | .host k => k | .mirror m => 0xE0 + m | _ => 0),
    hdr := if mal then f.parse.failIdx else 0, stamp := f.stamp, take := f.take }

/-- A half-duplex frame sent after collisions counts (Table 18-1). -/
def Dev.countCollisions (d : Dev) (q : Nat) (c : Copy) : Dev :=
  if c.attempts = 1 then d.stat q 0x36 1 else if 2 ≤ c.attempts then d.stat q 0x37 1 else d

/-- A copy's last byte leaves.  DESIGN CHOICE (log 89): a cut-through copy whose length, once known, proves over the egress limit
is ended in error and counts TX_OVERSIZE. -/
def Dev.endCopy (d : Dev) (q : Nat) (f : Frame) (c : Copy) : Dev :=
  let b0 := d.finalBytes f c
  let b := if q = 132 then b0 else padTo60 b0
  let len := max 64 (b.length + 4)
  if d.egressLimit f c < len then
    let x := ((d.txDrop q 0x30).stopTx q c).takeOut c false
    { x with out := x.out ++ [sentBad q c.out] }
  else
    let d1 := (d.chargeTx q c.tc (len + 20)).pmc (dieOf q) 0x18 none (some c.tc) (some (idxOf q)) 1
    if q = 132 then
      let d2 := { d1 with dma := { d1.dma with rxq := d1.dma.rxq ++ [rxItem f c b] } }
      (d2.egressLearn f c).takeOut c true
    else
      let d2 := (d1.txStats q len (beNat (b.take 6))).countCollisions q c
      let d3 := if d2.captures f c then d2.capture (dieOf q) c.departed q ((f.oneStep.map (·.tag)).getD 0) false else d2
      let d4 := (d3.egressLearn f c).takeOut c true
      { d4 with out := d4.out ++ [sentWhole q b] }

/-! ### Half duplex (R83) -/

/-- FP_COLLISION: carrier is seen during a half-duplex transmission; `late` says that more than 512 bit times of it have
passed.  The backoff is drawn below 2 ^ min(n, 10) slot times after the n-th collision. -/
def execFpCollision (p : FieldPort) (late : Bool) (s : State) : Host.Outcome State Fault Refusal :=
  onDev (fun d =>
    let q := 128 + p.val
    match d.sending q with
    | none => d
    | some c =>
      if c.waiting ∨ d.halfDuplex q = false then d
      else
        let d1 : Dev := { d with out := d.out ++ [.jam q] }
        let n := c.attempts + 1
        if late then ((d1.txDrop q 0x32).stopTx q c).takeOut c false
        else if 16 ≤ n then ((d1.txDrop q 0x33).stopTx q c).takeOut c false
        else
          let r := d1.drawBelow (2 ^ min n 10)
          r.2.setCopy { c with attempts := n, backoff := r.1, waiting := true }) s

/-- A copy that collided is sent again, with the departure stamp of the new attempt. -/
def Dev.retry (d : Dev) (f : Frame) (c : Copy) : Dev :=
  let dep := d.departure c.port
  let b := match c.pre with
    | some k => let x := (d.ptpEdit f c dep k).2; if copyWhole f c then d.tailWork f c x else x
    | none => c.out
  d.setCopy { c with waiting := false, departed := dep, out := b, used := f.work.win.length }

/-- FP_BACKOFF_EXPIRE: the backoff after a collision ends, and the frame is sent again; while carrier is sensed it defers and
waits on. -/
def execFpBackoffExpire (x : FieldPort × Bool) (s : State) : Host.Outcome State Fault Refusal :=
  onDev (fun d =>
    match d.sending (128 + x.1.val) with
    | none => d
    | some c =>
      match d.frame? c.frame with
      | some f => if c.waiting ∧ x.2 = false then d.retry f c else d
      | none => d) s

/-! ### Mirror deferral (R240) -/

/-- The deferred copies of a session that can be queued, in order. -/
def Dev.releaseDeferred (d : Dev) (n : Nat) : List Copy → Dev
  | [] => d
  | c :: cs =>
    match d.frame? c.frame with
    | none => d.releaseDeferred n cs
    | some f =>
      let r : CopyReq := { kind := c.kind, port := c.port, tc := c.tc, trunc := c.trunc, slot := c.slot, seq := c.seq, group := c.group }
      if d.voqFull n r then d
      else
        let gone : Dev := { d with net := { d.net with copies := d.net.copies.filter (fun x => x.id ≠ c.id) } }
        let d1 := if c.port = 132 then (let h := gone.hostPolice f r; if h.2 then h.1.enterVoq f r else h.1)
          else gone.enterVoq f r
        (d1.reap f.id).releaseDeferred n cs

/-- MIRROR_DEFER_RELEASE: the VOQ of a session's deferred copies has fallen below its limit. -/
def execMirrorDeferRelease (n : Die) (m : Fin 16) (s : State) : Host.Outcome State Fault Refusal :=
  onDev (fun d => d.releaseDeferred n (d.deferrals n m)) s

/-- The head of a deferral list judged by its session's AGE_LIMIT, and the next once it is removed. -/
def Dev.ageDeferred (d : Dev) (n m : Nat) : List Copy → Dev
  | [] => d
  | c :: cs =>
    match d.frame? c.frame with
    | none => d
    | some f =>
      match d.mirror? f.take m with
      | none => d
      | some r =>
        if ageBad (d.ageOf n f) r.age then
          let d1 := d.bump .miCounters (n + 1) m 2 1
          ((d1.raiseOnce n 0x0808 m [(4, m), (64, d1.wide .miCounters (n + 1) m 2)]).takeOut c false).ageDeferred n m cs
        else d

/-- DEFERRAL_AGE_SCAN: the head of every deferral list of a die is aged. -/
def execDeferralAgeScan (n : Die) (s : State) : Host.Outcome State Fault Refusal :=
  onDev (fun d => (List.range 16).foldl (fun d m => d.ageDeferred n m (d.deferrals n m)) d) s

end Sys2Proof.Machine
end

