-- ==== Sys2Proof/Machine/Mac.lean ====
section
/-! DEFINITION. The MACs beside reception and transmission of frames: PFC (R78, R79), back-pressure repeats (R85), the 1 s
interval (R80, R104), and memory words reloaded, rewritten and scrubbed (R105, R118, R164). -/

namespace Sys2Proof.Machine

/-- The number that names a port's MAC in SOURCE: its die, or the CD for a field port (R380). -/
def macDie (p : Nat) : Nat := if p < 128 then p / 32 else 6

/-! ### Received pause (R78) -/

/-- PFC_PAUSE_EXPIRE: the pause time of a class of a port runs out. -/
def execPfcPauseExpire (p : Port) (c : Tc) (s : State) : Host.Outcome State Fault Refusal :=
  onDev (fun d =>
    let x := d.tx p
    if x.held.contains c.val then
      d.setTx p { x with held := x.held.filter (· ≠ c.val), heldSaid := x.heldSaid.filter (· ≠ c.val) }
    else d) s

/-- PFC_HELD_100MS: a class has been held paused by the partner for 100 ms; once per episode. -/
def execPfcHeld100ms (p : Port) (c : Tc) (s : State) : Host.Outcome State Fault Refusal :=
  onDev (fun d =>
    let x := d.tx p
    if x.held.contains c.val ∧ x.heldSaid.contains c.val = false then
      (d.setTx p { x with heldSaid := c.val :: x.heldSaid }).raise (macDie p) 0x0202 [(8, p.val), (3, c.val)]
    else d) s

/-! ### Sent pause (R79, R85) -/

/-- The pause time a port sends. -/
def Dev.quanta (d : Dev) (p : Nat) : Nat := if p < 128 then d.cfg .ptPfcCtl_quanta (p / 32 + 1) (p % 32) else 0xFFFF

/-- The source address of a port's PFC frames (R79, Table 4-4). -/
def Dev.macAddr (d : Dev) (p : Nat) : Nat :=
  if p < 128 then d.wide .ptMacAddr (p / 32 + 1) (p % 32) else d.wide .fpMacAddr 0 (p - 128)

/-- The PFC frame that is due leaves: its bits and times, merged from every request made before it starts. -/
def Dev.sendPfc (d : Dev) (p : Nat) : Dev :=
  let x := d.tx p
  let due := d.pfcToSend p
  if p < 132 ∧ d.canSend p = true ∧ due ≠ [] then
    let on := (List.range 8).filter (fun c => due.contains (c, 1))
    let off := (List.range 8).filter (fun c => due.contains (c, 0))
    let vector := (on ++ off).foldl (fun a c => a + 2 ^ c) 0
    let times := (List.range 8).map (fun c => if on.contains c then d.quanta p else 0)
    let sent := x.pfcSent.filter (fun c => !off.contains c && !on.contains c) ++ on
    let d1 := (d.setTx p { x with pfcDue := [], pfcSent := sent }).stat p 0x25 1
    { d1 with out := d1.out ++ [.pfc p (d.macAddr p) vector times] }
  else d

/-- PFC_TRANSMIT: the frame in transmission has ended, and the PFC frame that is due is sent. -/
def execPfcTransmit (p : Port) (s : State) : Host.Outcome State Fault Refusal := onDev (fun d => d.sendPfc p) s


/-- PFC_REPEAT: half of QUANTA has elapsed since a line port's last PFC frame while requests hold, and it is repeated. -/
def execPfcRepeat (p : LinePort) (s : State) : Host.Outcome State Fault Refusal :=
  onDev (fun d =>
    let x := d.tx p
    let on := (d.xoffClasses p).map (fun c => (c, 1))
    if on = [] then d
    else (d.setTx p { x with pfcDue := on ++ x.pfcDue.filter (fun e => !on.any (fun o => o.1 = e.1)) }).sendPfc p) s

/-- The PFC frame a port sends on entering UP: the requests that hold, and those withdrawn since its last frame (R79). -/
def Dev.pfcOnUp (d : Dev) (p : Nat) : Dev :=
  let x := d.tx p
  let on := d.xoffClasses p
  let off := x.pfcSent.filter (fun c => !d.paused (p / 32) (p % 32) c)
  d.setTx p { x with pfcDue := on.map (fun c => (c, 1)) ++ off.map (fun c => (c, 0)) }

/-- A write of PT_PFC_CTL: a class whose TX_EN it sets while its pause request holds has its PFC frame due (R79). -/
def Dev.pfcCtlWritten (d was : Dev) (p : Nat) : Dev :=
  let x := d.tx p
  let new := (d.xoffClasses p).filter (fun c => !was.pfcTxEn p c)
  if new = [] then d
  else d.setTx p { x with pfcDue := new.map (fun c => (c, 1)) ++ x.pfcDue.filter (fun e => !new.contains e.1) }

/-- FP_BP_REPEAT: 167 ms have passed under back-pressure, and a full-duplex field port repeats its PFC frame (R85). -/
def execFpBpRepeat (k : FieldPort) (s : State) : Host.Outcome State Fault Refusal :=
  onDev (fun d =>
    let p := 128 + k.val
    if d.cd .fpPortStatus_bpActive k = 1 then (d.fpPfcDue p 1).sendPfc p else d) s

/-! ### The 1 s interval (R80, R104) -/

/-- The island whose 1 s intervals a port's MAC sums follow: its die's, or the CD's for a field port. -/
def macIsl (p : Nat) : Nat := if p < 128 then p / 32 else 4

/-- A 1 s interval of device time ends on an island: the sums that reached THRESH raise their events, every sum starts
again, and every event limited to one in an interval may be raised anew. -/
def Dev.endInterval (d : Dev) (n : Nat) : Dev :=
  let mac := d.net.dropSum.filter (fun e => macIsl e.1 = n)
  let par := d.net.malSum.filter (fun e => dieOf e.1 = n)
  let d1 := mac.foldl (fun d e =>
    if d.macThresh e.1 ≠ 0 ∧ d.macThresh e.1 ≤ e.2.2 then
      d.raise (macDie e.1) 0x0201 [(8, e.1), (1, e.2.1), (32, min e.2.2 0xFFFF)] else d) d
  let d2 := par.foldl (fun d e =>
    let t := d.pd .psPortCtl_thresh n (idxOf e.1)
    if t ≠ 0 ∧ t ≤ e.2 then d.raise n 0x0302 [(8, e.1), (32, min e.2 0xFFFF)] else d) d1
  { d2 with
    net := { d2.net with dropSum := d2.net.dropSum.filter (fun e => macIsl e.1 ≠ n),
                         malSum := d2.net.malSum.filter (fun e => dieOf e.1 ≠ n) }
    obs := { d2.obs with once := d2.obs.once.filter (fun e => min e.1 4 ≠ n) } }

/-- ONE_SECOND_INTERVAL_END: a 1 s interval of device time ends on an island. -/
def execOneSecondIntervalEnd (n : Isl) (s : State) : Host.Outcome State Fault Refusal := onDev (fun d => d.endInterval n) s

/-! ### Bad words made good (R105, R118, R164) -/

/-- A word is good again. -/
def Dev.mendWord (d : Dev) (b : BadWord) : Dev :=
  { d with net := { d.net with bad := d.net.bad.filter (· ≠ b), alarmed := d.net.alarmed.filter (· ≠ b) } }

/-- GRAPH_WORD_RELOAD: a graph word of a die is reloaded from the CD's copy of the running storyboard. -/
def execGraphWordReload (n : Die) (addr : Nat) (s : State) : Host.Outcome State Fault Refusal :=
  onDev (fun d => d.mendWord (.graph n addr)) s

/-- CL_WORD_REWRITE: the placement sequencer rewrites a bad associative, tree or pattern word. -/
def execClWordRewrite (b : BadWord) (s : State) : Host.Outcome State Fault Refusal :=
  onDev (fun d => match b with | .cam _ _ _ | .tree _ _ | .pattern _ _ => d.mendWord b | _ => d) s

/-- PROGRAM_WORD_RELOAD: a program-store word of a die is reloaded from the CD's copy of the running storyboard. -/
def execProgramWordReload (n : Die) (addr : Nat) (s : State) : Host.Outcome State Fault Refusal :=
  onDev (fun d => d.mendWord (.prog n addr)) s

/-- The die of a memory word. -/
def wordDie : BadWord → Nat
  | .graph n _ | .cam n _ _ | .tree n _ | .pattern n _ | .prog n _ | .addr n _ | .vlan n _ | .dup n _ | .stream n _ => n

/-- A word of the associative, tree, pattern or program memory that a scrub pass finds bad is reported as a lookup that
reads it reports it. -/
def Dev.scrubWord (d : Dev) (b : BadWord) : Dev :=
  match b with
  | .cam _ _ _ | .tree _ _ | .pattern _ _ => (d.noteBad [b]).alarmCl b
  | .prog n a => ((d.noteBad [b]).setPd .aeStatus_paritySticky n 1).raise n 0x0502 [(2, 0), (32, a)]
  | _ => d

/-- MEMORY_SCRUB_PASS: a scrub pass of a die reads its associative, tree, pattern and program memories; the words named are
those it finds bad (R118, R164). -/
def execMemoryScrubPass (n : Die) (found : List BadWord) (s : State) : Host.Outcome State Fault Refusal :=
  onDev (fun d => (found.filter (fun b => wordDie b = n.val)).foldl (fun d b => d.scrubWord b) d) s

end Sys2Proof.Machine
end

