-- ==== Sys2Proof/Machine/Ports.lean ====
section
/-! DEFINITION. Line ports, optics and field ports: laser sources (R58–R62), reach groups (R56, R61), link states (R63–R67),
the duo role a first port UP ends (R296), field ports (R82, R87, R88), and the starts and ends of frames (R66, R222). -/

namespace Sys2Proof.Machine

/-! ### Roles (R296) -/

/-- The unit takes a role, with event 0x0B01 and vector 7. -/
def Dev.setRole (d : Dev) (r : Nat) : Dev :=
  let old := d.cd .duStatus_role
  if old = r then d else ((d.setCd .duStatus_role r).raise 6 0x0B01 [(3, old), (3, r)]).irq 7

/-- A unit leaves INIT once its storyboard is applied and its first line port is UP. -/
def Dev.leaveInit (d : Dev) : Dev := if d.cd .duStatus_role = 1 ∧ d.boot.applied = true then d.setRole 2 else d

/-! ### Groups and lasers -/

/-- SPEED of a port. -/
def Dev.portSpeed (d : Dev) (p : Nat) : Nat :=
  match sbSlot d.boot.sb p with | .g10 => 0 | .g25 => 1 | .g100 => 2 | .g400 => 3 | .unused | .part => 0

/-- Whether a register that serves a line port is in its safe state (Table 16-10); per-lane registers serve no port (R418). -/
def Dev.portSafe (d : Dev) (p : Nat) : Bool :=
  [Reg.ptPortCtl, .ptMacCtl, .ptPfcCtl, .ptMacThresh].any (fun r => d.inSafe r (p / 32 + 1) (p % 32))

/-- Whether a port is enabled: a port one of whose registers is in its safe state behaves as disabled (R67). -/
def Dev.portEnabled (d : Dev) (p : Nat) : Bool :=
  d.portExists p && !d.portSafe p && d.pd .ptPortCtl_enable (p / 32) (p % 32) = 1

/-- Whether a line slot is tested through to the connector, and so counts as an enabled port (R288). -/
def Dev.slotTested (d : Dev) (s : Nat) : Bool :=
  d.pd .lnTestStatus_state (s / 32) (s % 32) = 2 && d.pd .lnTestCtl_loopback (s / 32) (s % 32) = 0

/-- The slots of a reach group (R56). -/
def groupSlots (g : Nat) : List Nat := (List.range 8).map (fun k => 8 * g + k)

/-- Whether a group has an enabled port of an active die. -/
def Dev.groupUsed (d : Dev) (g : Nat) : Bool :=
  d.railOn (g / 4) && (groupSlots g).any (fun s => d.portEnabled s || d.slotTested s)

/-- Whether a group's light is in LR mode. -/
def Dev.groupLr (d : Dev) (g : Nat) : Bool := d.boot.sb.lr.contains g

/-- The light of a group: 0 not asked for, 1 unlit, 2 lit, 3 dark (R61). -/
def Dev.light (d : Dev) (g : Nat) : Nat := (aget d.net.groups g).getD 0

/-- The light of a group set, with OP_FIBRE_STATUS.DARK. -/
def Dev.setLight (d : Dev) (g v : Nat) : Dev :=
  ({ d with net := { d.net with groups := aset d.net.groups g v } }).setFld .opFibreStatus_dark (5 + g / 8) (g % 8) 0
    (if v = 1 ∨ v = 3 then 1 else 0)

/-- Whether a group lights its modulators now. -/
def Dev.groupLit (d : Dev) (g : Nat) : Bool := d.light g = 2 && d.cd .dvLaserCtl_lsEnState = 1

/-- The laser sources the device addresses: LSI-E not in the one-die configuration (R59). -/
def Dev.sources (d : Dev) : List Nat := if 2 ≤ d.boot.sb.active then [0, 1] else [0]

/-- The I2C address of a source (R59). -/
def Dev.sourceAddr (d : Dev) (k : Nat) : Nat := if k = 0 then d.cfg .dvLaserCtl_addrW 0 else d.cfg .dvLaserCtl_addrE 0

/-- A byte register of a source is written over I2C. -/
def Dev.i2cWrite (d : Dev) (k reg value : Nat) : Dev := { d with out := d.out ++ [.i2c (d.sourceAddr k) reg value] }

/-- STATUS and FIBRE_FAULT of each source are read over I2C (R59, R62). -/
def Dev.i2cPoll (d : Dev) : Dev :=
  { d with out := d.out ++ d.sources.flatMap (fun k => [.i2cRead (d.sourceAddr k) 0x02, .i2cRead (d.sourceAddr k) 0x03]) }

/-- The set bits of a predicate over eight fibres. -/
def fibreMask (f : Nat → Bool) : Nat := (List.range 8).foldl (fun a k => if f k then a + 2 ^ k else a) 0

/-! ### Down transitions (R63–R67) -/

/-- The state a down cause calls for (Table 3-6). -/
def causeTarget (cause : Nat) : Nat :=
  match cause with | 1 => 2 | 2 | 3 | 4 => 3 | 5 | 6 => 4 | 7 => 1 | _ => 0

/-- STATE of a line port. -/
def Dev.linkState (d : Dev) (p : Nat) : Nat := d.pd .ptPortStatus_state (p / 32) (p % 32)

/-- STATE of a line port set. -/
def Dev.setLink (d : Dev) (p v : Nat) : Dev := d.setPd .ptPortStatus_state (p / 32) v (p % 32)

/-- A frame in transmission is cut short, and one in reception where the cause ends reception (R66).  DESIGN CHOICE (log 78):
every cause but a received remote fault does. -/
def Dev.cutFrames (d : Dev) (p cause : Nat) : Dev :=
  let d1 := if (d.sending p).isSome then d.cutTransmission p 0x31 else d
  if cause = 6 then d1 else d1.cutReception p 1 2

/-- A down transition from UP or HOLDOFF: its record, its event, the port-down hold and the flush. -/
def Dev.linkDown (d : Dev) (p cause : Nat) : Dev :=
  let n := p / 32
  let s := p % 32
  let ms := (d.ticks n - (aget d.net.upSince p).getD (d.ticks n)) / 500000
  let d1 := (d.setLink p (causeTarget cause)).setPd .ptPortStatus_lastCause n cause s
  let d2 := d1.setPd .ptPortStatus_downCount n (min 0xFFFF (d1.pd .ptPortStatus_downCount n s + 1)) s
  (((d2.raise n 0x0102 [(8, p), (4, cause), (32, ms)]).cutFrames p cause).outputDown p).flushOnDown p

/-- The cause that takes effect on a port: DISABLED before every other while its ENABLE is 0 (R67). -/
def Dev.causeNow (d : Dev) (p cause : Nat) : Nat := if d.portEnabled p then cause else 8

/-- A port is moved by a cause from any state: a down transition from UP or HOLDOFF, or the state the cause calls for. -/
def Dev.linkCause (d : Dev) (p cause : Nat) : Dev :=
  let st := d.linkState p
  let c := d.causeNow p cause
  if st = 6 ∨ st = 7 then d.linkDown p c
  else if causeTarget c < st then d.setLink p (causeTarget c)
  else d

/-- The port of a group in DARK or beyond is sent to DARK, when it is not already there. -/
def Dev.groupDark (d : Dev) (g : Nat) : Dev :=
  (groupSlots g).foldl (fun d p => if d.portExists p ∧ 2 ≤ d.linkState p then d.linkCause p 7 else d) d

/-- The enabled ports of a group in DARK go on to NO_SIGNAL, its light and LS_EN being there (Table 3-5). -/
def Dev.groupBright (d : Dev) (g : Nat) : Dev :=
  if d.groupLit g then
    (groupSlots g).foldl (fun d p => if d.portExists p ∧ d.linkState p = 1 then d.setLink p 2 else d) d
  else d

/-! ### LS_EN (R58, R60) -/

/-- The level that LS_EN should have. -/
def Dev.lsWanted (d : Dev) : Bool :=
  d.boot.applied && !d.boot.factory && !d.sup.thermShut && d.cfg .dvLaserCtl_forceOff 0 = 0

/-- LS_EN follows its conditions: on a rise FIBRE_MODE is written first and the groups asked for are unlit; on a fall every
group's ports go dark. -/
def Dev.lsEnUpdate (d : Dev) : Dev :=
  let now := d.cd .dvLaserCtl_lsEnState = 1
  if d.lsWanted ∧ !now then
    let d1 := d.sources.foldl (fun d k => d.i2cWrite k 0x21 (fibreMask (fun f => d.groupLr (8 * k + f)))) d
    (List.range 16).foldl (fun d g => if d.light g ≠ 0 then d.setLight g 1 else d) (d1.setCd .dvLaserCtl_lsEnState 1)
  else if now ∧ !d.lsWanted then
    (List.range 16).foldl (fun d g => d.groupDark g) (d.setCd .dvLaserCtl_lsEnState 0)
  else d

/-- FORCE_OFF written. -/
def Dev.laserForce (d : Dev) (v : Nat) : Dev := (d.setCd .dvLaserCtl_forceOff v).lsEnUpdate

/-- LASER_FORCE_OFF: a write of DV_LASER_CTL.FORCE_OFF. -/
def execLaserForceOff (v : Bool) (s : State) : Host.Outcome State Fault Refusal :=
  onReg 0 .dvLaserCtl 0 0 1 (fun d => d.laserForce (b2n v)) s

/-- Event 0x0105 on the third poll in a row without an acknowledge (R60). -/
def Dev.pollSource (d : Dev) (k : Nat) (ack : Bool) : Dev :=
  let old := (aget d.net.polls k).getD 0
  let n := if ack then 0 else min 3 (old + 1)
  let d1 := { d with net := { d.net with polls := aset d.net.polls k n } }
  if n = 3 ∧ old = 2 then
    d1.raise 6 0x0105 [(1, k), (7, d.sourceAddr k)]
  else d1

/-- LASER_POLL: a poll of each source, with whether each acknowledged it. -/
def execLaserPoll (ackW ackE : Bool) (s : State) : Host.Outcome State Fault Refusal :=
  onDev (fun d =>
    if d.live then d.sources.foldl (fun d k => d.pollSource k (if k = 0 then ackW else ackE)) d.i2cPoll else d) s

/-- FIBRE_ENABLE of a source is written, and its groups follow: newly asked for, a group is unlit; no longer, it is off
(R59, R61). -/
def Dev.fibreEnable (d : Dev) (k : Nat) : Dev :=
  let mask := fibreMask (fun f => d.groupUsed (8 * k + f))
  let d1 := (d.i2cWrite k 0x20 mask).setFld .opReach_lit (5 + k) 0 0 mask
  (List.range 8).foldl (fun d f =>
    let g := 8 * k + f
    if bitAt mask f = 1 then (if d.light g = 0 then d.setLight g 1 else d) else d.setLight g 0) d1

/-- FIBRE_ENABLE_UPDATE: the device writes FIBRE_ENABLE to its sources. -/
def execFibreEnableUpdate (s : State) : Host.Outcome State Fault Refusal :=
  onDev (fun d => if d.live then d.sources.foldl (fun d k => d.fibreEnable k) d else d) s

/-- LS_FAULT_FALL: LS_FAULT_N falls, with STATUS and FIBRE_FAULT of each source as read, or none (R62). -/
def execLsFaultFall (w e : Option (Byte × Byte)) (s : State) : Host.Outcome State Fault Refusal :=
  onDev (fun d =>
    let st := fun (x : Option (Byte × Byte)) => match x with | some v => v.1.toNat | none => 0xFF
    let ff := fun (x : Option (Byte × Byte)) => match x with | some v => v.2.toNat | none => 0xFF
    let e1 := if 2 ≤ d.boot.sb.active then e else none
    if d.live then
      ((d.i2cPoll.setCd .dvLaserCtl_lsFault 1).setCd .dvLaserCtl_lsFaultSticky 1).raise 6 0x0104
        [(8, st w), (8, ff w), (8, st e1), (8, ff e1)]
    else d) s

/-- LS_FAULT_N_RISE: LS_FAULT_N is released. -/
def execLsFaultNRise (s : State) : Host.Outcome State Fault Refusal :=
  onDev (fun d => if d.live then d.setCd .dvLaserCtl_lsFault 0 else d) s

/-! ### Light (R61) -/

/-- The light at or above which a group is lit, in 0.01 dBm: its minimum less 0.5 dB (R61). -/
def Dev.litAt (d : Dev) (g : Nat) : Int := if d.groupLr g then 1750 else 1450

/-- The light below which a lit group goes dark, in 0.01 dBm: its minimum less 1.5 dB (R61). -/
def Dev.darkBelow (d : Dev) (g : Nat) : Int := if d.groupLr g then 1650 else 1350

/-- INPUT_POWER of a group's fibre. -/
def Dev.setInput (d : Dev) (g : Nat) (power : BitVec 16) : Dev :=
  d.setFld .opFibreStatus_inputPower (5 + g / 8) (g % 8) 0 power.toNat

/-- GROUP_LIGHT_REACHED: the light of an unlit group reaches its minimum less 0.5 dB. -/
def execGroupLightReached (g : Fin 16) (power : BitVec 16) (s : State) : Host.Outcome State Fault Refusal :=
  onDev (fun d =>
    let d1 := d.setInput g power
    if d.live ∧ d.railOn (4 + g / 8) = true ∧ d.light g = 1 ∧ d.cd .dvLaserCtl_lsEnState = 1 ∧ d.litAt g ≤ power.toInt then
      (d1.setLight g 2).groupBright g
    else d1) s

/-- A group is marked dark: DARK_STICKY, alarm 0x0103, and its ports to DARK. -/
def Dev.markDark (d : Dev) (g : Nat) (power : BitVec 16) : Dev :=
  let w := 5 + g / 8
  let d1 := (d.setLight g 3).setFld .opFibreStatus_darkSticky w (g % 8) 0 1
  (d1.raise (4 + g / 8) 0x0103 [(8, g / 8), (8, g % 8), (8, g), (16, power.toNat)]).groupDark g

/-- GROUP_LIGHT_LOST: the light of a lit group falls below its minimum less 1.5 dB. -/
def execGroupLightLost (g : Fin 16) (power : BitVec 16) (s : State) : Host.Outcome State Fault Refusal :=
  onDev (fun d =>
    let d1 := d.setInput g power
    if d.live ∧ d.railOn (4 + g / 8) = true ∧ d.light g = 2 ∧ power.toInt < d.darkBelow g then d1.markDark g power else d1) s

/-- GROUP_UNLIT_TIMEOUT: a group is still unlit 50 ms after its fibre was enabled. -/
def execGroupUnlitTimeout (g : Fin 16) (power : BitVec 16) (s : State) : Host.Outcome State Fault Refusal :=
  onDev (fun d =>
    let d1 := d.setInput g power
    if d.live ∧ d.railOn (4 + g / 8) = true ∧ d.light g = 1 ∧ d.cd .dvLaserCtl_lsEnState = 1 ∧ power.toInt < d.litAt g then
      d1.markDark g power
    else d1) s

/-- GROUP_RELIT: the light of a dark group has stayed for 10 ms. -/
def execGroupRelit (g : Fin 16) (power : BitVec 16) (s : State) : Host.Outcome State Fault Refusal :=
  onDev (fun d =>
    let d1 := d.setInput g power
    if d.live ∧ d.railOn (4 + g / 8) = true ∧ d.light g = 3 ∧ d.litAt g ≤ power.toInt then (d1.setLight g 2).groupBright g
    else d1) s

/-- Whether the transmitter and receiver of a lane slot are on: it belongs to a port that is not DISABLED, or is tested
(R50, R67, Table 3-5). -/
def Dev.slotOn (d : Dev) (s : Nat) : Bool :=
  d.slotTested s ||
    (let p := match sbSlot d.boot.sb s with | .part => s / 4 * 4 | _ => s
     d.portExists p && d.linkState p ≠ 0)

/-- Whether the modulator of a lane slot is dark: it is off, or no light reaches it. -/
def Dev.modulatorDark (d : Dev) (s : Nat) : Bool := !d.slotOn s || !d.groupLit (s / 8)

/-- OPTICAL_POWER_CALIBRATION: the engine adjusts a lane's launch power and reports both powers (R291). -/
def execOpticalPowerCalibration (slot : LinePort) (tx rx : BitVec 16) (s : State) : Host.Outcome State Fault Refusal :=
  onDev (fun d =>
    if d.live ∧ d.railOn (4 + slot / 64) = true ∧ d.slotOn slot = true then
      (d.setFld .opLanePower_txPower (5 + slot / 64) (slot % 64) 0 tx.toNat).setFld .opLanePower_rxPower (5 + slot / 64)
        (slot % 64) 0 rx.toNat
    else d) s

/-! ### Bring-up (R63, R67) -/

/-- A test that holds a line lane is preempted by the enabling of its port (R290). -/
def Dev.preemptTest (d : Dev) (p : Nat) : Dev :=
  d.lnCut (.line p) 3

/-- The slots a port occupies. -/
def Dev.slotsOfPort (d : Dev) (p : Nat) : List Nat :=
  if sbSlot d.boot.sb p = .g400 then [p, p + 1, p + 2, p + 3] else [p]

/-- A port with ENABLE = 1 leaves DISABLED for DARK, and goes on when its group is lit. -/
def Dev.bringUp (d : Dev) (p : Nat) : Dev :=
  if d.linkState p = 0 ∧ d.portEnabled p = true then (d.setLink p 1).groupBright (p / 8) else d

/-- ENABLE written 1 on a line port; ignored under the factory storyboard (R42). -/
def Dev.portEnable (d : Dev) (p : Nat) : Dev :=
  if d.live ∧ d.portExists p ∧ d.boot.factory = false then
    ((d.slotsOfPort p).foldl (fun d s => d.preemptTest s) (d.setPd .ptPortCtl_enable (p / 32) 1 (p % 32))).bringUp p
  else d

/-- PORT_ENABLE: a write of PT_PORT_CTL.ENABLE = 1. -/
def execPortEnable (p : LinePort) (s : State) : Host.Outcome State Fault Refusal :=
  onReg (p.val / 32 + 1) .ptPortCtl (p.val % 32) 0 1 (fun d => d.portEnable p) s

/-- A port whose ENABLE is 0 reaches DISABLED once no frame of it is in transmission (Table 3-6).  DESIGN CHOICE (log 79):
ENABLE written 1 before that end lets the port go on. -/
def Dev.finishDisable (d : Dev) (p : Nat) : Dev :=
  if p < 128 ∧ d.linkState p ≠ 0 ∧ d.portEnabled p = false ∧ (d.sending p).isNone = true then d.linkCause p 8 else d

/-- ENABLE written 0 on a line port. -/
def Dev.portDisable (d : Dev) (p : Nat) : Dev :=
  if d.portExists p then (d.setPd .ptPortCtl_enable (p / 32) 0 (p % 32)).finishDisable p else d

/-- PORT_DISABLE: a write of PT_PORT_CTL.ENABLE = 0. -/
def execPortDisable (p : LinePort) (s : State) : Host.Outcome State Fault Refusal :=
  onReg (p.val / 32 + 1) .ptPortCtl (p.val % 32) 0 1 (fun d => d.portDisable p) s

/-- A port passes from one state of Table 3-5 to the next. -/
def Dev.linkStep (d : Dev) (p a b : Nat) : Dev :=
  if d.live ∧ d.portEnabled p = true ∧ d.linkState p = a then d.setLink p b else d

/-- PORT_SIGNAL_DETECT: receive power rises above the signal-detect level. -/
def execPortSignalDetect (p : LinePort) (s : State) : Host.Outcome State Fault Refusal := onDev (fun d => d.linkStep p 2 3) s

/-- PORT_LOCKED: lock, alignment and deskew are complete. -/
def execPortLocked (p : LinePort) (s : State) : Host.Outcome State Fault Refusal := onDev (fun d => d.linkStep p 3 4) s

/-- PORT_FAULT_CLEAR: local and remote fault are both clear. -/
def execPortFaultClear (p : LinePort) (s : State) : Host.Outcome State Fault Refusal := onDev (fun d => d.linkStep p 4 5) s

/-- A line port enters UP from DEBOUNCE: discard on arrival and hold end, its PFC frame is due, event 0x0101, and a unit in
INIT leaves it. -/
def Dev.enterUp (d : Dev) (p : Nat) : Dev :=
  let d0 := (d.slotsOfPort p).foldl (fun (d : Dev) s => d.lnTrained s) (d.setLink p 6)
  let d1 := { d0 with net := { d0.net with upSince := aset d.net.upSince p (d.ticks (p / 32)) } }
  ((((d1.outputUp p).pfcOnUp p).raise (p / 32) 0x0101 [(8, p), (2, d.portSpeed p), (2, d.portFec p)])).leaveInit

/-- UP_DEBOUNCE_EXPIRE: UP_DEBOUNCE has elapsed without a fault. -/
def execUpDebounceExpire (p : LinePort) (s : State) : Host.Outcome State Fault Refusal :=
  onDev (fun d => if d.live ∧ d.portEnabled p = true ∧ d.linkState p = 5 then d.enterUp p else d) s

/-- A down cause is detected: from UP into HOLDOFF, or at once where DOWN_HOLDOFF is 0; a port short of UP goes back to the
state the cause calls for.  On a port whose ENABLE is 0 the cause cuts the frame whose end the disable awaited (R66, R67).
DESIGN CHOICE (log 78): a second cause in HOLDOFF changes nothing; the command that ends the hold-off names the cause. -/
def Dev.downCause (d : Dev) (p cause : Nat) : Dev :=
  if cause = 7 then (if d.groupLit (p / 8) then d else d.linkCause p 7)
  else if cause = 8 then d.finishDisable p
  else if d.portEnabled p = false then (d.cutFrames p cause).finishDisable p
  else if d.linkState p = 7 then d
  else if d.linkState p = 6 ∧ d.cfg .ptPortCtl_downHoldoff (p / 32 + 1) (p % 32) ≠ 0 then (d.setLink p 7).cutFrames p cause
  else d.linkCause p cause

/-- DOWN_CAUSE: a down cause of Table 3-6 is detected. -/
def execDownCause (p : LinePort) (cause : Fin 9) (s : State) : Host.Outcome State Fault Refusal :=
  onDev (fun d => if d.live ∧ d.portExists p = true ∧ cause ≠ 0 then d.downCause p cause else d) s

/-- HOLDOFF_EXPIRE: DOWN_HOLDOFF has elapsed with a cause present. -/
def execHoldoffExpire (p : LinePort) (cause : Fin 9) (s : State) : Host.Outcome State Fault Refusal :=
  onDev (fun d => if 1 ≤ cause.val ∧ cause.val ≤ 6 ∧ d.linkState p = 7 then d.linkCause p cause else d) s

/-- DOWN_CAUSE_CLEAR: the down cause clears during HOLDOFF. -/
def execDownCauseClear (p : LinePort) (s : State) : Host.Outcome State Fault Refusal :=
  onDev (fun d =>
    if d.linkState p = 7 then (if d.portEnabled p then (d.setLink p 6).pfcOnUp p else d.finishDisable p) else d) s

/-! ### Field ports (R82, R87, R88) -/

/-- A field port comes up. -/
def Dev.fieldUp (d : Dev) (p : Nat) : Dev :=
  if d.cd .fpPortStatus_up (p - 128) = 1 then d else (d.setCd .fpPortStatus_up 1 (p - 128)).outputUp p

/-- A field port goes down. -/
def Dev.fieldDown (d : Dev) (p : Nat) : Dev :=
  if d.cd .fpPortStatus_up (p - 128) = 1 then ((d.setCd .fpPortStatus_up 0 (p - 128)).outputDown p).flushOnDown p else d

/-- ENABLE written 1 on a field port; ignored under the factory storyboard (R42). -/
def Dev.fieldEnable (d : Dev) (k : Nat) : Dev :=
  if d.live ∧ d.boot.factory = false then
    let d1 := d.setCd .fpPortCtl_enable 1 k
    if d1.inRun ∧ d1.cfg .fpPortCtl_enable 0 k = 1 then d1.fieldUp (128 + k) else d1
  else d

/-- ENABLE written 0 on a field port. -/
def Dev.fieldDisable (d : Dev) (k : Nat) : Dev := (d.setCd .fpPortCtl_enable 0 k).fieldDown (128 + k)

/-- FP_PORT_ENABLE: a write of FP_PORT_CTL.ENABLE = 1. -/
def execFpPortEnable (k : FieldPort) (s : State) : Host.Outcome State Fault Refusal :=
  onReg 0 .fpPortCtl k 0 1 (fun d => d.fieldEnable k) s

/-- FP_PORT_DISABLE: a write of FP_PORT_CTL.ENABLE = 0. -/
def execFpPortDisable (k : FieldPort) (s : State) : Host.Outcome State Fault Refusal :=
  onReg 0 .fpPortCtl k 0 1 (fun d => d.fieldDisable k) s

/-- The level of FPHY_INT_N at its ball. -/
def Dev.setPhyInt (d : Dev) (low : Bool) : Dev := { d with sup := { d.sup with phyInt := low } }

/-- A fall of FPHY_INT_N that the device sees (R82). -/
def Dev.phyIntFell (d : Dev) : Dev := ((d.setCd .fpStatus_phyInt 1).setCd .fpStatus_phyIntSticky 1).raise 6 0x0203 []

/-- FPHY_INT_N as the run scene shows it again after another scene, in which it is ignored (R321).  DEDUCED (log 80): a level
that fell meanwhile is then seen to fall. -/
def Dev.seePhyInt (d : Dev) : Dev :=
  if d.sup.phyInt then (if d.cd .fpStatus_phyInt = 0 then d.phyIntFell else d) else d.setCd .fpStatus_phyInt 0

/-- FPHY_INT_FALL: FPHY_INT_N falls; outside the run scene the ball is ignored (R82, R321). -/
def execFphyIntFall (s : State) : Host.Outcome State Fault Refusal :=
  onDev (fun d => if d.live ∧ d.inRun = true then (d.setPhyInt true).phyIntFell else d.setPhyInt true) s

/-- FPHY_INT_N_RISE: FPHY_INT_N is released. -/
def execFphyIntNRise (s : State) : Host.Outcome State Fault Refusal :=
  onDev (fun d => if d.live ∧ d.inRun = true then (d.setPhyInt false).setCd .fpStatus_phyInt 0 else d.setPhyInt false) s

/-! ### Starts and ends of frames (R66, R130, R207, R222) -/

/-- FRAME_TRANSMIT_START: an idle port chooses its next copy and begins it.  `carrier` is the carrier that a half-duplex
port senses: the copy chosen is then deferred (R83). -/
def execFrameTransmitStart (q : Port) (carrier : Bool) (s : State) : Host.Outcome State Fault Refusal :=
  onDev (fun d =>
    if q.val < 128 ∧ d.portEnabled q = false then d.finishDisable q
    else if d.canStart q then d.startLoop q (carrier && d.halfDuplex q) (d.net.copies.length + 1) else d) s

/-- FRAME_TRANSMIT_END: the last byte of the copy that a port is sending leaves it; a copy whose cells are not all there
runs dry (R207, R214). -/
def execFrameTransmitEnd (q : Port) (s : State) : Host.Outcome State Fault Refusal :=
  onDev (fun d =>
    match d.sending q with
    | none => d
    | some c =>
      match d.frame? c.frame with
      | none => d
      | some f =>
        if c.waiting then d
        else
          let d1 := if copyWhole f c ∧ copyCells f c ≤ c.front then d.endCopy q f c
            else (d.bump .swCtUnderrun (dieOf q + 1) 0 0 1).endBad f c 4
          d1.finishDisable q) s

end Sys2Proof.Machine
end

