-- ==== Sys2Proof/Machine/Scenes.lean ====
section
/-! DEFINITION. Scenes and cuts (R321–R323, R327, R328, R87, R88), fatal incidents (R391) and the start of the spill stream
(R392). -/

namespace Sys2Proof.Machine

/-- The boot block's state replaced. -/
def Dev.setBoot (d : Dev) (x : Boot) : Dev := { d with boot := x }

/-- A strap of BT_STRAPS. -/
def Dev.spillEn (d : Dev) : Bool := d.cd .btStraps_spillEn = 1

/-! ### An image write that ends (R44, R45) -/

/-- The running image write ends FAILED with a code. -/
def Dev.imageFailed (d : Dev) (code : Nat) : Dev :=
  let d1 := (d.setBoot { d.boot with write := none }).setCd .imWriteStatus_state 6
  let d2 := ((d1.setCd .imWriteStatus_code code).setCd .imWriteCtl_start 0).setCd .imWriteCtl_abort 0
  (d2.raise 6 0x0C08 [(2, d.cd .imWriteStatus_target), (4, code), (16, d.cd .imWriteStatus_progress)]).irq 8

/-- Whether a write that ends must leave its first sector erased and has not: it holds the header of this image or of the
one before it (R45). -/
def ImgWrite.owes (w : ImgWrite) : Bool := w.headerDone || !w.erased

/-- A cut to spill ends a running write at once and abandons the flash command in progress; an erase that R45 calls for is
owed (R328). -/
def Dev.imageSpilled (d : Dev) : Dev :=
  match d.boot.write with
  | some w => (d.setBoot { d.boot with issued := false, eraseDebt := d.boot.eraseDebt || w.owes }).imageFailed 10
  | none => d.setBoot { d.boot with issued := false }

/-! ### Cuts (R323) -/

/-- A cut begins: the frames in flight at the field ports are lost under the two counters of its kind. -/
def Dev.beginCut (d : Dev) (into rx tx : Nat) : Dev :=
  let d1 := if d.inRun then
      [128, 129, 130, 131].foldl (fun d p =>
        let d2 := d.cutReception p rx 2
        if (d2.sending p).isSome then d2.cutTransmission p tx else d2) d
    else d
  (d1.setBoot { d1.boot with cutTo := some into }).setCd .btSceneStatus_cutting 1

/-- The cut to the spill scene is made: its source is 0 for an incident and 1 for SPILL_TEST (R328, R88). -/
def Dev.spillCut (d : Dev) (source : Nat) : Dev :=
  let scene := d.cd .btSceneStatus_scene
  let d1 := (d.beginCut 3 3 0x35).setBoot { (d.beginCut 3 3 0x35).boot with spillDue := none, spillAt := d.ticks 4 }
  let d2 := ((d1.setCd .btSceneStatus_spillSticky 1).raise 6 0x0C0A [(1, source), (2, scene)]).irq 11
  [128, 129, 130, 131].foldl (fun d p => d.fieldDown p) d2.imageSpilled

/-- Whether the balls stand in the boot scene, or are leaving it for the run scene. -/
def Dev.bootScene (d : Dev) : Bool := d.cd .btSceneStatus_scene = 0

/-- Whether the balls are in the spill scene or on their way there. -/
def Dev.toSpill (d : Dev) : Bool :=
  d.boot.cutTo = some 3 || (d.cd .btSceneStatus_scene = 3 && d.cd .btSceneStatus_cutting = 0)

/-- A cut to spill is asked for: it is due, and one asked for in the boot scene waits for the run scene (R328). -/
def Dev.askSpill (d : Dev) (source : Nat) : Dev :=
  if d.spillEn ∧ d.toSpill = false ∧ d.boot.spillDue = none then d.setBoot { d.boot with spillDue := some source } else d

/-- SPILL_CUT: within 1 µs of a fatal incident the cut begins. -/
def execSpillCut (s : State) : Host.Outcome State Fault Refusal :=
  onDev (fun d =>
    match d.boot.spillDue with
    | some x => if d.bootScene then d else d.spillCut x
    | none => d) s

/-- SPILL_TEST written. -/
def Dev.spillTest (d : Dev) : Dev :=
  let d1 := d.askSpill 1
  if d1.boot.spillDue = some 1 ∧ d1.bootScene = false then d1.spillCut 1 else d1

/-- SPILL_TEST: a write of BT_BOOT_CTL.SPILL_TEST. -/
def execSpillTest (s : State) : Host.Outcome State Fault Refusal :=
  onReg 0 .btBootCtl 0 0 4 (fun d => d.spillTest) s

/-- SPILL_RELEASE written: ignored outside the spill scene. -/
def Dev.spillRelease (d : Dev) : Dev :=
  if d.spilling then
    ((d.beginCut 2 3 0x35).raise 6 0x0C0C [(32, (d.ticks 4 - d.boot.spillAt) * 2 / 1000)]).irq 11
  else d

/-- SPILL_RELEASE: a write of BT_BOOT_CTL.SPILL_RELEASE. -/
def execSpillRelease (s : State) : Host.Outcome State Fault Refusal :=
  onReg 0 .btBootCtl 0 0 2 (fun d => d.spillRelease) s

/-- Whether a register of the boot, image-store and scene block is in its safe state, which keeps a running image write from
its next cutaway (Table 16-10). -/
def Dev.imageHeld (d : Dev) : Bool := d.inSafe .imWriteLen 0 || d.inSafe .btCutawayCtl 0

/-- Whether the balls stand in the cutaway scene with its role driven. -/
def Dev.flashScene (d : Dev) : Bool := d.cd .btSceneStatus_scene = 1 && d.cd .btSceneStatus_cutting = 0

/-- In the cutaway scene the controller issues its next flash command, when it has one (R44, R327). -/
def Dev.issueFlash (d : Dev) : Dev :=
  if d.boot.write.isSome ∨ d.boot.eraseDebt = true then d.setBoot { d.boot with issued := true } else d

/-- Whether MIN_RUN_MS of run time separate the end of the last cutaway from now (R327). -/
def Dev.ranEnough (d : Dev) : Bool :=
  match d.boot.runAt with
  | none => true
  | some t => t + d.cfg .btCutawayCtl_minRunMs 0 * 500000 ≤ d.ticks 4

/-- CUTAWAY_BEGIN: the image-store controller needs the flash. -/
def Dev.cutawayBegin (d : Dev) : Dev :=
  if d.inRun ∧ d.boot.spillDue = none ∧ (d.boot.write.isSome ∨ d.boot.eraseDebt = true) ∧ d.imageHeld = false ∧
      d.ranEnough = true then
    let d1 := (d.beginCut 1 2 0x34).bump .fpCutawayCount 0 0 0 1
    d1.setBoot { d1.boot with cutAt := d.ticks 4 }
  else d

/-- CUTAWAY_BEGIN. -/
def execCutawayBegin (s : State) : Host.Outcome State Fault Refusal := onDev (fun d => d.cutawayBegin) s

/-- CUTAWAY_END: the cutaway reaches its planned end. -/
def execCutawayEnd (s : State) : Host.Outcome State Fault Refusal :=
  onDev (fun d =>
    if d.cd .btSceneStatus_scene = 1 ∧ d.cd .btSceneStatus_cutting = 0 then d.beginCut 2 2 0x34 else d) s

/-- The stream's first records: those of each first-take buffer, then each ring's undelivered ones (R392). -/
def Dev.spillStream (d : Dev) : Dev :=
  let rs := d.dies ++ [4]
  { d with out := d.out ++ rs.flatMap (fun r => (d.ring r).ftb.map (fun e => Out.spill e true)) ++
      rs.flatMap (fun r => (d.ring r).recs.map (fun e => Out.spill e false)) }

/-- The enabled field ports come up in the run scene (R82). -/
def Dev.fieldsUp (d : Dev) : Dev :=
  [0, 1, 2, 3].foldl (fun d k =>
    if d.cfg .fpPortCtl_enable 0 k = 1 ∧ d.boot.factory = false then d.fieldUp (128 + k) else d) d

/-- The instant from which run time counts since the last cutaway; time outside the run scene moves it on (R327). -/
def Dev.withRun (d : Dev) (t : Option Nat) : Dev := d.setBoot { d.boot with runAt := t }

/-- CUT_COMPLETE: the scene bits have changed and the new role is driven. -/
def Dev.cutComplete (d : Dev) : Dev :=
  match d.boot.cutTo with
  | none => d
  | some into =>
    let from_ := d.cd .btSceneStatus_scene
    let d1 := ((d.setBoot { d.boot with cutTo := none }).setCd .btSceneStatus_scene into).setCd .btSceneStatus_cutting 0
    let ran := if from_ = 1 then some (d.ticks 4) else if from_ = 3 then d.boot.runAt.map (· + (d.ticks 4 - d.boot.spillAt))
      else d.boot.runAt
    let d2 := (if from_ = 1 then d1.bump .fpCutawayTime 0 0 0 ((d.ticks 4 - d.boot.cutAt) * 2 / 1000) else d1).withRun ran
    if into = 2 then
      let d3 := d2.fieldsUp.seePhyInt
      match d3.boot.spillDue with
      | some x => d3.spillCut x
      | none => d3
    else if into = 3 then d2.spillStream
    else d2.issueFlash

/-- CUT_COMPLETE. -/
def execCutComplete (s : State) : Host.Outcome State Fault Refusal := onDev (fun d => d.cutComplete) s

/-! ### Fatal incidents (R391) -/

/-- A fatal incident: it triggers an incident on every ring, is recorded in OB_FATAL, raises alarm 0x1106 and asks for the
spill scene.  `first` is its own record in the CD's ring, if it has one. -/
def Dev.fatal (d : Dev) (cause : Nat) (first : List EvRec) : Dev :=
  let d1 := (d.dies ++ [4]).foldl (fun (d : Dev) r =>
    if (d.ring r).incident then d else d.beginIncident r 4 (if r = 4 then first else [])) d
  (((d1.setCd .obFatal_cause cause).setCd .obFatal_fatalSticky 1).raise 6 0x1106 [(3, cause)]).askSpill 0

/-- An event that is a fatal incident. -/
def Dev.fatalEvent (d : Dev) (die code cause : Nat) (pl : List (Nat × Nat)) : Dev :=
  (d.raise die code pl).fatal cause [d.mkRec die code pl]

end Sys2Proof.Machine
end

