-- ==== Sys2Proof/Machine/ImageStore.lean ====
section
/-! DEFINITION. Image writes (R43–R46): the checks of START, the flash operations of Table 2-9 sector by sector, ABORT and
the erases that a failed write owes (R45, R328). -/

namespace Sys2Proof.Machine

/-- The bank that image writes go to: the one not chosen at this boot, A under the factory storyboard (R43). -/
def Dev.imageTarget (d : Dev) : Bank := if d.cd .imWriteStatus_target = 1 then .b else .a

/-- Whether an image write runs: STATE is CHECK, ERASE, PROGRAM or VERIFY. -/
def Dev.imageRuns (d : Dev) : Bool := 1 ≤ d.cd .imWriteStatus_state && d.cd .imWriteStatus_state ≤ 4

/-- The flash sectors of 64 KiB that an image occupies. -/
def imgSectors (i : Image) : Nat := (ImgHeader.total (imgHdr i) + 65535) / 65536

/-- The code with which steps 1 to 3 of Table 2-9 refuse an image, 0 when they pass. -/
def imgCheck (o : Otp) (d : Dev) (i : Image) (readable : Bool) : Nat :=
  let h := imgHdr i
  if readable = false ∨ ImgHeader.isImage h = false then 1
  else if h.length = 0 ∨ 25165824 < h.length ∨ d.cfg .imWriteLen_len 0 ≠ ImgHeader.total h then 2
  else if d.boot.factory = false ∧ ¬ 0 < toSigned 32 (h.sequence + 2 ^ 32 - d.cd .imBootSeq_seq % 2 ^ 32) then 3
  else if Otp.holds o h.keyIndex h.pubkey = false ∨ (Otp.slot o h.keyIndex).dead = true then 4
  else if h.rollback < Otp.rollback o then 5
  else 0

/-- The first sector of a bank erased: it reads 0xFF where MAGIC should be. -/
def Flash.eraseFirst (f : Flash) (t : Bank) : Flash := Flash.setBank f t { Flash.bank f t with hdr := none }

/-- STATE of an image write changes, with the operations of the new state left to do. -/
def Dev.imageState (d : Dev) (w : ImgWrite) (state todo : Nat) : Dev :=
  (d.setBoot { d.boot with write := some { w with todo := todo } }).setCd .imWriteStatus_state state

/-- START written with an image in host memory: ignored during a write, else steps 1 to 3, and step 4 is entered. -/
def State.imageStart (s : State) (i : Image) (readable : Bool) : State :=
  let d := s.dev
  if d.imageRuns then { s with dev := d.raise 6 0x0C09 [(3, d.cd .imWriteStatus_state)] }
  else if d.boot.applied = false then s
  else
    let d1 := (((d.setCd .imWriteCtl_start 1).setCd .imWriteStatus_state 1).setCd .imWriteStatus_code 0).setCd
      .imWriteStatus_progress 0
    match imgCheck s.otp d i readable with
    | 0 =>
      let d2 := d1.imageState { img := i, erased := (Flash.bank s.flash d.imageTarget).hdr.isNone } 2
        (imgSectors i)
      { s with dev := d2.setBoot { d2.boot with eraseDebt := false } }
    | c => { s with dev := d1.imageFailed c }

/-- IM_WRITE_START: a write of IM_WRITE_CTL.START, with the image that stands in host memory at IM_WRITE_SRC and whether it
could be read. -/
def execImWriteStart (i : Image) (readable : Bool) (s : State) : Host.Outcome State Fault Refusal :=
  let s1 := { s with dev := s.dev.quiet }
  .next (if s1.dev.hostUp then s1.imageStart i readable else s1)

/-- ABORT written: it is kept until the flash operation in progress ends; with no write running it does nothing. -/
def Dev.imageAbort (d : Dev) : Dev :=
  match d.boot.write with
  | some w =>
    if w.failing.isSome then d
    else (d.setBoot { d.boot with write := some { w with abort := true } }).setCd .imWriteCtl_abort 1
  | none => d

/-- IM_WRITE_ABORT: a write of IM_WRITE_CTL.ABORT. -/
def execImWriteAbort (s : State) : Host.Outcome State Fault Refusal := onReg 0 .imWriteCtl 0 0 2 (fun d => d.imageAbort) s

/-- A write fails after step 3: at once when its first sector is erased, else once that sector is erased (R45). -/
def Dev.imageStop (d : Dev) (w : ImgWrite) (code : Nat) : Dev :=
  if w.owes then d.setBoot { d.boot with write := some { w with failing := some code, abort := false } }
  else d.imageFailed code

/-- A write ends DONE. -/
def Dev.imageDone (d : Dev) (w : ImgWrite) : Dev :=
  let d1 := ((d.setBoot { d.boot with write := none }).setCd .imWriteStatus_state 5).setCd .imWriteCtl_start 0
  ((d1.setCd .imWriteCtl_abort 0).raise 6 0x0C07 [(2, d.cd .imWriteStatus_target), (32, (imgHdr w.img).sequence)]).irq 8

/-- The flash operation of a running write ends. -/
def State.imageOp (s : State) (w : ImgWrite) (r : FlashEnd) : State :=
  let d := s.dev
  let t := d.imageTarget
  let kib := ImgHeader.total (imgHdr w.img) / 1024
  match w.failing with
  | some c => { s with flash := Flash.eraseFirst s.flash t, dev := d.imageFailed c }
  | none =>
    if r ≠ .ok ∧ d.cd .imWriteStatus_state = 4 then { s with dev := d.imageStop w 8 }
    else if r = .flashError then { s with dev := d.imageStop w 7 }
    else if d.cd .imWriteStatus_state = 2 then
      let f := Flash.setBank s.flash t { Flash.bank s.flash t with hdr := none, body := none }
      let w1 : ImgWrite := { w with erased := true }
      if w.abort then { s with flash := f, dev := d.imageStop w1 9 }
      else if 1 < w.todo then { s with flash := f, dev := d.imageState w1 2 (w.todo - 1) }
      else { s with flash := f, dev := d.imageState w1 3 (imgSectors w.img + 1) }
    else if d.cd .imWriteStatus_state = 3 then
      if r = .hostReadError then { s with dev := d.imageStop w 6 }
      else if 1 < w.todo then
        let done := imgSectors w.img + 2 - w.todo
        let f := if w.todo = 2 then
            Flash.setBank s.flash t { Flash.bank s.flash t with body := some (imgBody w.img, imgSig w.img) }
          else s.flash
        let d1 := (d.imageState w 3 (w.todo - 1)).setCd .imWriteStatus_progress (min (64 * done) kib)
        if w.abort then { s with flash := f, dev := d1.imageStop w 9 } else { s with flash := f, dev := d1 }
      else
        let f := Flash.setBank s.flash t { Flash.bank s.flash t with hdr := some (imgHdr w.img) }
        let w1 : ImgWrite := { w with headerDone := true }
        if w.abort then { s with flash := f, dev := (d.imageState w1 3 0).imageStop w1 9 }
        else { s with flash := f, dev := d.imageState w1 4 1 }
    else if w.abort then { s with dev := d.imageStop w 9 }
    else if bankResult s.otp true (Flash.bank s.flash t) ≠ 0 then { s with dev := d.imageStop w 8 }
    else { s with dev := d.imageDone w }

/-- The flash operation that a cutaway issued ends: of the running write, or the erase that a write ended by a cut to spill
owes (R328); in the cutaway scene the controller issues its next one (R44). -/
def State.flashOp (s : State) (r : FlashEnd) : State :=
  let d := s.dev
  if d.boot.issued = false then s
  else
    let s1 : State := { s with dev := d.setBoot { d.boot with issued := d.flashScene } }
    match d.boot.write with
    | some w => s1.imageOp w r
    | none =>
      if d.boot.eraseDebt then
        { s1 with flash := Flash.eraseFirst s.flash d.imageTarget,
                  dev := s1.dev.setBoot { s1.dev.boot with eraseDebt := false } }
      else s1

/-- IM_FLASH_OP_COMPLETE: an erase, program or read-back operation of the image-store controller ends; nothing ends while
none was issued. -/
def execImFlashOpComplete (r : FlashEnd) (s : State) : Host.Outcome State Fault Refusal :=
  .next (State.flashOp { s with dev := s.dev.quiet } r)

end Sys2Proof.Machine
end

