-- ==== Sys2Proof/Machine/Takes.lean ====
section
/-! DEFINITION. Takes (Classification, inspection and takes): versions (R126–R128), draining, retirement and reclaim
(R130, R131), commits (R132–R134, R136) and the software batch (R135); with the results of intents that commits give
(R247). -/

namespace Sys2Proof.Machine

/-! ### Versions -/

/-- Every version of placement passed through a function that changes or frees it. -/
def Plc.mapVers (p : Plc) (f : Ver → Option Ver) : Plc :=
  { p with
    objs := p.objs.filterMap (fun o => (f o.v).map (fun v => { o with v := v }))
    rules := p.rules.filterMap (fun o => (f o.v).map (fun v => { o with v := v }))
    pats := p.pats.filterMap (fun o => (f o.v).map (fun v => { o with v := v }))
    binds := p.binds.filterMap (fun o => (f o.v).map (fun v => { o with v := v }))
    cam := p.cam.filterMap (fun o => (f o.v).map (fun v => { o with v := v }))
    evicts := p.evicts.filterMap (fun o => (f o.2.2.v).map (fun v => (o.1, o.2.1, { o.2.2 with v := v }))) }

/-- Every static version of a die's address table passed through such a function. -/
def Fw.mapVers (x : Fw) (f : Ver → Option Ver) : Fw :=
  { x with table := x.table.filterMap (fun e =>
      if e.2.static then (f e.2.v).map (fun v => (e.1, { e.2 with v := v })) else some e) }

/-- Every take-versioned object of the device passed through such a function (Table 6-9). -/
def Dev.mapVers (d : Dev) (f : Ver → Option Ver) : Dev :=
  { d with plc := d.plc.mapVers f, fw := d.fw.map (fun x => x.mapVers f) }

/-- All versions, for counting. -/
def Dev.versions (d : Dev) : List Ver :=
  d.plc.objs.map (·.v) ++ d.plc.rules.map (·.v) ++ d.plc.pats.map (·.v) ++ d.plc.binds.map (·.v) ++ d.plc.cam.map (·.v) ++
    d.plc.evicts.map (·.2.2.v) ++ d.fw.toList.flatMap (fun x => (x.table.filter (·.2.static)).map (·.2.v))

/-- A version sealed by commit k in take N (R132 step 3). -/
def Ver.seal (k n : Nat) (v : Ver) : Option Ver :=
  some { v with
    from_ := if v.pending ∧ v.owner = k then some n else v.from_
    pending := v.pending && v.owner ≠ k
    until_ := if v.enders.contains k ∧ v.until_ = none then some n else v.until_
    enders := v.enders.filter (· ≠ k) }

/-- A version after commit k has been given up: its pending versions are freed (R135, R248, R252). -/
def Ver.giveUp (k : Nat) (v : Ver) : Option Ver :=
  if v.pending ∧ v.owner = k then none else some { v with enders := v.enders.filter (· ≠ k) }

/-- A version after reclaim: freed when its UNTIL is not newer than the oldest live take, and its FROM set to ALWAYS when
that is not newer (R131). -/
def Ver.reclaim (oldest : Nat) (v : Ver) : Option Ver :=
  match v.until_ with
  | some u => if takeNewer u oldest then
      some { v with from_ := v.from_.filter (fun f => takeNewer f oldest) } else none
  | none => some { v with from_ := v.from_.filter (fun f => takeNewer f oldest) }

/-- Whether a version is the latest of its object: nothing has ended it or will. -/
def Ver.latest (v : Ver) : Bool := v.until_.isNone && v.enders.isEmpty

/-- A version that commit k will end. -/
def Ver.endBy (k : Nat) (v : Ver) : Ver :=
  if v.until_.isNone ∧ v.enders.contains k = false then { v with enders := v.enders ++ [k] } else v

/-- A version that commit k will begin. -/
def Ver.begin_ (k : Nat) : Ver := { pending := true, owner := k }

/-- Whether the versions of commit k are the software batch's: owner 1, or an intent of the batch whose result is not written
yet. -/
def Dev.ofBatch (d : Dev) (k : Nat) : Bool := k = 1 || (k ≠ 0 && d.plc.outq.any (fun o => o.owner = k && o.batch))

/-- The pending versions of a commit. -/
def Dev.pendingOf (d : Dev) (k : Nat) : Nat := (d.versions.filter (fun v => v.pending && v.owner = k)).length

/-- The pending versions of a commit where they lie: the slot positions of associative-memory rules, the tree rules, the
patterns and the bindings, the static entries on each die, and the other objects (R132 step 3, Table 6-9). -/
def Dev.stagedOf (d : Dev) (k : Nat) : Nat :=
  let mine := fun (v : Ver) => v.pending && (v.owner = k || (k = 1 && d.ofBatch v.owner))
  let tree := fun (g : Nat) => d.plc.objs.any (fun o => o.h = g && (match o.data with | .rules t _ _ _ => t | _ => false))
  let own := fun (x : ObjData) => match x with | .rules _ _ _ _ | .patterns _ | .static _ => false | _ => true
  ((d.plc.objs.filter (fun o => own o.data && mine o.v)).length) + (d.plc.rules.filter (fun r => tree r.g && mine r.v)).length +
    (d.plc.cam.filter (fun e => mine e.v)).foldl (fun a e => a + e.parts) 0 +
    ((d.plc.pats.map (·.v) ++ d.plc.binds.map (·.v) ++ d.plc.evicts.map (·.2.2.v) ++
      d.fw.toList.flatMap (fun x => (x.table.filter (·.2.static)).map (·.2.v))).filter mine).length

/-- Whether a commit changes nothing. -/
def Dev.emptyCommit (d : Dev) (k : Nat) : Bool :=
  d.versions.all (fun v => !(v.pending && v.owner = k) && !v.enders.contains k)

/-! ### Live takes -/

/-- The oldest live take. -/
def Dev.oldest (d : Dev) : Nat := d.tak.live.head?.getD 0

/-- The newest live take, which is current. -/
def Dev.curTake (d : Dev) : Nat := d.tak.live.getLast?.getD 0

/-- TK_INFLIGHT: the frames of a take that a die stamped and that have not completed (R130). -/
def Dev.inflight (d : Dev) (n t : Nat) : Nat :=
  (d.net.frames.filter (fun f => f.die = n && f.take % 16 = t && !decide (f.stage = .cd))).length

/-- Whether the unit follows its peer's takes: a STANDBY with the link up that has adopted the active's numbering (R308,
R309). -/
def Dev.follows (d : Dev) : Bool := d.cd .duStatus_role = 2 && d.cd .duStatus_ctUp = 1 && d.duo.adopted

/-! ### Halves and banks (R120, R121) -/

/-- The half or bank entry of a die. -/
def Dev.halfVer (d : Dev) (pattern : Bool) (n : Nat) : HalfVer :=
  (d.plc.halves.find? (fun h => h.pattern = pattern && h.die = n)).getD ⟨pattern, n, 0, none⟩

/-- The half or bank that the current take uses. -/
def Dev.halfNow (d : Dev) (pattern : Bool) (n : Nat) : Nat :=
  let h := d.halfVer pattern n
  match h.from_ with
  | some f => if takeNewer f (d.takeOf n) then 1 - h.half else h.half
  | none => h.half

/-- Whether a live take uses the half or bank that a build goes into. -/
def Dev.otherUsed (d : Dev) (pattern : Bool) (n : Nat) : Bool :=
  match (d.halfVer pattern n).from_ with
  | some f => d.tak.live.any (fun t => takeNewer f t)
  | none => false

/-- A half or bank changes in take N. -/
def Dev.flipHalf (d : Dev) (pattern : Bool) (n t : Nat) : Dev :=
  let h := d.halfVer pattern n
  let new : HalfVer := { h with half := 1 - h.half, from_ := some t }
  { d with plc := { d.plc with
      halves := new :: d.plc.halves.filter (fun x => !(decide (x.pattern = pattern) && x.die = n)) } }

/-- The dies of a list of ports. -/
def diesOf (ps : List Nat) : List Nat := (List.range 4).filter (fun n => ps.any (fun p => dieOf p = n))

/-- Whether commit k begins or ends a version. -/
def Ver.concerns (k : Nat) (v : Ver) : Bool := (v.pending && v.owner = k) || v.enders.contains k

/-- The ports an object is bound to. -/
def portsOf : ObjData → List Nat
  | .rules _ _ _ ps => ps
  | .patterns ps => ps
  | _ => []

/-- The node halves (false) and pattern banks (true) of dies that the take of commit k changes: a full build goes into the
other half, and so do changed patterns into the other bank (R120, R121). -/
def Dev.flipsOf (d : Dev) (k : Nat) : List (Bool × Nat) :=
  let trees := (d.plc.built.filter (fun b => b.1 = k)).map (fun b => (false, b.2.1))
  let groups := d.plc.objs.filter (fun o => o.data.kind = 3 &&
    (o.v.concerns k || d.plc.pats.any (fun p => p.g = o.h && p.v.concerns k)))
  trees ++ (diesOf (groups.flatMap (fun o => portsOf o.data))).map (fun n => (true, n))

/-! ### Instances (R231, R251) -/

/-- Whether a die's program store names a binding slot in a METER (0x27) or a COUNT (0x28). -/
def namesSlot (sb : Storyboard) (n op slot : Nat) : Bool :=
  sb.programs.any (fun p => p.die = n && p.words.any (fun w => opOf w.toNat = op && w.toNat % 4096 = slot))

/-- Whether an instance is still wanted on a die: some binding of a slot its programs name is to the object. -/
def Dev.instanceKept (d : Dev) (op h n : Nat) : Bool :=
  d.plc.binds.any (fun b => b.h = h && namesSlot d.boot.sb n op b.slot)

/-- What no version names any more is freed: instances with their buckets, match counters, and the state of streams. -/
def Dev.sweepRoom (d : Dev) : Dev :=
  let gone := d.plc.meters.filter (fun m => !d.instanceKept 0x27 m.h m.die)
  let ids := d.plc.objs.filterMap (fun o => match o.data with | .stream r => some r.id | _ => none)
  let lost := fun (k : BKey) => match k with
    | .meterC n h | .meterP n h => gone.any (fun m => m.die = n && m.h = h)
    | _ => false
  { d with
    plc := { d.plc with
      meters := d.plc.meters.filter (fun m => d.instanceKept 0x27 m.h m.die)
      cblks := d.plc.cblks.filter (fun m => d.instanceKept 0x28 m.h m.die)
      matches_ := d.plc.matches_.filter (fun e => d.plc.rules.any (fun r => r.g = e.2.1 && r.r.id = e.2.2.1) &&
        d.plc.objs.any (fun o => o.h = e.2.1 && (portsOf o.data).any (fun p => dieOf p = e.1))) }
    bkts := d.bkts.filter (fun b => !lost b.1)
    fw := d.fw.map (fun x => { x with
      gen := x.gen.filter (fun e => ids.contains e.1), recov := x.recov.filter (fun e => ids.contains e.1) }) }

/-! ### Results of intents (R247) -/

/-- The descriptors of the ring. -/
def Dev.ringSize (d : Dev) : Nat := 2 ^ d.cd .plCtl_ringLog2

/-- The intents between PL_HEAD and PL_TAIL. -/
def Dev.queued (d : Dev) : Nat := (d.cd .plTail_tail + d.ringSize - d.cd .plHead_head % d.ringSize) % d.ringSize

/-- The first index at which a commit of a list waits for no intent any more moves it behind those requested before. -/
def countDown (l : List Commit) : List Commit :=
  let l1 := l.map (fun c => { c with ahead := c.ahead - 1 })
  let due := (l.filter (fun c => c.ahead = 1)).map (·.owner)
  l1.filter (fun c => !due.contains c.owner) ++ l1.filter (fun c => due.contains c.owner)

/-- Versions of commit a become versions of commit b. -/
def Ver.reown (a b : Nat) (v : Ver) : Option Ver :=
  some { v with owner := if v.owner = a then b else v.owner, enders := (v.enders.map (fun x => if x = a then b else x)).eraseDups }

/-- A commit's versions, builds and intents pass to another. -/
def Dev.reown (d : Dev) (a b : Nat) : Dev :=
  let d1 := d.mapVers (Ver.reown a b)
  { d1 with plc := { d1.plc with
      built := d1.plc.built.map (fun x => if x.1 = a then (b, x.2.1, x.2.2) else x)
      outq := d1.plc.outq.map (fun (o : IntentOut) => if o.owner = a then { o with owner := b } else o) } }

/-- A result is written into its descriptor, then DONE, and PL_HEAD advances (R247, Table 11-2).  The versions of an intent
that is STAGED are the batch's from then on. -/
def Dev.writeResult (d : Dev) (o : IntentOut) : Dev :=
  let code := o.code.getD 0
  let at_ := (d.wide .plRingBase 0 + 64 * o.idx) % 2 ^ 64
  let w := fun (a : Nat) (l : List Nat) => Out.hostWrite (a % 2 ^ 64) (toBytes l)
  let d1 := { d with
    out := d.out ++ (match o.answer with | some k => [w (at_ + 8) (leBytes 4 k)] | none => []) ++
      [w (at_ + 36) (leBytes 4 o.whereAt ++ leBytes 4 o.atIndex ++ leBytes 4 o.take), w (at_ + 32) (leBytes 4 (code + 256))]
    tak := { d.tak with commits := countDown d.tak.commits } }
  let d0 := if code = 2 then d1.reown o.owner 1 else d1
  let d2 := ((d0.setCd .plHead_head ((o.idx + 1) % d.ringSize)).setCd .plStatus_lastCode code).bump .plDoneCount 0 0 0 1
  let d3 := if code ≤ 2 then d2
    else ((d2.setCd .plStatus_failSticky 1).bump .plFailCount 0 0 0 1).raise 6 0x0901
      [(32, o.handle), (4, o.op), (8, code), (16, o.whereAt), (32, o.atIndex)]
  if o.irq then d3.irq 2 else d3

/-- The results at the front of the outstanding intents are written in ring order. -/
def Dev.flushOut (d : Dev) : List IntentOut → Dev
  | [] => { d with plc := { d.plc with outq := [] } }
  | o :: rest =>
    match o.code with
    | some _ => (d.writeResult o).flushOut rest
    | none => { d with plc := { d.plc with outq := o :: rest } }

/-- The results that can be written are written. -/
def Dev.flushResults (d : Dev) : Dev := d.flushOut d.plc.outq

/-- The intents of a commit end with a code and a take. -/
def Dev.endIntents (d : Dev) (k code take : Nat) : Dev :=
  { d with plc := { d.plc with outq := d.plc.outq.map (fun o =>
      if o.owner = k ∧ o.code = none then { o with code := some code, take := take } else o) } }

/-! ### Commits (R132–R134) -/

/-- The device with a commit replaced by its owner. -/
def Dev.setCommit (d : Dev) (c : Commit) : Dev :=
  { d with tak := { d.tak with commits := d.tak.commits.map (fun x => if x.owner = c.owner then c else x) } }

/-- The device without a commit, its timed-action entry freed (R134). -/
def Dev.dropCommit (d : Dev) (c : Commit) : Dev :=
  let d1 := match c.entry with | some i => d.dropTimer i | none => d
  { d1 with tak := { d1.tak with commits := d1.tak.commits.filter (fun x => x.owner ≠ c.owner) } }

/-- The commit in progress: from its step 1 until its step 6 (R250). -/
def Dev.commitNow (d : Dev) : Option Commit := d.tak.commits.find? (fun c => !decide (c.step = .queued))

/-- Whether a requested commit may become active: every intent it waits for is done, and its time is at most 100 µs away
(R132 step 1, R135). -/
def Dev.commitReady (d : Dev) (c : Commit) : Bool :=
  decide (c.step = .queued) && c.ahead = 0 && (match c.timed with | none => true | some t => decide (0 ≤ diff64 (d.now 4 + 100000) t))

/-- A code of a request made through TK_CTL (R136). -/
def Dev.tkCode (d : Dev) (code : Nat) : Dev := (d.setCd .tkStatus_code code).irq 3

/-- The software batch's COMMIT is over. -/
def Dev.endBatch (d : Dev) (code : Nat) (close late : Bool) : Dev :=
  let d1 := (d.setCd .tkCtl_commit 0)
  let d2 := { d1 with tak := { d1.tak with committing := false } }
  let d3 := if close then (d2.setCd .tkStatus_batchOpen 0).setCd .tkStatus_late (if late then 1 else 0) else d2
  d3.tkCode code

/-- The first commit that may, becomes active when none is in progress; a batch with nothing to seal ends there
(Table 6-12). -/
def Dev.activate (d : Dev) : Dev :=
  if d.commitNow.isSome ∨ d.follows = true then d
  else
    match d.tak.commits.find? d.commitReady with
    | none => d
    | some c =>
      if c.batch ∧ d.emptyCommit c.owner = true then (d.dropCommit c).endBatch 2 true false
      else d.setCommit { c with step := .active, n := (d.curTake + 1) % 16 }

/-- Whether take N lies within 7 of every take that is live or not reclaimed yet.  DEDUCED (log 91): R126 says that the device
holds the takes it compares so, and a commit waits for it in step 2. -/
def Dev.takesNear (d : Dev) (n : Nat) : Bool := (d.tak.live ++ d.tak.reclaim).all (fun t => (n + 16 - t % 16) % 16 ≤ 7)

/-- Whether the wait of step 2 is over. -/
def Dev.canSeal (d : Dev) (c : Commit) : Bool :=
  d.tak.live.length ≤ 2 && d.takesNear c.n && !d.tak.reclaim.contains c.n && (d.flipsOf c.owner).all (fun x => !d.otherUsed x.1 x.2)

/-- The static entries of a commit that awaited an eviction enter the table; each learned entry that gives way counts
FW_EVICT (R251). -/
def Dev.sealEvicts (d : Dev) (k : Nat) : Dev :=
  let mine := d.plc.evicts.filter (fun e => !e.2.2.v.pending && e.2.2.v.owner = k)
  let d1 := { d with plc := { d.plc with evicts := d.plc.evicts.filter (fun e => e.2.2.v.pending || e.2.2.v.owner ≠ k) } }
  mine.foldl (fun d e =>
    let d2 := match d.entAt e.1 e.2.1 with | some x => if x.static then d else d.bump .fwEvict (e.1 + 1) 0 0 1 | none => d
    d2.putEnt e.1 e.2.1 e.2.2) d1

/-- The commits of software origin that a commit stands for (R308). -/
def Dev.softwareCommits (d : Dev) (c : Commit) : Nat :=
  if c.batch then 1 else (d.plc.outq.filter (fun o => o.owner = c.owner && o.code.isNone)).length

/-- A message leaves on every continuity lane in lock (R303). -/
def Dev.ctSend (d : Dev) (kind : Nat) (payload : List Nat) : Dev :=
  if d.cd .duStatus_duo = 1 then
    { d with out := d.out ++ (portSet (d.cd .duStatus_ctLanes) 4).map (fun k => Out.ctMsg k kind payload) }
  else d

/-- A message with the next sequence number leaves (R303). -/
def Dev.ctNext (d : Dev) (kind : Nat) (payload : List Nat) : Dev :=
  let n := d.duo.sendSeq
  ({ d with duo := { d.duo with sendSeq := (n + 1) % 2 ^ 16 } } : Dev).ctSend kind (n :: payload)

/-- Steps 3 and 4: every pending version of a commit is sealed in take N, and N is to become current at S; an ACTIVE unit
sends TAKE (R308). -/
def Dev.sealCommit (d : Dev) (c : Commit) (n s : Nat) (late : Bool) : Dev :=
  let d1 := (d.mapVers (Ver.seal c.owner n)).sealEvicts c.owner
  let d2 := (d.flipsOf c.owner).foldl (fun d x => d.flipHalf x.1 x.2 n) d1
  let d3 := (d2.bump .duCommitCount 0 0 0 (d.softwareCommits c)).setCommit { c with step := .sealed, n := n, s := s, late := late }
  if d3.cd .duStatus_role = 3 then d3.ctNext 3 [n, s / nsUnit, d3.wide .duCommitCount 0] else d3

/-- Step 4: S for a commit whose sealing ends now, and whether it is LATE. -/
def Dev.switchAt (d : Dev) (timed : Option Nat) : Nat × Bool :=
  let soon := d.instant 4 + 2048 * nsUnit
  match timed with
  | some t => if 0 ≤ instDiff (t * nsUnit) soon then (t * nsUnit, false) else (soon, true)
  | none => (soon, false)

/-- Commit k is given up: its versions, builds and instances are freed. -/
def Dev.giveUp (d : Dev) (k : Nat) : Dev :=
  let d1 := d.mapVers (Ver.giveUp k)
  ({ d1 with plc := { d1.plc with built := d1.plc.built.filter (fun b => b.1 ≠ k) } } : Dev).sweepRoom

/-- The commit fails with TAKE_BUSY (R133): a batch stays open, an intent leaves nothing behind (R248), a move is withdrawn
(R252). -/
def Dev.failCommit (d : Dev) (c : Commit) : Dev :=
  let sum := (List.range 4).foldl (fun a n => a + d.inflight n d.oldest) 0
  let d1 := (d.raise 6 0x0403 [(4, d.oldest), (32, sum), (1, if c.timed.isSome then 1 else 0)]).dropCommit c
  if c.batch then d1.endBatch 3 false false
  else
    let d2 := d1.giveUp c.owner
    match c.move with
    | some m =>
      let r := (match m with
        | .cam n _ _ h => (0, n, h) | .static n _ h => (4, n, h) | .plan n _ => (6, n, 0) : Nat × Nat × Nat)
      let d3 := d2.raise 6 0x0904 [(8, r.1), (4, r.2.1), (32, r.2.2)]
      { d3 with plc := { d3.plc with
          lost := d3.plc.lost || r.2.2 ≠ 0
          again := if r.2.2 = 0 then d3.plc.again ++ [m] else d3.plc.again } }
    | none => d2.endIntents c.owner 0x1C d.curTake

/-! ### Step 5 and step 6 -/

/-- The buckets of the meters whose record the new take changes keep their fill, cut to the new sizes (R231). -/
def Dev.cutBuckets (d d' : Dev) (n : Nat) : Dev :=
  d.plc.meters.foldl (fun x m =>
    if m.die = n ∧ d.meterRec n m.h ≠ d'.meterRec n m.h then
      let kc := BKey.meterC n m.h
      let kp := BKey.meterP n m.h
      (x.setBucket kc (min (d.bucket kc) (d'.bucketCap kc))).setBucket kp (min (d.bucket kp) (d'.bucketCap kp))
    else x) d'

/-- A take becomes current on one die. -/
def Dev.takeOn (d : Dev) (n t : Nat) : Dev :=
  d.cutBuckets { d with tak := { d.tak with current := d.tak.current.setIfInBounds n t } } n

/-- Once the take is current on every powered die, the take before it drains and the commits of the take have made their
step 5. -/
def Dev.takeSwitched (d : Dev) (t s : Nat) : Dev :=
  if d.dies.all (fun n => d.takeOf n = t) then
    let mine := d.tak.commits.filter (fun c => decide (c.step = .sealed) && c.n = t)
    let d1 := mine.foldl (fun d c =>
      let d2 := match c.entry with | some i => d.dropTimer i | none => d
      d2.setCommit { c with step := .switched, entry := none }) d
    let old := d.curTake
    let owners := mine.map (·.owner)
    let d1 := (d1.plc.built.filter (fun b => owners.contains b.1)).foldl (fun d b => d.setPd .clInspectUse_nodePct b.2.1 b.2.2) d1
    let d1 : Dev := { d1 with plc := { d1.plc with built := d1.plc.built.filter (fun b => !owners.contains b.1) } }
    { d1 with tak := { d1.tak with live := d1.tak.live ++ [t], since := aset d1.tak.since old (d1.ticks 4) } }.setWide
      .tkSwitchTime 0 0 0 (s / nsUnit)
  else d

/-- TAKE_SWITCH on a die: its time has reached S of a sealed commit. -/
def Dev.takeSwitch (d : Dev) (n : Nat) : Dev :=
  match d.tak.commits.find? (fun c => decide (c.step = .sealed)) with
  | some c =>
    if d.railOn n ∧ 0 ≤ instDiff (d.instant n) c.s ∧ d.takeOf n ≠ c.n then (d.takeOn n c.n).takeSwitched c.n c.s else d
  | none => d

/-- The lateness S − T of a commit in ns. -/
def lateness (c : Commit) : Nat := (instDiff c.s (c.timed.getD 0 * nsUnit)).toNat / nsUnit

/-- One commit of a confirmed take ends: a batch closes with OK, a move is reported, intents end OK. -/
def Dev.endCommit (d : Dev) (c : Commit) : Dev :=
  let d1 := d.dropCommit c
  if c.batch then
    let d2 := if c.late then d1.setWide .tkLateness 0 0 0 (lateness c) else d1
    d2.endBatch 1 true c.late
  else
    match c.move with
    | some m =>
      let r := (match m with
        | .cam n _ l _ => (0, n, l.length) | .static n l _ => (4, n, l.length) | .plan n _ => (6, n, 1) : Nat × Nat × Nat)
      (d1.bump .plMoveCount 0 0 0 1).raise 6 0x0903 [(8, r.1), (4, r.2.1), (16, r.2.2), (4, c.n)]
    | none => d1.endIntents c.owner 1 c.n

/-- COMMIT_CONFIRM: every die has confirmed (R132 step 6, R136). -/
def Dev.confirm (d : Dev) : Dev :=
  match d.tak.commits.find? (fun c => decide (c.step = .switched)) with
  | some c =>
    let mine := d.tak.commits.filter (fun x => decide (x.step = .switched) && x.n = c.n)
    let late := mine.find? (·.late)
    let us := match late with | some x => lateness x / 1000 | none => 0
    let d1 := (d.bump .tkCommitCount 0 0 0 1).raise 6 0x0401
      [(4, c.n), (48, c.s / nsUnit % 2 ^ 48), (1, if late.isSome then 1 else 0), (32, us)]
    ((mine.foldl (fun d x => d.endCommit x) d1).flushResults)
  | none => d

/-! ### The batch (R135) -/

/-- The fields that every write of TK_CTL carries. -/
def Dev.tkFields (d : Dev) (at_ : Bool) (timeout : Nat) : Dev :=
  (d.setCd .tkCtl_at (if at_ then 1 else 0)).setCd .tkCtl_timeout (Fld.store .tkCtl_timeout timeout)

/-- OPEN. -/
def Dev.tkOpen (d : Dev) : Dev :=
  if d.cd .tkStatus_batchOpen = 1 then d.tkCode 6 else d.setCd .tkStatus_batchOpen 1

/-- COMMIT of the open batch, at TK_AT_TIME when AT is 1. -/
def Dev.tkCommit (d : Dev) : Dev :=
  if d.cd .tkStatus_batchOpen = 0 then d.tkCode 5
  else if d.tak.committing then d.tkCode 8
  else
    let go := fun (d : Dev) (timed entry : Option Nat) =>
      let d1 := d.setCd .tkCtl_commit 1
      let c : Commit := { owner := 1, batch := true, timed := timed, entry := entry, ahead := d.queued }
      ({ d1 with tak := { d1.tak with committing := true, commits := d1.tak.commits ++ [c] } } : Dev).activate
    if d.cd .tkCtl_at = 1 then
      match d.freeTimer with
      | none => d.tkCode 7
      | some i =>
        let t := d.wide .tkAtTime 0
        go (d.bookTimer i { kind := 1, t := t }) (some t) (some i)
    else go d none none

/-- ABORT: every pending version of the batch is freed; ignored once the commit has reached step 3. -/
def Dev.tkAbort (d : Dev) : Dev :=
  if d.cd .tkStatus_batchOpen = 0 then d.tkCode 5
  else
    let c := d.tak.commits.find? (·.batch)
    if (match c with | some c => decide (c.step = .sealed) || decide (c.step = .switched) | none => false) = true then d
    else
      let d1 := match c with | some c => d.dropCommit c | none => d
      let mine := (d.plc.outq.filter (fun o => o.batch && o.owner ≠ 0)).map (·.owner)
      (((mine.foldl (fun (d : Dev) k => d.giveUp k) d1).giveUp 1).raise 6 0x0409 [(32, d.stagedOf 1)]).endBatch 4 true
        (d.cd .tkStatus_late = 1)

/-! ### The commands -/

/-- TK_OPEN: a write of TK_CTL with OPEN set. -/
def execTkOpen (at_ : Bool) (timeout : BitVec 16) (s : State) : Host.Outcome State Fault Refusal :=
  onWord 0 .tkCtl 0 0 (2 ^ 0 + 2 ^ 3 * b2n at_ + 2 ^ 16 * timeout.toNat)
    (fun d => (d.tkFields at_ timeout.toNat).tkOpen) s

/-- TK_COMMIT: a write of TK_CTL with COMMIT set. -/
def execTkCommit (at_ : Bool) (timeout : BitVec 16) (s : State) : Host.Outcome State Fault Refusal :=
  onWord 0 .tkCtl 0 0 (2 ^ 1 + 2 ^ 3 * b2n at_ + 2 ^ 16 * timeout.toNat)
    (fun d => (d.tkFields at_ timeout.toNat).tkCommit) s

/-- TK_ABORT: a write of TK_CTL with ABORT set. -/
def execTkAbort (at_ : Bool) (timeout : BitVec 16) (s : State) : Host.Outcome State Fault Refusal :=
  onWord 0 .tkCtl 0 0 (2 ^ 2 + 2 ^ 3 * b2n at_ + 2 ^ 16 * timeout.toNat)
    (fun d => (d.tkFields at_ timeout.toNat).tkAbort) s

/-- COMMIT_ACTIVATE. -/
def execCommitActivate (s : State) : Host.Outcome State Fault Refusal := onDev (fun d => d.activate) s

/-- COMMIT_SEAL: the wait of step 2 is over and sealing ends. -/
def execCommitSeal (s : State) : Host.Outcome State Fault Refusal :=
  onDev (fun d =>
    match d.commitNow with
    | some c =>
      if c.step = .active ∧ d.canSeal c = true then
        d.sealCommit c c.n (d.switchAt c.timed).1 (d.switchAt c.timed).2
      else d
    | none => d) s

/-- TAKE_SWITCH. -/
def execTakeSwitch (n : Die) (s : State) : Host.Outcome State Fault Refusal := onDev (fun d => d.takeSwitch n) s

end Sys2Proof.Machine
end

