-- ==== Sys2Proof/Machine/Boot.lean ====
section
/-! DEFINITION. Supplies, resets and the boot sequence (R317–R320, R324–R326, R330, R331), the load of a storyboard and its
overlay (R31–R37, R41, R42), temperature and rail faults (R332, R335). -/

namespace Sys2Proof.Machine

/-! ### Resets -/

/-- What a reset leaves: the flash, the OTP, the supplies and the reset-cause latch.  A reset that strikes an OTP write leaves
the record not begun, incomplete or complete (R396). -/
def State.toReset (s : State) (sup : Supply) : State :=
  let n := s.dev.net.draws
  let o := match s.dev.sec.run with
    | some r => Otp.written s.otp r.effect (Config.draw n % 3) (Config.draw (n + 1))
    | none => s.otp
  { s with otp := o,
           dev := { sup := { sup with cfgReady := false, d3hot := false, thermShut := false, railFault := false },
                    net := { draws := n + 2 } } }

/-- The OTP as the registers and wide values of the security engine show it (R406). -/
def Dev.showOtp (d : Dev) (o : Otp) : Dev :=
  let d1 := ((d.setCd .scOtpStatus_programmed (Otp.mask o (·.marker))).setCd .scOtpStatus_revoked (Otp.mask o (·.revoke ≠ 0))).setCd
    .scOtpStatus_broken (Otp.mask o (·.broken))
  let d2 := ((d1.setCd .scOtpStatus_advancesLeft (128 - o.advances.length)).setCd .scOtpStatus_patchesLeft
    (8 - o.patches.length)).setWide .scRollback 0 0 0 o.rollback
  [0, 1, 2, 3].foldl (fun d j => d.setWide .scKeyHash 0 j 0 (if (o.slot j).marker then (o.slot j).content else 0)) d2

/-- The records of the OTP that reset found incomplete: their item's row in Table 19-2, and their index. -/
def Otp.torn (o : Otp) : List (Nat × Nat) :=
  ((List.range 4).filter (fun j => (o.slot j).broken)).map (fun j => (0, j)) ++
  ((List.range o.advances.length).filter (fun j => !((o.advances[j]?).map (·.marker)).getD true)).map (fun j => (2, j)) ++
  ((List.range o.patches.length).filter (fun j => !((o.patches[j]?).map (·.marker)).getD true)).map (fun j => (5, j))

/-- The device runs from here: straps latched (R324), time at 0 (R259), the role of R296, the reset cause (R331) and the
incomplete records of the OTP reported. -/
def State.startBoot (s : State) (straps : BitVec 8) : State :=
  let b := fun i => if straps.getLsbD i then 1 else 0
  let d := s.dev
  let d0 : Dev := { d with sup := { d.sup with porstN := true, vinLow := false, cfgReady := d.sup.perstN },
                           boot := { d.boot with run := true } }
  let d1 := (((d0.setCd .btStraps_unit (b 0)).setCd .btStraps_duoEn (b 1)).setCd .btStraps_pcieRev (b 2)).setCd
    .btStraps_istoreSize (b 3)
  let d2 := (((d1.setCd .btStraps_spillEn (b 4)).setCd .btStraps_bootHold (b 5)).setCd .btStraps_spare (straps.toNat / 64)).setCd
    .btResetCause_cause d.sup.cause
  let d3 := ((d2.setCd .duStatus_duo (b 1)).setCd .duStatus_unit (b 0)).setCd .duStatus_role (b 1)
  let d4 := ((d3.setCd .imBootStatus_aResult 1).setCd .imBootStatus_bResult 1).setCd .scOtpStatus_patchLevel
    (lastValue s.otp.patches)
  let d5 := (d4.showOtp s.otp).raise 6 0x1004 [(4, d.sup.cause)]
  { s with dev := s.otp.torn.foldl (fun d x => d.raise 6 0x0F06 [(8, (Config.otpItem x.1).toNat), (8, x.2)]) d5 }

/-! ### Supplies and PORST_N -/

/-- The conversion of the PW runs while both supplies are there (R317, R318). -/
def Supply.converting (x : Supply) : Supply := { x with conv := x.conv || (x.vaux33 && x.vin12) }

/-- VAUX33_APPLY. -/
def execVaux33Apply (s : State) : Host.Outcome State Fault Refusal :=
  onDev (fun d => { d with sup := Supply.converting { d.sup with vaux33 := true } }) s

/-- VAUX33_LOSS: the whole device is reset and the reset-cause latch cleared. -/
def execVaux33Loss (s : State) : Host.Outcome State Fault Refusal :=
  .next (s.toReset { s.dev.sup with vaux33 := false, conv := false, pwrGood := false, vinLow := false, cause := 0 })

/-- VIN12_RISE. -/
def execVin12Rise (s : State) : Host.Outcome State Fault Refusal :=
  onDev (fun d => { d with sup := Supply.converting { d.sup with vin12 := true } }) s

/-- PWR_GOOD_RELEASE, with the straps latched should PORST_N already be high (R319). -/
def execPwrGoodRelease (straps : BitVec 8) (s : State) : Host.Outcome State Fault Refusal :=
  let s1 := { s with dev := s.dev.quiet }
  if s1.dev.sup.conv ∧ s1.dev.sup.pwrGood = false then
    let s2 : State := { s1 with dev := { s1.dev with sup := { s1.dev.sup with pwrGood := true } } }
    .next (if s2.dev.sup.porstN ∧ s2.dev.sup.vinLow = false then s2.startBoot straps else s2)
  else .next s1

/-- VIN12_LOW_RESET: the rails go, PWR_GOOD falls, and the device enters reset with cause VIN12_LOW. -/
def execVin12LowReset (s : State) : Host.Outcome State Fault Refusal :=
  .next (s.toReset { s.dev.sup with vin12 := false, conv := false, pwrGood := false, vinLow := true, cause := 2 })

/-- VIN12_RESTART: after VIN12_LOW, 10 ms at 11.4 V or more restart the device as a release of PORST_N would. -/
def execVin12Restart (straps : BitVec 8) (s : State) : Host.Outcome State Fault Refusal :=
  let s1 := { s with dev := s.dev.quiet }
  if s1.dev.sup.vaux33 ∧ s1.dev.sup.vinLow = true then
    let s2 : State := { s1 with dev := { s1.dev with sup := { s1.dev.sup with
      vin12 := true, conv := true, pwrGood := true, vinLow := false } } }
    .next (if s2.dev.sup.porstN then s2.startBoot straps else s2)
  else .next s1

/-- VIN12_SAG_ALARM, with VIN12 as measured in mV. -/
def execVin12SagAlarm (mv : BitVec 64) (s : State) : Host.Outcome State Fault Refusal :=
  onDev (fun d =>
    if d.boot.run ∧ mv.toNat < 11400 then
      (d.setFld .pwStatus_vin12LowSticky 7 0 0 1).raise 7 0x1003 [(64, mv.toNat)]
    else d) s

/-- PORST_N_LOW: low for 10 µs or more. -/
def execPorstNLow (s : State) : Host.Outcome State Fault Refusal :=
  .next (if s.dev.boot.run then
      s.toReset { s.dev.sup with porstN := false, cause := if s.dev.sup.thermShut then 3 else 1 }
    else { s with dev := { s.dev.quiet with sup := { s.dev.sup with porstN := false } } })

/-- PORST_N_GLITCH: a low pulse of a length in ns. -/
def execPorstNGlitch (ns : BitVec 32) (s : State) : Host.Outcome State Fault Refusal :=
  onDev (fun d => if d.boot.run ∧ 1000 ≤ ns.toNat ∧ ns.toNat < 10000 then d.raise 6 0x1007 [(32, ns.toNat)] else d) s

/-- PORST_N_RELEASE, with the straps as latched: the boot begins, or waits for PWR_GOOD (R319). -/
def execPorstNRelease (straps : BitVec 8) (s : State) : Host.Outcome State Fault Refusal :=
  let s1 := { s with dev := s.dev.quiet }
  if s1.dev.sup.porstN ∨ s1.dev.boot.run = true then .next s1
  else if s1.dev.sup.vaux33 ∧ s1.dev.sup.pwrGood = true ∧ s1.dev.sup.vinLow = false then .next (s1.startBoot straps)
  else .next { s1 with dev := { s1.dev with sup := { s1.dev.sup with porstN := true } } }

/-! ### ROM phase and boot hold (R325, R326) -/

/-- The boot goes on to the choice of a bank. -/
def State.readBanks (s : State) : State :=
  let x : Boot := { s.dev.boot with todo := bankOrder s.flash s.dev.boot.readOk }
  { s with dev := (s.dev.setBoot x).setCd .btSceneStatus_phase 2 }

/-- The straps as one byte. -/
def Dev.straps (d : Dev) : Nat := d.rawWord .btStraps 0 0 0 % 256

/-- ROM_PHASE_COMPLETE, with the size the flash's parameters report (whether it is larger than 64 MiB), or none where they
could not be read, and whether each bank's header could be read. -/
def execRomPhaseComplete (sfdp : Option Bool) (readA readB : Bool) (s : State) : Host.Outcome State Fault Refusal :=
  let d := s.dev.quiet
  if d.boot.run ∧ d.cd .btSceneStatus_phase = 0 ∧ d.boot.applied = false then
    let big : Bool := d.cd .btStraps_istoreSize = 1
    let ok : Bool := sfdp = some big
    let d1 := d.setBoot { d.boot with
      flashOk := ok
      readOk := if ok then (if readA then [Bank.a] else []) ++ (if readB then [Bank.b] else []) else [] }
    if d.cd .btStraps_bootHold = 1 then
      .next { s with dev := (d1.setCd .btSceneStatus_phase 1).raise 6 0x0C0B [(8, d.straps)] }
    else .next (State.readBanks { s with dev := d1 })
  else .next { s with dev := d }

/-- Whether memory BIST runs. -/
def Dev.bist (d : Dev) : Bool := d.cd .dvBistCtl_code = 1

/-- CONTINUE written: ignored outside boot hold; while BIST runs it waits. -/
def State.continue_ (s : State) : State :=
  let d := s.dev
  if d.cd .btSceneStatus_phase = 1 then
    (if d.bist then { s with dev := d.setCd .btBootCtl_continue 1 } else s.readBanks)
  else s

/-- CONTINUE: a write of BT_BOOT_CTL.CONTINUE. -/
def execContinue (s : State) : Host.Outcome State Fault Refusal :=
  let s1 := { s with dev := s.dev.quiet }
  .next (if s1.dev.hostUp then s1.continue_ else s1)

/-- The rails of PD0–PD3 switched together. -/
def Dev.pdRails (d : Dev) (on : Bool) : Dev := d.setFld .pwStatus_railOn 7 0 0 (if on then 15 else 0)

/-- DV_BIST_CTL.START written: BIST runs under boot hold only, and is refused with CODE LIVE at any other time. -/
def Dev.bistStart (d : Dev) : Dev :=
  if d.bist then d
  else if d.cd .btSceneStatus_phase = 1 then (d.setCd .dvBistCtl_code 1).pdRails true
  else d.setCd .dvBistCtl_code 4

/-- BIST_START: a write of DV_BIST_CTL.START. -/
def execBistStart (s : State) : Host.Outcome State Fault Refusal := onReg 0 .dvBistCtl 0 0 1 (fun d => d.bistStart) s

/-- BIST_END, with the pipeline dies that failed and whether the CD did. -/
def execBistEnd (failedPd : BitVec 4) (failedCd : Bool) (s : State) : Host.Outcome State Fault Refusal :=
  let d := s.dev.quiet
  if d.bist then
    let code := if failedPd = 0 ∧ failedCd = false then 2 else 3
    let d1 := (((d.setCd .dvBistCtl_code code).setCd .dvBistCtl_failedPd failedPd.toNat).setCd .dvBistCtl_failedCd
      (b2n failedCd)).pdRails false
    let d2 := d1.raise 6 0x010D [(4, code), (4, failedPd.toNat), (1, b2n failedCd)]
    if d.cd .btBootCtl_continue = 1 then .next (State.readBanks { s with dev := d2.setCd .btBootCtl_continue 0 })
    else .next { s with dev := d2 }
  else .next { s with dev := d }

/-! ### The choice of a bank (R41) -/

/-- The result of a bank in IM_BOOT_STATUS. -/
def Dev.setResult (d : Dev) (x : Bank) (code : Nat) : Dev :=
  match x with | .a => d.setCd .imBootStatus_aResult code | .b => d.setCd .imBootStatus_bResult code

/-- A storyboard is chosen: its dies will be powered in turn (R33). -/
def Dev.choose_ (d : Dev) (sb : Storyboard) (h : ImgHeader) (factory : Bool) : Dev :=
  (d.setBoot { d.boot with sb := sb, hdr := h, factory := factory, todo := [],
                           power := (List.range 6).filter (activeRail sb.active) }).setCd .btSceneStatus_phase 3

/-- No bank is both valid and applicable: the factory storyboard is chosen. -/
def Dev.chooseFactory (d : Dev) : Dev :=
  (((d.choose_ factoryBoard {} true).setCd .imBootStatus_bank 2).setCd .imBootSeq_seq 0).setCd .imWriteStatus_target 0

/-- SEQUENCE bytes of a bank as read: 0xFF bytes where it is erased; bytes of a read that did not complete are a free
value. -/
def State.seqRead (s : State) (x : Bank) (read : Bool) : Nat :=
  if read then ((Flash.bank s.flash x).hdr.map (·.sequence)).getD 0xFFFFFFFF else Config.draw s.dev.net.draws % 2 ^ 32

/-- A bank that is tried fails with a code, and the next one is tried, or the factory storyboard (R41). -/
def State.bankFails (s : State) (x : Bank) (read : Bool) (code : Nat) : State :=
  let d := s.dev
  let d1 := (d.setResult x code).raise 6 0x0C01 [(2, Bank.num x), (4, code), (32, s.seqRead x read)]
  let d2 := d1.setBoot { d1.boot with todo := d1.boot.todo.tail }
  let d3 : Dev := { d2 with net := { d2.net with draws := d2.net.draws + 1 } }
  { s with dev := if d3.boot.todo = [] then d3.chooseFactory else d3 }

/-- The verification of the bank in turn ends. -/
def State.bankDone (s : State) (read : Bool) : State :=
  let d := s.dev
  match d.boot.todo with
  | [] => s
  | x :: _ =>
    let rd := read && d.boot.flashOk
    let k := Flash.bank s.flash x
    match bankResult s.otp rd k, k.hdr, k.body with
    | 0, some h, some y =>
      match sbCheck (boardOf h y.1) with
      | 0 =>
        let d1 := ((d.setResult x 0).raise 6 0x0C02 [(2, Bank.num x), (32, h.sequence), (32, h.rollback % 2 ^ 32)]).choose_
          (boardOf h y.1) h false
        let d2 := ((d1.setCd .imBootStatus_bank (Bank.num x)).setCd .imBootSeq_seq h.sequence).setCd .imWriteStatus_target
          (Bank.num (Bank.other x))
        { s with dev := d2 }
      | c => State.bankFails { s with dev := d.raise 6 0x0C06 [(2, Bank.num x), (8, c)] } x rd 0xB
    | c, _, _ => s.bankFails x rd c

/-- BANK_VERIFY_DONE, with whether every read of the bank completed. -/
def execBankVerifyDone (read : Bool) (s : State) : Host.Outcome State Fault Refusal :=
  .next (State.bankDone { s with dev := s.dev.quiet } read)

/-! ### Power and load (R33, R36, R37) -/

/-- DIE_POWER_UP: the next active die or optical engine is powered; its time island starts. -/
def Dev.powerNext (d : Dev) : Dev :=
  match d.boot.power with
  | [] => d
  | b :: rest =>
    let d1 := (d.setBoot { d.boot with power := rest }).setBit .pwStatus_railOn 7 0 0 b
    if b < 4 then { d1 with tm := { d1.tm with isl := d1.tm.isl.set (islOf b) { inc := (d1.tm.isl.get 4).inc } } } else d1

/-- DIE_POWER_UP. -/
def execDiePowerUp (s : State) : Host.Outcome State Fault Refusal :=
  onDev (fun d => if d.cd .btSceneStatus_phase = 3 ∧ d.sup.thermShut = false then d.powerNext else d) s

/-- An overlay entry's fields at one register: each Image field it covers takes the merged value, stored by its rules (R36);
the bits of Factory fields and reserved bits are not applied (Table 2-6). -/
def Dev.ovlRegister (d : Dev) (e : OvlEntry) (r : Reg) (w i j : Nat) : Dev :=
  if d.ghost r w i then d
  else
    (r.flds.foldl (fun d f =>
      let m := bits e.mask f.info.hi f.info.lo
      if f.info.image ∧ m ≠ 0 then
        d.setFld f w i j (f.store (mergeBits (d.fld f w i j) m (bits e.value f.info.hi f.info.lo)))
      else d) d).storeTogether r w i j

/-- The reason an overlay entry is not applied as a whole, 0 when it is (Table 2-6). -/
def Dev.ovlReason (d : Dev) (e : OvlEntry) : Nat :=
  let w := bits e.addr 25 22
  if e.addr / 2 ^ 26 ≠ 0 ∨ 8 < w ∨ (regAt (if w = 8 then 1 else w) (bits e.addr 21 0)).isNone = true then 1
  else if w < 8 ∧ d.winPowered w = false then 2
  else if e.pad ≠ 0 then 3
  else 0

/-- Entry `idx` of the overlay: an entry for window 8 goes to each active pipeline die. -/
def Dev.ovlEntry (d : Dev) (idx : Nat) (e : OvlEntry) : Dev :=
  let w := bits e.addr 25 22
  let rejected := fun (d : Dev) => d.setCd .imOverlayStatus_rejected (min 0xFFFF (d.cd .imOverlayStatus_rejected + 1))
  match d.ovlReason e with
  | 0 =>
    match regAt (if w = 8 then 1 else w) (bits e.addr 21 0) with
    | none => d
    | some (r, i, j) =>
      let d1 := (if w = 8 then d.dies.map (· + 1) else [w]).foldl (fun d x => d.ovlRegister e r x i j) d
      let d2 := if e.mask &&& r.bitsOf (fun f => !f.info.image) ≠ 0 then
          d1.raise 6 0x0C04 [(16, idx), (32, e.addr), (32, e.mask)] else d1
      if e.mask % 2 ^ 32 - (e.mask &&& r.bitsOf (fun f => f.info.image)) ≠ 0 then rejected d2
      else d2.setCd .imOverlayStatus_applied (min 0xFFFF (d2.cd .imOverlayStatus_applied + 1))
  | c => rejected (d.raise 6 0x0C05 [(16, idx), (32, e.addr), (8, c)])

/-- The overlay in array order. -/
def Dev.applyOverlay (d : Dev) : Nat → List OvlEntry → Dev
  | _, [] => d
  | k, e :: t => (d.ovlEntry k e).applyOverlay (k + 1) t

/-- Every Image field at its Default again, whatever boot hold wrote to it: the overlay is applied over the defaults (R8,
R36). -/
def Dev.restoreDefaults (d : Dev) : Dev := { d with flds := d.flds.filter (fun e => !e.1.f.info.image) }

/-- The credits of a port's classes that the values loaded shape start at 0 (R224). -/
def Dev.startCredits (d : Dev) (p : Nat) : Dev :=
  (List.range 8).foldl (fun d c =>
    if bitAt (d.cfg .egSched_cbsEn (dieOf p + 1) (idxOf p)) c = 1 then d.setBucket (.cbs (dieOf p) (idxOf p) c) 0 else d) d

/-- What the values loaded set going: gates that open by ADMIN_GATES, credits, pairings, the PPS mode, the enabled ports'
bring-up and the training of the links of the active dies. -/
def Dev.startLoaded (d : Dev) : Dev :=
  let ports := (List.range 128).filter (fun p => d.portExists p)
  let d1 := ports.foldl (fun d p =>
    if d.cfg .egGateCtl_gateEn (p / 32 + 1) (p % 32) = 1 then
      d.setPd .egGateStatus_gates (p / 32) (d.cfg .egGateCtl_adminGates (p / 32 + 1) (p % 32)) (p % 32)
    else d) d
  let d1 := (ports ++ [128, 129, 130, 131, 132]).foldl (fun (d : Dev) p => d.startCredits p) d1
  let d2 := d.dies.foldl (fun d n => d.judgePairs n) d1
  let d3 : Dev := { d2 with tm := { d2.tm with ppsMode := d2.cfg .tmCtl_ppsOutMode 0 } }
  let d4 := if d.boot.factory then d3
    else ports.foldl (fun d p => if d.portEnabled p then d.bringUp p else d) d3
  d.dies.foldl (fun d a => d.dies.foldl (fun d b => if a ≠ b then
    (List.range 48).foldl (fun d k => d.setLane a b k 2) d else d) d) d4

/-- STORYBOARD_LOAD_COMPLETE: sections, factory defaults and overlay are in place, take 0 is current, FAULT_N is released
unless the factory storyboard runs, and the cut to the run scene begins (R36, R126, Table 15-8). -/
def Dev.loaded (d : Dev) : Dev :=
  let d1 := ((d.setBoot { d.boot with applied := true }).restoreDefaults).applyOverlay 0 d.boot.sb.overlay
  let d2 := d1.setWide .imRunningDigest 0 0 0 (if d.boot.factory then digestOf Config.romImage else d.boot.hdr.digest)
  let d3 := [0, 1].foldl (fun d k => d.setFld .opReach_lr (5 + k) 0 0 (fibreMask (fun f => d.groupLr (8 * k + f)))) d2
  let d4 := ({ d3 with tak := { d3.tak with live := [0] } }.setCd .btSceneStatus_phase 4).startLoaded
  let d5 := if d.boot.factory then
      d4.raise 6 0x0C03 [(4, d.cd .imBootStatus_aResult), (4, d.cd .imBootStatus_bResult)] else d4
  (d5.beginCut 2 2 0x34).lsEnUpdate

/-- STORYBOARD_LOAD_COMPLETE. -/
def execStoryboardLoadComplete (s : State) : Host.Outcome State Fault Refusal :=
  onDev (fun d =>
    if d.cd .btSceneStatus_phase = 3 ∧ d.boot.power = [] ∧ d.boot.applied = false ∧ d.sup.thermShut = false then d.loaded
    else d) s

/-! ### Rail faults and temperature (R332, R335) -/

/-- The frames, copies, engines, cells and tokens of a lost pipeline die go without a count (R19, R335). -/
def Dev.loseFrames (d : Dev) (n : Nat) : Dev :=
  let gone := (d.net.frames.filter (fun f => f.die = n)).map (·.id)
  let d1 : Dev := { d with net := { d.net with
    frames := d.net.frames.filter (fun f => f.die ≠ n)
    copies := d.net.copies.filter (fun c => !gone.contains c.frame)
    engines := d.net.engines.filter (fun e => e.die ≠ n)
    flights := d.net.flights.filter (fun x => x.src ≠ n && x.dst ≠ n)
    missing := d.net.missing.filter (fun x => x.src ≠ n && x.dst ≠ n)
    tokens := d.net.tokens.filter (fun t => t.holder ≠ n && dieOf t.slot ≠ n) } }
  (d1.net.copies.filter (fun c => dieOf c.port = n && (c.sent ≠ 0 || c.tx))).foldl (fun d c => d.takeOut c true) d1

/-- The lanes of the other dies toward a lost one lose block lock, and leave service suddenly (R280, R281). -/
def Dev.loseLinks (d : Dev) (n : Nat) : Dev :=
  d.dies.foldl (fun (d : Dev) m =>
    (List.range 48).foldl (fun (d : Dev) k => if d.laneState m n k ≤ 1 then d.dropLane m n k 3 else d) d) d

/-- The ports of a lost die are down ports (R211); PD0 owns the field ports too. -/
def Dev.losePorts (d : Dev) (n : Nat) : Dev :=
  let d1 := ((List.range 32).map (32 * n + ·)).foldl (fun d p =>
    if d.portExists p then (((d.setTx p {}).setPd .ptPortStatus_state n 0 (p % 32)).outputDown p) else d) d
  if n = 0 then [128, 129, 130, 131].foldl (fun d p => (d.setTx p {}).fieldDown p) d1 else d1

/-- A pipeline die without its rail: the take in progress no longer waits for it. -/
def Dev.loseDie (d : Dev) (n : Nat) : Dev :=
  let d1 := ((((d.clrBit .pwStatus_railOn 7 0 0 n).loseFrames n).setRing n {}).losePorts n).loseLinks n
  match d1.tak.commits.find? (fun c => decide (c.step = .sealed)) with
  | some c => d1.takeSwitched c.n c.s
  | none => d1

/-- An optical engine without its rail darkens its groups (R61). -/
def Dev.loseEngine (d : Dev) (k : Nat) : Dev :=
  (List.range 8).foldl (fun d f =>
    let g := 8 * k + f
    if d.light g ≠ 0 then (d.setLight g 3).groupDark g else d) (d.clrBit .pwStatus_railOn 7 0 0 (4 + k))

/-- A rail of the order PD0–PD3, OE0, OE1 is removed. -/
def Dev.loseRail (d : Dev) (b : Nat) : Dev :=
  if d.railOn b then (if b < 4 then d.loseDie b else d.loseEngine (b - 4)) else d

/-- RAIL_FAULT: the PW removes the rail, and the event is a fatal incident. -/
def Dev.railFault (d : Dev) (b : Nat) : Dev :=
  if d.railOn b then
    let d1 := (d.loseRail b).setBit .pwStatus_railFaultSticky 7 0 0 b
    { d1 with sup := { d1.sup with railFault := true } }.fatalEvent 7 0x1005 1 [(8, b)]
  else d

/-- RAIL_FAULT. -/
def execRailFault (b : Fin 6) (s : State) : Host.Outcome State Fault Refusal := onDev (fun d => d.railFault b) s

/-- The hottest junction as measured: its temperature, a signed byte, and its die. -/
def Dev.measure (d : Dev) (temp hottest : Nat) : Dev := (d.setCd .dvTherm_temp temp).setCd .dvTherm_hottest hottest

/-- THERM_ALERT_ASSERT, with the hottest junction. -/
def execThermAlertAssert (temp : BitVec 8) (hottest : Fin 8) (s : State) : Host.Outcome State Fault Refusal :=
  onDev (fun d =>
    if d.boot.run then
      let d1 := d.measure temp.toNat hottest
      if (d.cfg .dvTherm_alert 0 : Int) ≤ temp.toInt ∧ d.cd .dvTherm_alertActive = 0 then
        (((d1.setCd .dvTherm_alertActive 1).setCd .dvTherm_alertSticky 1).raise 6 0x1001
          [(8, temp.toNat), (3, hottest)]).irq 9
      else d1
    else d) s

/-- THERM_ALERT_RELEASE, with the hottest junction. -/
def execThermAlertRelease (temp : BitVec 8) (hottest : Fin 8) (s : State) : Host.Outcome State Fault Refusal :=
  onDev (fun d =>
    if d.boot.run then
      let d1 := d.measure temp.toNat hottest
      if temp.toInt ≤ (d.cfg .dvTherm_alert 0 : Int) - 5 ∧ d.cd .dvTherm_alertActive = 1 then
        (d1.setCd .dvTherm_alertActive 0).raise 6 0x1002 [(8, temp.toNat)]
      else d1
    else d) s

/-- THERMAL_SHUTDOWN of a die at a temperature: every rail of a pipeline die and optical engine goes, LS_EN and FAULT_N go
low, and the event is a fatal incident. -/
def execThermalShutdown (die : Fin 8) (temp : BitVec 8) (s : State) : Host.Outcome State Fault Refusal :=
  onDev (fun d =>
    if d.boot.run ∧ d.sup.thermShut = false ∧ 125 ≤ temp.toInt then
      let d1 : Dev := { d with sup := { d.sup with thermShut := true } }
      let d2 := ((List.range 6).foldl (fun d b => d.loseRail b) d1).lsEnUpdate
      (d2.fatalEvent 6 0x1006 2 [(8, die), (8, temp.toNat)]).irq 9
    else d) s

/-- PERST_N_DEASSERT: PERST_N has risen, and the configuration space is ready (R320). -/
def execPerstNDeassert (s : State) : Host.Outcome State Fault Refusal :=
  onDev (fun d =>
    if d.sup.perstN then d
    else { d with sup := { d.sup with perstN := true, cfgReady := d.sup.pwrGood && d.boot.run } }) s

end Sys2Proof.Machine
end

