-- ==== Sys2Proof/Machine/Records.lean ====
section
/-! DEFINITION. The records that software leaves in host memory, byte by byte: intents and their payloads (Tables 11-2 to 11-4,
6-3, 6-7, 8-1, 8-5, 10-4, 10-5; R244, R246), channel and transmit descriptors (Tables 17-1, 17-5) and key commands (Table
19-7).  Every number is little-endian. -/

namespace Sys2Proof.Machine

/-- The number in so many bytes from a place on; bytes past the end read 0. -/
def numAt (b : List Byte) (at_ n : Nat) : Nat := leNat ((b.drop at_).take n)

/-- A size padded to a multiple of 16 bytes (R244). -/
def padTo16 (n : Nat) : Nat := (n + 15) / 16 * 16

/-- The fields of the given widths packed in a number from bit 0 upward, and what lies above them. -/
def unpack : List Nat → Nat → List Nat
  | [], v => [v]
  | w :: ws, v => v % 2 ^ w :: unpack ws (v / 2 ^ w)

/-- The records of a size that follow one another from a place on. -/
def recordsAt (b : List Byte) (at_ size count : Nat) : List (List Byte) :=
  (List.range count).map (fun i => (b.drop (at_ + size * i)).take size)

/-! ### Records of groups -/

/-- The width of a group's keys by WIDTH; none for a value that is none of the three. -/
def groupWidth (v : Nat) : Option Nat := if v = 0 then some 160 else if v = 1 then some 320 else if v = 2 then some 640 else none

/-- The bytes of a rule record in a group of a width in bits (Table 6-3, R244). -/
def ruleSize (w : Nat) : Nat := padTo16 (16 + w / 4)

/-- A rule record. -/
def readRule (w : Nat) (b : List Byte) : RuleRec :=
  { id := numAt b 0 4, priority := numAt b 4 4, result := numAt b 8 8, value := numAt b 16 (w / 8),
    mask := numAt b (16 + w / 8) (w / 8) }

/-- Whether the bytes of a rule record past its fields are 0. -/
def ruleClean (w : Nat) (b : List Byte) : Bool := numAt b (16 + w / 4) (ruleSize w - 16 - w / 4) = 0

/-- A pattern record of 144 bytes (R244). -/
def readPat (b : List Byte) : PatRec :=
  let n := numAt b 2 1
  { id := numAt b 0 2, anchor := numAt b 3 1, lo := numAt b 4 1, hi := numAt b 5 1,
    value := ((b.drop 8).take (min n 64)).map (·.toNat), mask := ((b.drop 72).take (min n 64)).map (·.toNat) }

/-- Whether a pattern record's LENGTH is one that VALUE and MASK hold and its reserved bytes are 0. -/
def patClean (b : List Byte) : Bool := numAt b 2 1 ≤ 64 && numAt b 6 2 = 0 && numAt b 136 8 = 0

/-- A layout field (Table 11-4). -/
def readField (v : Nat) : KeyField :=
  { source := bits v 1 0, type := bits v 7 2, occur := bits v 11 8, extract := bits v 15 12, hi := bits v 22 16, lo := bits v 29 23,
    range := bitAt v 30 = 1 }

/-- A group header of 96 bytes (Table 11-3): its layout fields and its ports. -/
def readHeader (b : List Byte) : List KeyField × List Nat :=
  ((List.range (min 16 (numAt b 1 1))).map (fun i => readField (numAt b (24 + 4 * i) 4)), portSet (numAt b 4 20) 133)

/-- Whether a group header's WIDTH and NFIELDS are in their ranges and all it reserves is 0; a pattern group has neither. -/
def headerClean (pattern : Bool) (b : List Byte) : Bool :=
  let n := numAt b 1 1
  (if pattern then numAt b 0 1 = 0 && n = 0 else (groupWidth (numAt b 0 1)).isSome && n ≤ 16) && numAt b 2 2 = 0 &&
    numAt b 4 20 / 2 ^ 133 = 0 && numAt b 88 8 = 0 && numAt b (24 + 4 * n) (64 - 4 * n) = 0 &&
    (List.range n).all (fun i => bitAt (numAt b (24 + 4 * i) 4) 31 = 0)

/-! ### Records of the other kinds -/

/-- A static address entry (Table 8-1). -/
def readStatic (v : Nat) : StaticRec :=
  { mac := bits v 47 0, fid := bits v 61 48,
    dest := (match bits v 63 62 with
      | 0 => .port (bits v 71 64)
      | 1 => .group (bits v 79 64)
      | 2 => .drop
      | _ => .host (bits v 71 64)),
    cls := if bitAt v 86 = 1 then some (bits v 89 87) else none,
    stream := if bitAt v 101 = 1 then some (bits v 115 102) else none }

/-- Whether the fields of a static entry that only hardware sets, and those it reserves, are 0: HIT, STRIKE, STICKY,
EGRESS_LEARNED, PARITY, and the bytes of DEST that its type does not use.  VALID, STATIC and the take fields are the
device's to set (R244). -/
def staticClean (v : Nat) : Bool :=
  bitAt v 81 = 0 && bitAt v 82 = 0 && bitAt v 84 = 0 && bitAt v 85 = 0 && bits v 127 116 = 0 &&
    (match bits v 63 62 with | 1 => true | 2 => bits v 79 64 = 0 | _ => bits v 79 72 = 0)

/-- A meter or policer record (Table 10-4), with what lies above its fields. -/
def readMeter (v : Nat) : MeterRec × Nat :=
  match unpack [1, 32, 32, 24, 24, 1, 8, 2, 3, 3, 2] v with
  | [kind, cir, pir, cbs, pbs, aware, adj, ya, yt, rt, ra, rest] =>
    ({ policer := kind = 1, cir := cir, pir := pir, cbs := cbs, pbs := pbs, aware := aware = 1, lenAdj := toSigned 8 adj,
       yellowAction := ya, yellowTc := yt, redTc := rt, redAction := ra }, rest)
  | _ => ({ policer := false, cir := 0, pir := 0, cbs := 0, pbs := 0 }, 0)

/-- A mirror session record (Table 10-5), with what lies above its fields. -/
def readMirror (v : Nat) : MirrorRec × Nat :=
  match unpack [8, 1, 12, 3, 14, 21, 133, 133] v with
  | [dest, encap, vid, tc, trunc, age, ins, outs, rest] =>
    ({ dest := dest, encap := encap = 1, vid := vid, tc := tc, trunc := trunc, age := age, inPorts := portSet ins 133,
       outPorts := portSet outs 133 }, rest)
  | _ => ({ dest := 0 }, 0)

/-- A stream (Table 11-1), with what lies above its fields.  DEDUCED (log 97): the options of Table 8-5 are packed from byte 3 on
in the fewest bits that hold their values. -/
def readStream (v : Nat) : StreamRec × Nat :=
  match unpack [16, 8, 1, 1, 6, 16, 1, 1] v with
  | [id, port, encode, recover, history, reset, noSeq, pop, rest] =>
    ({ id := id, port := port, encode := encode = 1, recover := recover = 1, history := history, resetMs := reset,
       takeNoSeq := noSeq = 1, pop := pop = 1 }, rest)
  | _ => ({ id := 0, port := 0 }, 0)

/-! ### Intents (Table 11-2) -/

/-- The bytes that the payload of an intent needs by its OP and KIND; `w` is the width of a group's rules. -/
def payloadNeed (op kind count w : Nat) : Nat :=
  let recs := count * (if kind = 3 then 144 else ruleSize w)
  if op = 1 ∨ op = 2 then
    (match kind with
     | 1 | 2 | 3 => 96 + recs
     | 4 | 7 | 9 => 16
     | 5 | 6 => 32
     | 8 => 48
     | _ => 0)
  else if op = 4 ∨ op = 5 then recs
  else if op = 6 then 4 * count
  else 0

/-- The payload of a CREATE or MODIFY: the object, the rule and pattern records, and whether all that it reserves is 0. -/
def readObject (kind count : Nat) (p : List Byte) : ObjData × List RuleRec × List PatRec × Bool :=
  let w := (groupWidth (numAt p 0 1)).getD 160
  let hdr := readHeader p
  let rules := recordsAt p 96 (ruleSize w) count
  let pats := recordsAt p 96 144 count
  match kind with
  | 1 | 2 => (.rules (kind = 2) w hdr.1 hdr.2, rules.map (readRule w), [], headerClean false p && rules.all (ruleClean w))
  | 3 => (.patterns hdr.2, [], pats.map readPat, headerClean true p && pats.all patClean)
  | 4 => (.static (readStatic (numAt p 0 16)), [], [], staticClean (numAt p 0 16))
  | 5 => (.mcast (numAt p 0 4) (portSet (numAt p 4 20) 133), [], [], numAt p 4 28 / 2 ^ 133 = 0)
  | 6 => let r := readMeter (numAt p 0 32); (.meter r.1, [], [], r.2 = 0)
  | 7 => (.cblock (numAt p 0 4), [], [], numAt p 4 12 = 0)
  | 8 => let r := readMirror (numAt p 0 48); (.mirror r.1, [], [], r.2 = 0)
  | 9 => let r := readStream (numAt p 0 16); (.stream r.1, [], [], r.2 = 0)
  | _ => (.patterns [], [], [], false)

/-- The body of an intent, with whether its OP and KIND are known and what its payload reserves is 0. -/
def readBody (w : Nat) (b p : List Byte) : IntentBody × Bool :=
  let op := numAt b 4 1
  let kind := numAt b 5 1
  let count := numAt b 8 4
  let obj := readObject kind count p
  let rules := recordsAt p 0 (ruleSize w) count
  let pats := recordsAt p 0 144 count
  let recs := if kind = 3 then ([], pats.map readPat, pats.all patClean) else (rules.map (readRule w), [], rules.all (ruleClean w))
  let group : Bool := 1 ≤ kind ∧ kind ≤ 3
  let known : Bool := 1 ≤ kind ∧ kind ≤ 9
  match op with
  | 1 => (.create obj.1 obj.2.1 obj.2.2.1, known && obj.2.2.2)
  | 2 => (.modify obj.1, known && obj.2.2.2)
  | 3 => (.delete kind, known)
  | 4 => (.add kind recs.1 recs.2.1, group && recs.2.2)
  | 5 => (.change kind recs.1 recs.2.1, group && recs.2.2)
  | 6 => (.remove kind ((List.range count).map (fun i => numAt p (4 * i) 4)), group)
  | 7 => (.bind (numAt b 12 4), kind = 0)
  | 8 => (.ask (numAt b 24 4 / 16) (numAt b 16 8), kind = 0)
  | _ => (.delete 0, false)

/-- An intent as its descriptor of 64 bytes and its payload spell it; `payload` is none when it cannot be read, and `w` the width
of the rules of the group that HANDLE names. -/
def readIntent (w : Nat) (b : List Byte) (payload : Option (List Byte)) : Intent :=
  let op := numAt b 4 1
  let kind := numAt b 5 1
  let p := payload.getD []
  let wide := if op = 1 ∨ op = 2 then (groupWidth (numAt p 0 1)).getD 160 else w
  let need := payloadNeed op kind (numAt b 8 4) wide
  let fits : Bool := need = 0 || (payload.isSome && need ≤ numAt b 24 4 && need ≤ p.length)
  let body := if fits then readBody w b p else (.delete 0, true)
  let reserved : Bool := bits (numAt b 6 1) 7 2 = 0 && numAt b 7 1 = 0 && (op = 7 || numAt b 12 4 = 0) && numAt b 28 4 = 0 &&
    numAt b 48 16 = 0
  { head := { handle := numAt b 0 4, op := op, batch := bitAt (numAt b 6 1) 0 = 1, irq := bitAt (numAt b 6 1) 1 = 1,
              readable := fits, clean := reserved && body.2 },
    body := body.1 }

/-! ### Descriptors of the DMA engine and key commands -/

/-- A channel descriptor of 64 bytes (Table 17-1). -/
def readChan (b : List Byte) : DmDesc :=
  let step := fun (at_ : Nat) => toSigned 32 (numAt b at_ 4)
  { src := numAt b 0 8, dst := numAt b 8 8, srcStep0 := step 16, srcStep1 := step 20, srcStep2 := step 24, dstStep0 := step 28,
    dstStep1 := step 32, dstStep2 := step 36, count0 := numAt b 40 2, count1 := numAt b 42 2, count2 := numAt b 44 2,
    elem := numAt b 46 1, space := numAt b 47 1, tail := numAt b 48 16 }

/-- A transmit descriptor of 32 bytes (Table 17-5). -/
def readTx (b : List Byte) : TxDesc :=
  { buf := numAt b 0 8, len := numAt b 8 2, mode := numAt b 10 1 % 4, tag := numAt b 12 2, ref := numAt b 16 8,
    clean := numAt b 10 1 < 4 && numAt b 11 1 = 0 && numAt b 14 2 = 0 && numAt b 25 7 = 0 }

/-- A key command of 29,984 bytes (Table 19-7). -/
def readKey (b : List Byte) : KeyCmd :=
  { magic := numAt b 0 4, op := numAt b 4 1, slot := numAt b 5 1, authSlot := numAt b 6 1, serial := numAt b 8 16,
    challenge := numAt b 24 32, newHash := numAt b 56 64, authPubkey := numAt b 120 64, signature := numAt b 192 29792,
    clean := numAt b 7 1 = 0 && numAt b 184 8 = 0 }

end Sys2Proof.Machine
end

