-- ==== Sys2Proof/Machine/Stage.lean ====
section
/-! DEFINITION. The staging of intents: the checks of Table 11-5 (R247), the versions an intent stages (R127, R243–R245),
associative-memory order, cuckoo places and instances (R251), room and reclaim (R249), and the staging of the sequencer's
own moves (R252). -/

namespace Sys2Proof.Machine

/-! ### Ranges of records (BAD_INTENT) -/

/-- Whether a layout field lies in its ranges (Table 11-4, R115). -/
def keyFieldOk (f : KeyField) : Bool :=
  f.source ≤ 3 && f.type < 64 && f.occur ≤ 13 && f.extract < 16 && f.lo ≤ f.hi && f.hi ≤ 127 && (!f.range || f.hi - f.lo < 32)

/-- Whether a rule record lies in its ranges: HIT and ERR of RESULT are ignored, its reserved bits are 0 (Tables 6-3,
6-4). -/
def ruleRecOk (w : Nat) (r : RuleRec) : Bool :=
  r.id < 2 ^ 32 && r.priority < 2 ^ 32 && r.result < 2 ^ 64 && bitAt r.result 3 = 0 && bits r.result 31 18 = 0 &&
    r.value < 2 ^ w && r.mask < 2 ^ w

/-- Whether a pattern record lies in its ranges (Table 6-7). -/
def patRecOk (r : PatRec) : Bool :=
  r.id < 4096 && 1 ≤ r.value.length && r.value.length ≤ 64 && r.mask.length = r.value.length && r.anchor ≤ 2 && r.lo < 256 &&
    r.hi < 256 && r.lo ≤ r.hi && r.value.all (· < 256) && r.mask.all (· < 256)

/-- Whether the payload of an object lies in its ranges (Tables 11-1, 11-3, 8-1, 8-5, 10-4, 10-5). -/
def dataOk : ObjData → Bool
  | .rules _ w fs ps =>
    (w = 160 || w = 320 || w = 640) && fs.length ≤ 16 && fs.all keyFieldOk && (fs.filter (·.range)).length ≤ 4 &&
      ps.all (· ≤ 132)
  | .patterns ps => ps.all (· ≤ 132)
  | .static r =>
    r.mac < 2 ^ 48 && r.fid < 16384 &&
      (match r.dest with | .port p => p ≤ 132 | .group g => g < 65536 | .drop => true | .host c => c < 256) &&
      (match r.cls with | some c => c < 8 | none => true) && (match r.stream with | some x => x < 16384 | none => true)
  | .mcast g ms => g < 65536 && ms.all (· ≤ 132)
  | .meter r =>
    r.cir ≤ 400000000 && r.pir ≤ 400000000 && r.cbs < 2 ^ 24 && r.pbs < 2 ^ 24 && -128 ≤ r.lenAdj && r.lenAdj ≤ 127 &&
      r.yellowAction < 4 && r.yellowTc < 8 && r.redTc < 8 && r.redAction < 4
  | .cblock k => 1 ≤ k && k ≤ 65536
  | .mirror r =>
    r.dest ≤ 132 && (!r.encap || (1 ≤ r.vid && r.vid ≤ 4094)) && r.vid < 4096 && r.tc < 8 && r.trunc < 2 ^ 14 &&
      r.age < 2 ^ 21 && r.inPorts.all (· ≤ 132) && r.outPorts.all (· ≤ 132)
  | .stream r => r.id < 16384 && r.port < 256 && 1 ≤ r.history && r.history ≤ 32 && 1 ≤ r.resetMs && r.resetMs < 65536

/-- An object as it is stored: TRUNC 1–63 is stored as 64 and AGE_LIMIT at the nearer bound (Table 10-5). -/
def dataStore : ObjData → ObjData
  | .mirror r => .mirror { r with trunc := if 1 ≤ r.trunc ∧ r.trunc < 64 then 64 else r.trunc, age := clamp 1 2000000 r.age }
  | x => x

/-- The KIND of an intent. -/
def kindNum : IntentBody → Nat
  | .create x _ _ => x.kind | .modify x => x.kind | .delete k => k | .add k _ _ => k | .change k _ _ => k | .remove k _ => k
  | .bind _ => 0 | .ask _ _ => 0

/-- The memory code under which failures of a kind are reported (Table 11-7). -/
def memOf (kind : Nat) : Nat :=
  match kind with | 2 => 1 | 3 => 3 | 4 => 4 | 5 => 6 | 6 => 5 | 7 => 5 | 8 => 7 | 9 => 8 | _ => 0

/-- WHERE_AT of a die, memory and pipe (Table 11-2). -/
def whereAt (n mem pipe : Nat) : Nat := n % 16 + 16 * (pipe % 4) + 256 * mem

/-- A failing intent: CODE, WHERE_AT, AT_INDEX. -/
abbrev Bad := Nat × Nat × Nat

/-- A failure that names no record. -/
def noRec : Nat := 0xFFFFFFFF

/-! ### Versions in view

An intent without BATCH is staged on what every earlier intent without BATCH leaves, for its take may come before that of
the open batch; an intent with BATCH is staged on what all earlier intents leave (R250). -/

/-- Whether a version stands in the view of intents with BATCH (`b`) or without. -/
def Dev.seen (d : Dev) (b : Bool) (v : Ver) : Bool :=
  if b then v.latest else v.until_.isNone && v.enders.all d.ofBatch && !(v.pending && d.ofBatch v.owner)

/-- Whether a version stands in either view. -/
def Dev.stands (d : Dev) (v : Ver) : Bool := d.seen true v || d.seen false v

/-- The object with a handle as intents with BATCH (`b`) or without see it. -/
def Dev.latestObj (d : Dev) (b : Bool) (h : Nat) : Option ObjVer := d.plc.objs.reverse.find? (fun o => o.h = h && d.seen b o.v)

/-- The objects in view. -/
def Dev.objects (d : Dev) (b : Bool) : List ObjVer := d.plc.objs.filter (fun o => d.seen b o.v)

/-- Whether a DELETE of a handle is not done yet (R243). -/
def Dev.deleting (d : Dev) (h : Nat) : Bool := d.plc.outq.any (fun o => o.handle = h && o.op = 3)

/-- Whether a handle is in use for a CREATE: its object stands, or the DELETE that ended it is not done (R243).  A batch that
deletes an object may create another with its handle. -/
def Dev.handleUsed (d : Dev) (b : Bool) (h : Nat) : Bool :=
  (d.latestObj true h).isSome || (!b && (d.latestObj false h).isSome) || d.deleting h

/-- PL_OBJECTS: the handles in use, those whose DELETE is staged and not in force among them (R254). -/
def Dev.handleCount (d : Dev) : Nat :=
  ((d.plc.objs.filter (fun o => d.stands o.v || d.deleting o.h)).map (·.h)).eraseDups.length

/-- The rules of a group in view. -/
def Dev.groupRules (d : Dev) (b : Bool) (h : Nat) : List RuleRec :=
  (d.plc.rules.filter (fun r => r.g = h && d.seen b r.v)).map (·.r)

/-- The patterns of a group in view. -/
def Dev.groupPats (d : Dev) (b : Bool) (h : Nat) : List PatRec :=
  (d.plc.pats.filter (fun r => r.g = h && d.seen b r.v)).map (·.r)

/-- The IDs of a group's rules or patterns that stand in either view. -/
def Dev.groupIds (d : Dev) (kind h : Nat) : List Nat :=
  if kind = 3 then (d.plc.pats.filter (fun r => r.g = h && d.stands r.v)).map (·.r.id)
  else (d.plc.rules.filter (fun r => r.g = h && d.stands r.v)).map (·.r.id)

/-- Whether an object is bound to a slot. -/
def Dev.slotBound (d : Dev) (h : Nat) : Bool := d.plc.binds.any (fun b => b.h = h && d.stands b.v)

/-- The batch owners among the enders of versions, and the owners of the batch's pending ones: what ends, at the batch's
take, a version that an intent without BATCH stages in their place. -/
def Dev.batchEnds (d : Dev) (l : List Ver) : List Nat :=
  ((l.filter (fun v => v.until_.isNone)).flatMap (fun v =>
    (if v.pending && d.ofBatch v.owner then [v.owner] else []) ++ v.enders.filter d.ofBatch)).eraseDups

/-- A version that commit k begins in place of others, of a batch (`b`) or not. -/
def Dev.beginIn (d : Dev) (k : Nat) (b : Bool) (old : List Ver) : Ver :=
  { Ver.begin_ k with enders := if b then [] else d.batchEnds old }

/-- What commit k, of a batch (`b`) or not, does to a version that it ends. -/
def Dev.endIn (d : Dev) (k : Nat) (b : Bool) (v : Ver) : Ver := if d.seen b v then v.endBy k else v

/-- The versions of the object with a handle. -/
def Dev.objVers (d : Dev) (h : Nat) : List Ver := (d.plc.objs.filter (fun o => o.h = h)).map (·.v)

/-- Whether a port may not be named: it does not exist or its die is unpowered (R50). -/
def Dev.badPort (d : Dev) (p : Nat) : Bool := !d.portExists p || !d.railOn (dieOf p)

/-- WHERE_AT of a port. -/
def portAt (p mem : Nat) : Nat := whereAt (dieOf p) mem (if mem = 0 then pipeOf p else 0)

/-! ### The checks that need no room, in the order of Table 11-5 -/

/-- BAD_INTENT: a reserved field that is not 0, an unknown OP or KIND, a field out of its range, and a MODIFY that R245
forbids. -/
def Dev.badIntent (d : Dev) (i : Intent) : Bool :=
  let h := i.head.handle
  let w := match d.latestObj i.head.batch h with | some o => (match o.data with | .rules _ w _ _ => w | _ => 160) | none => 160
  !i.head.clean ||
  (match i.body with
   | .create x rs ps =>
     !dataOk x || !(match x with | .rules _ v _ _ => rs.all (ruleRecOk v) && ps.isEmpty
                                 | .patterns _ => ps.all patRecOk && rs.isEmpty | _ => rs.isEmpty && ps.isEmpty)
   | .modify x =>
     !dataOk x ||
     (match d.latestObj i.head.batch h, x with
      | some o, .rules t v fs _ => (match o.data with | .rules t' v' fs' _ => t = t' && !(v = v' && fs = fs') | _ => false)
      | _, _ => false)
   | .delete k => !(1 ≤ k && k ≤ 9)
   | .add k rs ps | .change k rs ps =>
     !(1 ≤ k && k ≤ 3) || !(if k = 3 then ps.all patRecOk && rs.isEmpty else rs.all (ruleRecOk w) && ps.isEmpty)
   | .remove k ids => !(1 ≤ k && k ≤ 3) || !ids.all (· < 2 ^ 32)
   | .bind slot => !(slot < 4096)
   | .ask _ _ => false)

/-- NO_HANDLE: the handle is not in use, or its object is of another kind. -/
def Dev.noHandle (d : Dev) (i : Intent) : Bool :=
  let o := d.latestObj i.head.batch i.head.handle
  match i.body with
  | .create _ _ _ => false
  | .bind _ => i.head.handle ≠ 0 && !(match o with | some x => 5 ≤ x.data.kind && x.data.kind ≤ 8 | none => false)
  | .ask _ _ => o.isNone && (d.latestObj (!i.head.batch) i.head.handle).isNone
  | b => !(match o with | some x => x.data.kind = kindNum b | none => false)

/-- Whether a CHANGE or REMOVE of a group that is there names an ID that is not: a value out of its range (DESIGN CHOICE, log
56). -/
def Dev.absentId (d : Dev) (i : Intent) : Bool :=
  let b := i.head.batch
  let h := i.head.handle
  let ids := if kindNum i.body = 3 then (d.groupPats b h).map (·.id) else (d.groupRules b h).map (·.id)
  !d.noHandle i &&
  (match i.body with
   | .change k rs ps => !(if k = 3 then ps.all (fun p => ids.contains p.id) else rs.all (fun r => ids.contains r.id))
   | .remove _ l => !l.all (fun x => ids.contains x)
   | _ => false)

/-- The ports that an intent's payload names, each with its record: a group header is none. -/
def namedPorts (x : ObjData) : List (Nat × Nat) :=
  match x with
  | .rules _ _ _ ps | .patterns ps => ps.map (fun p => (p, noRec))
  | .static r => (match r.dest with | .port p => [(p, 0)] | _ => [])
  | .mcast _ ms => ms.map (fun p => (p, 0))
  | .mirror r => (r.dest :: r.inPorts ++ r.outPorts).map (fun p => (p, 0))
  | .stream r => [(r.port, 0)]
  | _ => []

/-- Whether a port is of the wrong type for an object. -/
def Dev.wrongType (d : Dev) (x : ObjData) (p : Nat) : Bool :=
  match x with
  | .rules false _ _ _ => p < 128 && d.inspection p
  | .rules true _ _ _ | .patterns _ | .stream _ => 128 ≤ p
  | _ => false

/-- BAD_PORT, NOT_INSPECTION_PORT and KEY_TOO_WIDE of a payload. -/
def Dev.portFault (d : Dev) (x : ObjData) : Option Bad :=
  let mem := memOf x.kind
  match (namedPorts x).find? (fun p => d.badPort p.1 || d.wrongType x p.1) with
  | some p => some (0x15, portAt p.1 mem, p.2)
  | none =>
    match x with
    | .rules tree w fs ps =>
      match (if tree then ps.find? (fun p => !d.inspection p) else none) with
      | some p => some (0x16, portAt p mem, noRec)
      | none => if w < fs.foldl (fun a f => a + keyWidth f) 0 then some (0x17, whereAt 0xF mem 0, noRec) else none
    | _ => none

/-- The first position of a list whose element stands in an earlier position or in another list. -/
def firstRepeat (old : List Nat) : List Nat → Nat → Option Nat
  | [], _ => none
  | x :: t, k => if old.contains x then some k else firstRepeat (x :: old) t (k + 1)

/-- The pattern IDs held on the dies of a group by other groups: an ID is unique per die (Table 6-7). -/
def Dev.otherPats (d : Dev) (h : Nat) (ps : List Nat) : List Nat :=
  (d.plc.objs.filter (fun o => d.stands o.v && o.data.kind = 3 && o.h ≠ h &&
    (portsOf o.data).any (fun p => ps.any (fun q => dieOf q = dieOf p)))).flatMap (fun o => d.groupIds 3 o.h)

/-- DUPLICATE_ID: a record's ID already in the group or repeated, a group number or stream ID of another object. -/
def Dev.duplicate (d : Dev) (i : Intent) : Option Bad :=
  let h := i.head.handle
  let ports := match d.latestObj i.head.batch h with | some o => portsOf o.data | none => []
  let mem := memOf (kindNum i.body)
  let say := fun (o : Option Nat) => o.map (fun k => ((0x18, whereAt 0xF mem 0, k) : Bad))
  let number := fun (x : ObjData) =>
    if d.plc.objs.any (fun o => d.stands o.v && o.h ≠ h &&
        (match o.data, x with
         | .mcast a _, .mcast b _ => a = b
         | .stream a, .stream b => a.id = b.id
         | _, _ => false)) then say (some 0) else none
  match i.body with
  | .create x rs ps =>
    match x with
    | .rules _ _ _ _ => say (firstRepeat [] (rs.map (·.id)) 0)
    | .patterns qs => say (firstRepeat (d.otherPats h qs) (ps.map (·.id)) 0)
    | _ => number x
  | .modify x =>
    (match x with
     | .patterns qs =>
       if (d.groupIds 3 h).any (fun p => (d.otherPats h qs).contains p) then say (some noRec) else none
     | _ => number x)
  | .add k rs ps =>
    if k = 3 then say (firstRepeat (d.groupIds 3 h ++ d.otherPats h ports) (ps.map (·.id)) 0)
    else say (firstRepeat (d.groupIds k h) (rs.map (·.id)) 0)
  | .change k rs ps => say (firstRepeat [] (if k = 3 then ps.map (·.id) else rs.map (·.id)) 0)
  | .remove _ ids => say (firstRepeat [] ids 0)
  | _ => none

/-- IN_USE: a DELETE of an object bound to a slot, or of a multicast group that a static entry names. -/
def Dev.inUse (d : Dev) (i : Intent) : Option Bad :=
  match i.body with
  | .delete k =>
    let named := match d.latestObj i.head.batch i.head.handle with
      | some o =>
        (match o.data with
         | .mcast g _ => d.plc.objs.any (fun x => d.stands x.v && match x.data with | .static r => r.dest = .group g | _ => false)
         | _ => false)
      | none => false
    if d.slotBound i.head.handle || named then some (0x19, whereAt 0xF (memOf k) 0, noRec) else none
  | _ => none

/-- The checks from HOST_READ_ERROR to IN_USE, in order. -/
def Dev.checkIntent (d : Dev) (i : Intent) : Option Bad :=
  let h := i.head
  if !h.readable then some (0x10, 0xF, noRec)
  else if d.badIntent i || d.absentId i then some (0x11, 0xF, noRec)
  else if d.noHandle i then some (0x12, 0xF, noRec)
  else if (match i.body with | .create _ _ _ => h.handle = 0 || d.handleUsed h.batch h.handle | _ => false) then some (0x13, 0xF, noRec)
  else if h.batch && (d.cd .tkStatus_batchOpen = 0 || d.tak.committing) then some (0x14, 0xF, noRec)
  else
    match (match i.body with | .create x _ _ => d.portFault x | .modify x => d.portFault x | _ => none) with
    | some b => some b
    | none => match d.duplicate i with | some b => some b | none => d.inUse i

/-! ### Associative-memory order (R111, R115, R251) -/

/-- The prefix entries that cover the values lo to hi of b bits (R115). -/
def prefixCount : Nat → Nat → Nat → Nat
  | 0, _, _ => 1
  | b + 1, lo, hi =>
    if lo = 0 ∧ hi + 1 = 2 ^ (b + 1) then 1
    else
      (if lo < 2 ^ b then prefixCount b lo (min hi (2 ^ b - 1)) else 0) +
        (if 2 ^ b ≤ hi then prefixCount b (lo - 2 ^ b) (hi - 2 ^ b) else 0)

/-- The entries a rule of a layout expands into: the product over its RANGE fields, none when a range is empty. -/
def expansion (fs : List KeyField) (r : RuleRec) : Nat :=
  (fieldPlaces fs 0).foldl (fun a x =>
    if x.1.range then
      let lo := bits r.value (x.2 + keyWidth x.1 - 1) x.2
      let hi := bits r.mask (x.2 + keyWidth x.1 - 1) x.2
      a * (if lo ≤ hi then prefixCount (keyWidth x.1) lo hi else 0)
    else a) 1

/-- The run of a rule in the order of a group: PRIORITY, RULE_ID, the entries of its expansion, its first slot when it already
has one, and the version it is to have when it has none. -/
structure CamItem where
  priority : Nat
  id : Nat
  parts : Nat
  slot : Option Nat
  v : Ver := {}
  deriving DecidableEq, Repr

/-- The order of runs: PRIORITY, then RULE_ID. -/
def camBefore (a b : CamItem) : Bool := a.priority < b.priority || (a.priority = b.priority && a.id < b.id)

/-- A run put into its place in order. -/
def camInsert (x : CamItem) : List CamItem → List CamItem
  | [] => [x]
  | y :: t => if camBefore x y then x :: y :: t else y :: camInsert x t

/-- The aligned free slots of a pipe: held by no version, or, with `soon`, by none that awaits no reclaim. -/
def Dev.freeCam (d : Dev) (n p size : Nat) (soon : Bool) : List Nat :=
  let used := d.plc.cam.filter (fun e => e.die = n && e.pipe = p && !(soon && e.v.until_.isSome))
  ((List.range (12288 / size)).map (· * size)).filter (fun s =>
    used.all (fun e => s + size ≤ e.slot || e.slot + e.size * e.parts ≤ s))

/-- Runs of so many entries each put, in order, into the first free slots that lie one behind another: the first slot of each,
as far as the free slots go.  `st` and `ln` are the run of free slots so far. -/
def fitRuns (size : Nat) : List Nat → List Nat → Nat → Nat → List Nat
  | [], _, _, _ => []
  | _ :: _, [], _, _ => []
  | f :: fs, p :: ps, st, ln =>
    let on : Bool := ln ≠ 0 ∧ st + ln * size = f
    let st1 := if on then st else f
    let ln1 := if on then ln + 1 else 1
    if p ≤ ln1 then st1 :: fitRuns size fs ps f 0 else fitRuns size fs (p :: ps) st1 ln1

/-- The free slots between the end of one run and the start of another. -/
def between (free : List Nat) (size a b : Nat) : List Nat := free.filter (fun f => a ≤ f && f + size ≤ b)

/-- A place in the order of a group and the slots it holds: the place, its first slot, and the slot after its last. -/
abbrev Stay := Nat × Nat × Nat

/-- The runs between two that stay. -/
def betweenItems (items : List CamItem) (a b : Stay) : List CamItem := (items.drop a.1).take (b.1 - a.1 - 1)

/-- Extends the longest chains of runs that may stay by one: the free slots before it hold all the others. -/
def chainStep (free : List Nat) (size : Nat) (items : List CamItem) (best : List (List Stay)) (pt : Stay) : List (List Stay) :=
  let ok := best.filter (fun c =>
    match c with
    | a :: _ => a.1 < pt.1 && a.2.2 ≤ pt.2.1 &&
        (let its := betweenItems items a pt
         (fitRuns size (between free size a.2.2 pt.2.1) (its.map (·.parts)) 0 0).length = its.length)
    | [] => false)
  match ok.foldl (fun (a : Option (List Stay)) c =>
      match a with | none => some c | some x => if x.length < c.length then some c else some x) none with
  | some c => best ++ [pt :: c]
  | none => best

/-- The fewest moves: the longest chain of runs that stay, between which the free slots hold all the others. -/
def stayChain (free : List Nat) (size : Nat) (items : List CamItem) : Option (List Stay) :=
  let pts := (items.zip (List.range items.length)).filterMap (fun x =>
    x.1.slot.map (fun s => ((x.2 + 1, s, s + size * x.1.parts) : Stay)))
  let best := (pts ++ [(items.length + 1, 12288, 12288)]).foldl (chainStep free size items) [[(0, 0, 0)]]
  best.find? (fun c => match c with | (pl, _) :: _ => pl = items.length + 1 | [] => false)

/-- The runs between two that stay with the free slots they take: which of the free slots are left open is a draw (R25). -/
def fillGap (free : List Nat) (size : Nat) (items : List CamItem) (a b : Stay) (draw : Nat) : List (CamItem × Nat) :=
  let its := betweenItems items a b
  let parts := its.map (·.parts)
  let fs := between free size a.2.2 b.2.1
  let later := fitRuns size (fs.drop (draw % (fs.length - parts.foldl (· + ·) 0 + 1))) parts 0 0
  its.zip (if later.length = its.length then later else fitRuns size fs parts 0 0)

/-- The plan of a chain, its last point first. -/
def chainPlan (free : List Nat) (size : Nat) (items : List CamItem) (seed : Nat) : List Stay → List (CamItem × Nat)
  | b :: a :: rest => chainPlan free size items seed (a :: rest) ++ fillGap free size items a b (Config.draw (seed + a.1))
  | _ => []

/-- The slots that new and moved runs take in a pipe: `none` when too few are free. -/
def Dev.camPlan (d : Dev) (n p size : Nat) (items : List CamItem) (soon : Bool) : Option (List (CamItem × Nat)) :=
  let free := d.freeCam n p size soon
  (stayChain free size items).map (chainPlan free size items d.net.draws)

/-- A rule that a change adds to a pipe, with the version of its entries. -/
abbrev NewRule := RuleRec × Ver

/-- The items of a group in a pipe: the runs that stay, and those of the rules added, in order.  A rule whose range is empty
has no entry. -/
def Dev.camItems (d : Dev) (b : Bool) (n p h : Nat) (fs : List KeyField) (drops : List Nat) (adds : List NewRule) : List CamItem :=
  let kept := (d.plc.cam.filter (fun e => e.die = n && e.pipe = p && e.g = h && d.stands e.v &&
    !(drops.contains e.id && d.seen b e.v))).map (fun e => (⟨e.priority, e.id, e.parts, some e.slot, e.v⟩ : CamItem))
  let new := (adds.filter (fun r => expansion fs r.1 ≠ 0)).map (fun r =>
    (⟨r.1.priority, r.1.id, expansion fs r.1, none, r.2⟩ : CamItem))
  (kept ++ new).foldl (fun l x => camInsert x l) []

/-- A run takes its slots: a new one is a pending version; a moved one is a new version while the old ends with it, but one
still pending moves as it is (R135, R251). -/
def Dev.putCam (d : Dev) (k n p size h : Nat) (x : CamItem × Nat) : Dev :=
  let new := fun (v : Ver) => (⟨n, p, x.2, size, h, x.1.id, x.1.priority, x.1.parts, v⟩ : CamEnt)
  match x.1.slot with
  | none => { d with plc := { d.plc with cam := d.plc.cam ++ [new x.1.v] } }
  | some s =>
    let here := fun (e : CamEnt) => e.die = n && e.pipe = p && e.slot = s && e.g = h && d.stands e.v
    if d.plc.cam.any (fun e => here e && e.v.pending) then
      { d with plc := { d.plc with cam := d.plc.cam.map (fun (e : CamEnt) => if here e then { e with slot := x.2 } else e) } }
    else
      { d with plc := { d.plc with
          cam := d.plc.cam.map (fun (e : CamEnt) => if here e then { e with v := e.v.endBy k } else e) ++
            [new { Ver.begin_ k with enders := x.1.v.enders }] } }

/-- The run of entries that begins at a slot. -/
def Dev.camAt (d : Dev) (n p s : Nat) : Option CamEnt :=
  d.plc.cam.find? (fun e => e.die = n && e.pipe = p && e.slot = s && d.stands e.v)

/-- Whether the runs of each group of a pipe keep the order of R251. -/
def Dev.camOrdered (d : Dev) (n p : Nat) : Bool :=
  let l := d.plc.cam.filter (fun e => e.die = n && e.pipe = p && d.stands e.v)
  l.all (fun a => l.all (fun b =>
    !(a.g = b.g && camBefore ⟨a.priority, a.id, 0, none, {}⟩ ⟨b.priority, b.id, 0, none, {}⟩) || a.slot < b.slot))

/-! ### Objects as versions -/

/-- A new version of the object with a handle, in place of the one in view. -/
def Dev.putObj (d : Dev) (k : Nat) (b : Bool) (h num : Nat) (plans : List (Nat × Nat)) (x : ObjData) : Dev :=
  { d with plc := { d.plc with
      objs := d.plc.objs.map (fun (o : ObjVer) => if o.h = h then { o with v := d.endIn k b o.v } else o) ++
        [{ h := h, data := dataStore x, num := num, plans := plans, v := d.beginIn k b (d.objVers h) }] } }

/-- The static entries of a handle ended, those in view or all. -/
def Dev.endStatics (d : Dev) (h : Nat) (f : Ver → Ver) : Dev :=
  let go := fun (e : AddrEnt) => if e.static ∧ e.handle = h then { e with v := f e.v } else e
  { d with
    plc := { d.plc with evicts := d.plc.evicts.map (fun e => (e.1, e.2.1, go e.2.2)) }
    fw := d.fw.map (fun x => { x with table := x.table.map (fun e => (e.1, go e.2)) }) }

/-- Every version of an object and of what it holds ends; a DELETE without BATCH also ends what the open batch would have
made of it (DESIGN CHOICE, log 95). -/
def Dev.endObj (d : Dev) (k h : Nat) : Dev :=
  let d1 := { d with plc := { d.plc with
      objs := d.plc.objs.map (fun (o : ObjVer) => if o.h = h then { o with v := o.v.endBy k } else o)
      rules := d.plc.rules.map (fun (o : RuleVer) => if o.g = h then { o with v := o.v.endBy k } else o)
      pats := d.plc.pats.map (fun (o : PatVer) => if o.g = h then { o with v := o.v.endBy k } else o)
      cam := d.plc.cam.map (fun (o : CamEnt) => if o.g = h then { o with v := o.v.endBy k } else o) } }
  d1.endStatics h (Ver.endBy k)

/-- What ends, at the batch's take, a rule that an intent without BATCH puts into a group: a version of the same rule that the
batch stages, or the batch's end of the group. -/
def Dev.ruleEnds (d : Dev) (b : Bool) (h : Nat) (own : List Ver) : List Nat :=
  if b then []
  else (d.batchEnds own ++ (if (d.latestObj true h).isNone then d.batchEnds (d.objVers h) else [])).eraseDups

/-- The version that commit k gives a rule or pattern of an ID. -/
def Dev.ruleVer (d : Dev) (k : Nat) (b : Bool) (h id : Nat) : Ver :=
  { Ver.begin_ k with enders := d.ruleEnds b h ((d.plc.rules.filter (fun r => r.g = h && r.r.id = id)).map (·.v)) }

/-- Rules put into a group as versions, those in view of the same IDs ended. -/
def Dev.putRules (d : Dev) (k : Nat) (b : Bool) (h : Nat) (drops : List Nat) (adds : List RuleRec) : Dev :=
  let new := (adds.zip (List.range adds.length)).map (fun r =>
    ({ g := h, r := r.1, room := d.plc.rooms + r.2, v := d.ruleVer k b h r.1.id } : RuleVer))
  { d with plc := { d.plc with
      rooms := d.plc.rooms + adds.length
      rules := d.plc.rules.map (fun (o : RuleVer) =>
        if o.g = h ∧ drops.contains o.r.id = true then { o with v := d.endIn k b o.v } else o) ++ new } }

/-- Patterns put into a group as versions, those in view of the same IDs ended. -/
def Dev.putPats (d : Dev) (k : Nat) (b : Bool) (h : Nat) (drops : List Nat) (adds : List PatRec) : Dev :=
  let own := fun (id : Nat) => (d.plc.pats.filter (fun r => r.g = h && r.r.id = id)).map (·.v)
  let new := (adds.zip (List.range adds.length)).map (fun r =>
    ({ g := h, r := r.1, room := d.plc.rooms + r.2,
       v := { Ver.begin_ k with enders := d.ruleEnds b h (own r.1.id) } } : PatVer))
  { d with plc := { d.plc with
      rooms := d.plc.rooms + adds.length
      pats := d.plc.pats.map (fun (o : PatVer) =>
        if o.g = h ∧ drops.contains o.r.id = true then { o with v := d.endIn k b o.v } else o) ++ new } }

/-! ### Moves of the sequencer's own (R252) -/

/-- The slots of the other bucket of the static or learned entry in a slot, as far as they are free. -/
def Dev.mayGo (d : Dev) (n src dst : Nat) : Bool :=
  d.freeSlot n dst && (d.otherSlots n (nBuckets d.boot.sb.profile) src).contains dst

/-- A static entry moves to another slot under commit k; one still pending moves as it is. -/
def Dev.moveStatic (d : Dev) (k n src dst : Nat) (c : AddrEnt) : Dev :=
  if c.v.pending then (d.delEnt n src).putEnt n dst c
  else (d.putEnt n src { c with v := c.v.endBy k }).putEnt n dst { c with v := { Ver.begin_ k with enders := c.v.enders } }

/-- A move staged as versions of commit k: `none` when it is none that the sequencer could make. -/
def Dev.stageMove (d : Dev) (k : Nat) (m : SeqMove) : Option Dev :=
  match m with
  | .cam n p l _ =>
    if l = [] ∨ 256 < l.length then none
    else
      (l.foldl (fun (a : Option Dev) x =>
        match a with
        | none => none
        | some e =>
          match e.camAt n p x.1 with
          | some c =>
            let free := e.freeCam n p c.size false
            if (List.range c.parts).all (fun i => free.contains (x.2 + c.size * i)) then
              some (e.putCam k n p c.size c.g (⟨c.priority, c.id, c.parts, some x.1, c.v⟩, x.2)) else none
          | none => none) (some d)).filter (fun e => e.camOrdered n p)
  | .static n l _ =>
    if l = [] ∨ 256 < l.length then none
    else
      l.foldl (fun (a : Option Dev) x =>
        match a with
        | none => none
        | some e =>
          match e.entAt n x.1 with
          | some c => if c.static && e.stands c.v && e.mayGo n x.1 x.2 then some (e.moveStatic k n x.1 x.2 c) else none
          | none => none) (some d)
  | .plan n h =>
    let again := fun (o : ObjVer) => aset o.plans n ((aget o.plans n).getD 0 + 1)
    let d1 := { d with plc := { d.plc with objs := d.plc.objs.map (fun (o : ObjVer) =>
      if o.h = h ∧ o.v.pending = true ∧ d.ofBatch o.v.owner = true then { o with plans := again o } else o) } }
    match d.latestObj false h with
    | some o => (match o.data with | .mcast _ _ => some (d1.putObj k false h o.num (again o) o.data) | _ => none)
    | none => none

/-- What staging gives: a failure; a wait for reclaim; a move that the sequencer must make first, with the learned entries that
are carried out of its way on a die; or the device with the change staged and the dies whose trees it changes.  A wait or a
move keeps the device, on which what follows may still fail. -/
inductive Staged where
  | bad (b : Bad)
  | wait (d : Dev)
  | first (d : Dev) (m : SeqMove) (n : Nat) (path : List Nat)
  | ok (d : Dev) (trees : List Nat)

/-- The next step of staging: room that even reclaim does not give fails the intent at once (R249). -/
def Staged.andThen (x : Staged) (f : Dev → Staged) : Staged :=
  match x with
  | .ok d t => (match f d with | .ok e u => .ok e (t ++ u) | y => y)
  | .wait d => (match f d with | .bad b => .bad b | _ => .wait d)
  | .first d m n p => (match f d with | .bad b => .bad b | .wait e => .wait e | _ => .first d m n p)
  | .bad b => .bad b

/-! ### Associative-memory changes -/

/-- The first record of those added that a pipe does not hold even after every pending reclaim. -/
def Dev.camLack (d : Dev) (b : Bool) (n p size h : Nat) (fs : List KeyField) (drops : List Nat) (adds : List NewRule) : Nat :=
  ((List.range adds.length).find? (fun k =>
    (d.camPlan n p size (d.camItems b n p h fs drops (adds.take (k + 1))) true).isNone)).getD 0

/-- The move that respreads a group's free slots, when a plan would move more than 64 runs: those moves made first, in takes of
their own, at most 256 at a time (R252). -/
def Dev.respread (d : Dev) (n p : Nat) (plan : List (CamItem × Nat)) : Option SeqMove :=
  let moved := plan.filterMap (fun x => x.1.slot.map (fun s => (s, x.2)))
  if moved.length ≤ 64 then none
  else
    ([moved.take 256, moved.drop (moved.length - 256)].map (fun l => SeqMove.cam n p l 0)).find? (fun m =>
      (d.stageMove d.tak.nextOwner m).isSome)

/-- Rules added to a group's entries in a pipe, those dropped given up.  `base` is the number of rules among those added that
the payload does not hold. -/
def Dev.camChange (d : Dev) (k : Nat) (b : Bool) (n p size h : Nat) (fs : List KeyField) (drops : List Nat)
    (adds : List NewRule) (base : Nat) : Staged :=
  let items := d.camItems b n p h fs drops adds
  let d1 := { d with plc := { d.plc with cam := d.plc.cam.map (fun (e : CamEnt) =>
    if e.die = n ∧ e.pipe = p ∧ e.g = h ∧ drops.contains e.id = true then { e with v := d.endIn k b e.v } else e) } }
  match d.camPlan n p size items false with
  | some plan =>
    match d.respread n p plan with
    | some m => .first d m 0 []
    | none =>
      let d2 := plan.foldl (fun d x => d.putCam k n p size h x) d1
      .ok { d2 with net := { d2.net with draws := d2.net.draws + items.length + 1 } } []
  | none =>
    if (d.camPlan n p size items true).isSome then .wait d
    else
      let lack := d.camLack b n p size h fs drops adds
      .bad (0x1B, whereAt n 0 p, if lack < base ∨ adds.length ≤ base then noRec else lack - base)

/-- A group leaves a pipe: its entries in view there end. -/
def Dev.camLeave (d : Dev) (k : Nat) (b : Bool) (n p h : Nat) : Dev :=
  { d with plc := { d.plc with cam := d.plc.cam.map (fun (e : CamEnt) =>
    if e.die = n ∧ e.pipe = p ∧ e.g = h then { e with v := d.endIn k b e.v } else e) } }

/-- The pipes that serve a set of ports, in ascending die and pipe order (R108). -/
def pipesOf (ps : List Nat) : List (Nat × Nat) :=
  ((List.range 16).map (fun x => (x / 4, x % 4))).filter (fun x => ps.any (fun p => dieOf p = x.1 && pipeOf p = x.2))

/-! ### Rule units and patterns (R120, R124) -/

/-- The rule units of a die (Table 6-5). -/
def unitLimit (profile : Nat) : Nat := if profile = 1 then 131072 else 262144

/-- Whether a version of a tree group's object has a port on a die. -/
def Dev.treeOn (d : Dev) (n h : Nat) : Option Nat :=
  d.plc.objs.findSome? (fun o =>
    if o.h = h then
      (match o.data with | .rules true w _ ps => if ps.any (fun p => dieOf p = n) then some (w / 160) else none | _ => none)
    else none)

/-- The rule units in use on a die, or with `soon` those that await no reclaim. -/
def Dev.unitsUsed (d : Dev) (n : Nat) (soon : Bool) : Nat :=
  d.plc.rules.foldl (fun a r => if soon ∧ r.v.until_.isSome then a else a + (d.treeOn n r.g).getD 0) 0

/-- The patterns that a die may hold for its inspection window (Table 6-8). -/
def patternCap (window : Nat) : Nat := if window = 64 then 4096 else if window = 256 then 2048 else 3072

/-- The patterns in view on a die but for those of one group. -/
def Dev.patsUsed (d : Dev) (b : Bool) (n h : Nat) : Nat :=
  ((d.objects b).filter (fun o => o.data.kind = 3 && o.h ≠ h && (portsOf o.data).any (fun p => dieOf p = n))).foldl
    (fun a o => a + (d.groupPats b o.h).length) 0

/-! ### Rule groups -/

/-- The ports that other rule groups in view give up: their new versions without them, and their entries in pipes they no longer
serve ended (R245); with the dies whose trees change. -/
def Dev.takePorts (d : Dev) (k : Nat) (b : Bool) (from_ : Nat → Bool) (ports : List Nat) : Dev × List Nat :=
  ((d.objects b).filter (fun o => from_ o.h && o.data.kind ≤ 2)).foldl (fun (a : Dev × List Nat) o =>
    match o.data with
    | .rules tree w fs ps =>
      if ps.any (fun p => ports.contains p) then
        let rest := ps.filter (fun p => !ports.contains p)
        let d1 := a.1.putObj k b o.h o.num o.plans (.rules tree w fs rest)
        let d2 := if tree then d1
          else ((pipesOf ps).filter (fun x => !(pipesOf rest).contains x)).foldl (fun d x => d.camLeave k b x.1 x.2 o.h) d1
        (d2, if tree then a.2 ++ diesOf ps else a.2)
      else a
    | _ => a) (d, [])

/-- The groups that the open batch binds anew, with the owner and the ports of each. -/
def Dev.batchGroups (d : Dev) : List (Nat × Nat × List Nat) :=
  (d.plc.objs.filter (fun o => o.data.kind ≤ 2 && o.v.pending && d.ofBatch o.v.owner && d.seen true o.v)).map (fun o =>
    (o.h, o.v.owner, portsOf o.data))

/-- A group bound without BATCH loses, at the batch's take, the ports that the batch binds to other groups (R245, R250). -/
def Dev.yieldPorts (d : Dev) (h : Nat) : Dev :=
  (d.batchGroups.filter (fun g => g.1 ≠ h)).foldl (fun (d : Dev) g => (d.takePorts g.2.1 true (fun x => x = h) g.2.2).1) d

/-- The first record whose entries carry a count past a limit. -/
def firstOver (cost : RuleRec → Nat) (limit : Nat) : List RuleRec → Nat → Nat → Nat
  | [], _, k => k
  | r :: t, acc, k => if limit < acc + cost r then k else firstOver cost limit t (acc + cost r) (k + 1)

/-- The room of tree rules on the dies of a group: the first die that lacks it even after every pending reclaim fails the
intent; else one that lacks it now makes it wait. -/
def Dev.treeRoom (d : Dev) (size limit : Nat) (old ports : List Nat) (before adds : List RuleRec) : Staged :=
  let have_ := fun (n : Nat) => if (diesOf old).contains n then 0 else before.length * size
  let need := fun (n : Nat) => have_ n + adds.length * size
  match (diesOf ports).find? (fun n => limit < d.unitsUsed n true + need n) with
  | some n => .bad (0x1B, whereAt n 1 0, if adds = [] then noRec else (limit - d.unitsUsed n true - have_ n) / size)
  | none => if (diesOf ports).any (fun n => limit < d.unitsUsed n false + need n) then .wait d else .ok d []

/-- The rules of a group that the open batch has pending, with their versions. -/
def Dev.batchRules (d : Dev) (h : Nat) : List NewRule :=
  (d.plc.rules.filter (fun r => r.g = h && r.v.pending && d.ofBatch r.v.owner && d.seen true r.v)).map (fun r =>
    (r.r, { Ver.begin_ r.v.owner with enders := r.v.enders }))

/-- The pipes that only the open batch gives a group, each with its owner. -/
def Dev.batchPipes (d : Dev) (h : Nat) (ports : List Nat) : List (Nat × Nat × Nat) :=
  (d.batchGroups.filter (fun g => g.1 = h)).flatMap (fun g =>
    ((pipesOf g.2.2).filter (fun x => !(pipesOf ports).contains x)).map (fun x => (g.2.1, x.1, x.2)))

/-- The entries of a rule group in its pipes as a change leaves them: in a pipe it served before, the records dropped and added;
in a new pipe all its rules, those that the open batch has pending among them; in a pipe that the batch gives it, the
records under the batch's own commit. -/
def Dev.stageCam (d : Dev) (k : Nat) (b : Bool) (h size : Nat) (fs : List KeyField) (old ports : List Nat) (drops : List Nat)
    (before adds : List RuleRec) : Staged :=
  let own := fun (r : RuleRec) => ((r, d.ruleVer k b h r.id) : NewRule)
  let more := if b then [] else d.batchRules h
  let first := (pipesOf ports).foldl (fun (a : Staged) x =>
    a.andThen (fun e =>
      if (pipesOf old).contains x then
        (if drops = [] ∧ adds = [] then .ok e [] else e.camChange k b x.1 x.2 size h fs drops (adds.map own) 0)
      else e.camChange k b x.1 x.2 size h fs [] (more ++ (before ++ adds).map own) (more.length + before.length))) (.ok d [])
  if b then first
  else
    (d.batchPipes h ports).foldl (fun (a : Staged) x =>
      a.andThen (fun e =>
        if drops = [] ∧ adds = [] then .ok e []
        else e.camChange k b x.2.1 x.2.2 size h fs drops (adds.map (fun r => (r, Ver.begin_ x.1))) 0)) first

/-- A change of a rule group: its ports and layout as they will be, its rules before and after, and what is dropped and
added by it. -/
def Dev.stageRules (d : Dev) (k : Nat) (b : Bool) (h : Nat) (tree : Bool) (w : Nat) (fs : List KeyField) (old ports : List Nat)
    (drops : List Nat) (adds : List RuleRec) (newObj : Bool) : Staged :=
  let size := w / 160
  let before := (d.groupRules b h).filter (fun r => !drops.contains r.id)
  let cost := fun r => if tree then size else size * expansion fs r
  let held := before.foldl (fun a r => a + cost r) 0
  let limit := if tree then unitLimit d.boot.sb.profile else 12288
  if ports ≠ [] ∧ limit < adds.foldl (fun a r => a + cost r) held then
    let at_ := if tree then whereAt ((diesOf ports).head?.getD 0) 1 0
      else (match pipesOf ports with | x :: _ => whereAt x.1 0 x.2 | [] => 0xF)
    .bad (0x1A, at_, if adds = [] then noRec else firstOver cost limit adds held 0)
  else
    let t := d.takePorts k b (· ≠ h) (if newObj then ports else [])
    let d1 := if newObj then t.1.putObj k b h 0 [] (.rules tree w fs ports) else t.1
    let d2 := if newObj && !b then d1.yieldPorts h else d1
    if tree then
      (d.treeRoom size limit old ports before adds).andThen (fun _ =>
        .ok (d2.putRules k b h drops adds) ((diesOf (old ++ ports) ++ t.2).eraseDups))
    else
      let leave := (pipesOf old).filter (fun x => !(pipesOf ports).contains x)
      ((leave.foldl (fun d x => d.camLeave k b x.1 x.2 h) d2).stageCam k b h size fs old ports drops before adds).andThen (fun e =>
        .ok (e.putRules k b h drops adds) t.2)

/-- A change of a pattern group.  The bank of a take holds its patterns, so that those of the open batch's take must fit too. -/
def Dev.stagePats (d : Dev) (k : Nat) (b : Bool) (h : Nat) (ports : List Nat) (drops : List Nat) (adds : List PatRec)
    (newObj : Bool) : Staged :=
  let held := fun (v : Bool) => ((d.groupPats v h).filter (fun r => !drops.contains r.id)).length
  let cap := fun (n : Nat) => patternCap (d.boot.sb.window[n]?.getD 128)
  let room := fun (n used had : Nat) => if adds = [] then noRec else cap n - used - had
  match (diesOf ports).find? (fun n => cap n < held b + adds.length) with
  | some n => .bad (0x1A, whereAt n 3 0, room n 0 (held b))
  | none =>
    let views := if b then [true] else [false, true]
    match (diesOf ports).findSome? (fun n =>
        (views.find? (fun v => cap n < d.patsUsed v n h + held v + adds.length)).map (fun v => (n, v))) with
    | some (n, v) => .bad (0x1B, whereAt n 3 0, room n (d.patsUsed v n h) (held v))
    | none =>
      let d1 := if newObj then d.putObj k b h 0 [] (.patterns ports) else d
      .ok (d1.putPats k b h drops adds) []

/-! ### Static entries (R178, R184, R251) -/

/-- The learned entries of a key's two buckets that an eviction may choose, in the order of preference of R178. -/
def Dev.evictable (d : Dev) (n key : Nat) : List Nat :=
  let c := (slotsOf (nBuckets d.boot.sb.profile) key).filter (fun i =>
    !d.badEnt n i && !d.plc.evicts.any (fun e => e.1 = n && e.2.1 = i) &&
    (match d.entAt n i with | some e => !e.static | none => false))
  let has := fun (f : AddrEnt → Bool) => c.filter (fun i => match d.entAt n i with | some e => f e | none => false)
  if has (·.strike) ≠ [] then has (·.strike) else if has (fun e => !e.hit) ≠ [] then has (fun e => !e.hit) else c

/-- The static versions of a die, or with `soon` those that await no reclaim. -/
def Dev.staticCount (d : Dev) (n : Nat) (soon : Bool) : Nat :=
  ((d.statics n).filter (fun e => !(soon && e.v.until_.isSome))).length

/-- The device as it will be once every pending reclaim has freed the static entries that await it on a die. -/
def Dev.reclaimed (d : Dev) (n : Nat) : Dev :=
  let x := d.fwOf n
  d.setFw n { x with table := x.table.filter (fun e => !(e.2.static && e.2.v.until_.isSome)) }

/-- The entries of a path of moves, its free slot first, that move at once: the learned ones up to the first static one. -/
def Dev.learnedPath (d : Dev) (n : Nat) : List Nat → List Nat
  | j :: i :: rest =>
    (match d.entAt n i with
     | some e => if e.static then [j] else j :: d.learnedPath n (i :: rest)
     | none => [j])
  | l => l

/-- The first static entry on a path of moves, its free slot first, with the slot it goes to. -/
def Dev.staticOnPath (d : Dev) (n : Nat) : List Nat → Option (Nat × Nat)
  | j :: i :: rest =>
    (match d.entAt n i with
     | some e => if e.static then some (i, j) else d.staticOnPath n (i :: rest)
     | none => none)
  | _ => none

/-- Whether a static entry finds room on a die in its buckets, by a path of moves or by an eviction. -/
def Dev.staticRoom (d : Dev) (n key : Nat) : Bool :=
  (d.placeFor n key 16 (fun _ => true)).isSome || !(d.evictable n key).isEmpty

/-- A static entry staged on one die (R251).  Where a path of moves carries a static entry, whose old way is held until
reclaim, that entry moves first, in a take of its own, and the intent then waits for the way (R249, R252; DEDUCED, log 96). -/
def Dev.stageStaticOn (d : Dev) (k : Nat) (b : Bool) (n h : Nat) (r : StaticRec) : Staged :=
  let key := fwKey r.fid r.mac
  let e : AddrEnt := { mac := r.mac, fid := r.fid, dest := r.dest, static := true, cls := r.cls, stream := r.stream,
                       handle := h, v := d.beginIn k b (d.objVers h) }
  let fail : Staged := .bad (0x1B, whereAt n 4 0, 0)
  if 262144 ≤ d.staticCount n true then fail
  else if 262144 ≤ d.staticCount n false then .wait d
  else
    match d.placeFor n key 16 (fun _ => true) with
    | some (i, path) =>
      match d.staticOnPath n path with
      | none => .ok (((d.carryOut n path).putEnt n i e).fillTest n) []
      | some m => .first d (.static n [m] h) n (d.learnedPath n path)
    | none =>
      match d.evictable n key with
      | [] => if (d.reclaimed n).staticRoom n key then .wait d else fail
      | cs =>
        let x := d.drawBelow cs.length
        let i := (cs[x.1]?).getD 0
        .ok { x.2 with plc := { x.2.plc with evicts := x.2.plc.evicts ++ [(n, i, e)] } } []

/-- A static entry staged on every active die. -/
def Dev.stageStatic (d : Dev) (k : Nat) (b : Bool) (h : Nat) (r : StaticRec) : Staged :=
  d.dies.foldl (fun (a : Staged) n => a.andThen (fun e => e.stageStaticOn k b n h r)) (.ok d [])

/-! ### Other kinds and bindings -/

/-- The lowest mirror session number that no version holds. -/
def Dev.freeSession (d : Dev) : Option Nat :=
  (List.range 16).find? (fun m => !d.plc.objs.any (fun o => o.data.kind = 8 && o.num = m))

/-- The instances a BIND makes: on each die whose programs name the slot (R251). -/
def Dev.bindDies (d : Dev) (op slot : Nat) : List Nat := d.dies.filter (fun n => namesSlot d.boot.sb n op slot)

/-- The counter entries of a counter block: the most that any of its versions holds, or with `soon` any that awaits no
reclaim. -/
def Dev.blockSize (d : Dev) (h : Nat) (soon : Bool) : Nat :=
  d.plc.objs.foldl (fun a o => if o.h = h ∧ !(soon && o.v.until_.isSome) then
    (match o.data with | .cblock k => max a k | _ => a) else a) 0

/-- Whether an instance is held by a binding that awaits no reclaim. -/
def Dev.instanceStays (d : Dev) (op h n : Nat) : Bool :=
  d.plc.binds.any (fun b => b.h = h && b.v.until_.isNone && namesSlot d.boot.sb n op b.slot)

/-- The counter entries in use on a die but for those of one block, or with `soon` those that await no reclaim. -/
def Dev.entriesUsed (d : Dev) (n h : Nat) (soon : Bool) : Nat :=
  (d.plc.cblks.filter (fun m => m.die = n && m.h ≠ h && !(soon && !d.instanceStays 0x28 m.h n))).foldl
    (fun a m => a + d.blockSize m.h soon) 0

/-- The room of a counter block of a size on dies: 262,144 entries each. -/
def Dev.blockRoom (d : Dev) (ns : List Nat) (h size : Nat) : Staged :=
  match ns.find? (fun n => 262144 < d.entriesUsed n h true + size) with
  | some n => .bad (0x1B, whereAt n 5 0, noRec)
  | none => if ns.any (fun n => 262144 < d.entriesUsed n h false + size) then .wait d else .ok d []

/-- The meters and policers in use on a die, or with `soon` those that await no reclaim. -/
def Dev.metersUsed (d : Dev) (n : Nat) (soon : Bool) : Nat :=
  (d.plc.meters.filter (fun m => m.die = n && !(soon && !d.instanceStays 0x27 m.h n))).length

/-- The room of one more meter on dies: 65,536 each (R231). -/
def Dev.meterRoom (d : Dev) (ns : List Nat) : Staged :=
  match ns.find? (fun n => 65536 ≤ d.metersUsed n true) with
  | some n => .bad (0x1B, whereAt n 5 0, noRec)
  | none => if ns.any (fun n => 65536 ≤ d.metersUsed n false) then .wait d else .ok d []

/-- BIND (R151, R231, R251): the binding's new version, and the instances it needs. -/
def Dev.stageBind (d : Dev) (k : Nat) (b : Bool) (slot h : Nat) : Staged :=
  let own := (d.plc.binds.filter (fun x => x.slot = slot)).map (·.v)
  let d1 := { d with plc := { d.plc with
    binds := d.plc.binds.map (fun (x : BindVer) => if x.slot = slot then { x with v := d.endIn k b x.v } else x) ++
      [{ slot := slot, h := h, v := d.beginIn k b own }] } }
  match (d.latestObj b h).map (fun o => o.data) with
  | some (ObjData.meter _) =>
    let new := (d.bindDies 0x27 slot).filter (fun n => !d.plc.meters.any (fun m => m.h = h && m.die = n))
    (d.meterRoom new).andThen (fun _ =>
      .ok { d1 with plc := { d1.plc with meters := d1.plc.meters ++ new.map (fun n => { h := h, die := n }) } } [])
  | some (ObjData.cblock size) =>
    let new := (d.bindDies 0x28 slot).filter (fun n => !d.plc.cblks.any (fun m => m.h = h && m.die = n))
    (d.blockRoom new h size).andThen (fun _ =>
      .ok { d1 with plc := { d1.plc with cblks := d1.plc.cblks ++ new.map (fun n => { h := h, die := n }) } } [])
  | _ => .ok d1 []

/-- An object whose change needs no more than its own version and its room. -/
def Dev.stageObj (d : Dev) (k : Nat) (b : Bool) (h : Nat) (x : ObjData) (isNew : Bool) : Staged :=
  let old := d.latestObj b h
  match x with
  | .static r => ((d.endStatics h (d.endIn k b)).putObj k b h 0 [] x).stageStatic k b h r
  | .mirror _ =>
    if isNew then
      if 16 ≤ ((d.plc.objs.filter (fun o => d.stands o.v && o.data.kind = 8)).map (·.h)).eraseDups.length then
        .bad (0x1B, whereAt 0xE 7 0, 0)
      else match d.freeSession with | some m => .ok (d.putObj k b h m [] x) [] | none => .wait d
    else .ok (d.putObj k b h ((old.map (·.num)).getD 0) [] x) []
  | .cblock size =>
    (d.blockRoom ((d.plc.cblks.filter (fun m => m.h = h)).map (·.die)) h size).andThen (fun d => .ok (d.putObj k b h 0 [] x) [])
  | _ => .ok (d.putObj k b h 0 ((old.map (·.plans)).getD []) x) []

/-- The staging of an intent as versions of commit k. -/
def Dev.stage (d : Dev) (i : Intent) (k : Nat) : Staged :=
  let b := i.head.batch
  let h := i.head.handle
  let o := (d.latestObj b h).map (·.data)
  match i.body with
  | .create x rs ps =>
    match x with
    | .rules tree w fs ports => d.stageRules k b h tree w fs [] ports [] rs true
    | .patterns ports => d.stagePats k b h ports [] ps true
    | _ => d.stageObj k b h x true
  | .modify x =>
    match x, o with
    | .rules tree w fs ports, some (.rules _ _ _ old) => d.stageRules k b h tree w fs old ports [] [] true
    | .patterns ports, _ => d.stagePats k b h ports [] [] true
    | _, _ => d.stageObj k b h x false
  | .delete _ => .ok (d.endObj k h) (match o with | some (.rules true _ _ ps) => diesOf ps | _ => [])
  | .add _ rs ps =>
    match o with
    | some (.rules tree w fs ports) => d.stageRules k b h tree w fs ports ports [] rs false
    | some (.patterns ports) => d.stagePats k b h ports [] ps false
    | _ => .ok d []
  | .change _ rs ps =>
    match o with
    | some (.rules tree w fs ports) => d.stageRules k b h tree w fs ports ports (rs.map (·.id)) rs false
    | some (.patterns ports) => d.stagePats k b h ports (ps.map (·.id)) ps false
    | _ => .ok d []
  | .remove _ ids =>
    match o with
    | some (.rules tree w fs ports) => d.stageRules k b h tree w fs ports ports ids [] false
    | some (.patterns ports) => d.stagePats k b h ports ids [] false
    | _ => .ok d []
  | .bind slot => d.stageBind k b slot h
  | .ask _ _ => .ok d []

end Sys2Proof.Machine
end

