-- ==== Sys2Proof/Machine/Placement.lean ====
section
/-! DEFINITION. Placement: WHERE (R253), the run of intents (R247–R250), tree staging (R121), the intent ring (R246), when the
sequencer makes moves of its own (R252), retirement and reclaim (R131, R249). -/

namespace Sys2Proof.Machine

/-! ### WHERE (R253) -/

/-- An answer record: die, memory, unit, state, first, run, FROM, UNTIL. -/
structure Answer where
  die : Nat
  mem : Nat
  unit : Nat
  state : Nat
  first : Nat
  run : Nat
  frm : Nat
  til : Nat
  deriving DecidableEq, Repr

/-- STATE, FROM and UNTIL of a version in an answer record. -/
def verAnswer (n mem unit first run : Nat) (v : Ver) : Answer :=
  ⟨n, mem, unit, if v.pending then 1 else if v.until_.isSome then 2 else 0, first, run, v.from_.getD 0xFF, v.until_.getD 0xFF⟩

/-- Records of consecutive indices in one state joined into runs. -/
def joinRuns : List Answer → List Answer
  | a :: t =>
    match joinRuns t with
    | b :: r =>
      if a.die = b.die ∧ a.mem = b.mem ∧ a.unit = b.unit ∧ a.state = b.state ∧ a.frm = b.frm ∧ a.til = b.til ∧
          a.first + a.run = b.first then { a with run := a.run + b.run } :: r
      else a :: b :: r
    | [] => [a]
  | [] => []

/-- Entries in the order of their slots. -/
def bySlot (x : CamEnt) : List CamEnt → List CamEnt
  | [] => [x]
  | y :: t => if x.slot < y.slot then x :: y :: t else y :: bySlot x t

/-- The copy plan of a version of a multicast group on a die as answer records: the die's own ports first, then die by die,
ascending; every copy after the first lies in a copy slot (R251). -/
def planAnswer (n : Nat) (o : ObjVer) (ms : List Nat) : List Answer :=
  let all := (List.range 133).filter (fun p => ms.contains p)
  let order := all.filter (fun p => dieOf p = n) ++ all.filter (fun p => dieOf p ≠ n)
  (List.range order.length).map (fun i =>
    verAnswer n 6 (if i = 0 then 0 else Config.copyPlan n o.h ((aget o.plans n).getD 0) i % 16) i 1 o.v)

/-- The half or bank of a die in which a version lies: a pending one where its take will find it, one that awaits reclaim where
the takes before its UNTIL do (R120, R121). -/
def Dev.bankOf (d : Dev) (pattern : Bool) (n : Nat) (v : Ver) : Nat :=
  let h := d.halfVer pattern n
  if v.pending then (if (d.flipsOf v.owner).contains (pattern, n) then 1 - h.half else h.half)
  else match v.until_, h.from_ with
    | some u, some f => if takeNewer u f then h.half else 1 - h.half
    | _, _ => h.half

/-- The slots that an object's rules hold in the pipes, as answer records. -/
def Dev.whereCam (d : Dev) (h : Nat) : List Answer :=
  (pipesOf (List.range 128)).flatMap (fun x =>
    ((d.plc.cam.filter (fun e => e.g = h && e.die = x.1 && e.pipe = x.2)).foldl (fun l e => bySlot e l) []).map
      (fun e => verAnswer x.1 0 x.2 e.slot (e.size * e.parts) e.v))

/-- The room that a version of an object holds on a die but for its rules, patterns and static entries. -/
def Dev.whereObj (d : Dev) (n : Nat) (o : ObjVer) : List Answer :=
  match o.data with
  | .rules true _ _ ps =>
    if ps.any (fun p => dieOf p = n) then
      [verAnswer n 2 (d.bankOf false n o.v) (Config.roomAt 2 n o.h 0) (Config.nodeRun n o.h) o.v] else []
  | .mcast _ ms => if d.railOn n then planAnswer n o ms else []
  | .mirror _ => if d.railOn n then [verAnswer n 7 0 o.num 1 o.v] else []
  | .meter _ => if d.plc.meters.any (fun m => m.h = o.h && m.die = n) then [verAnswer n 5 0 (Config.roomAt 5 n o.h 0) 1 o.v] else []
  | .cblock k => if d.plc.cblks.any (fun m => m.h = o.h && m.die = n) then [verAnswer n 5 0 (Config.roomAt 5 n o.h 0) k o.v] else []
  | .stream r => if dieOf r.port = n then [verAnswer n 8 0 r.id 1 o.v] else []
  | _ => []

/-- The room that an object holds on a die: rule units, patterns, what its versions hold, and static entries. -/
def Dev.whereOn (d : Dev) (n h : Nat) : List Answer :=
  let patterns := d.plc.objs.any (fun o => o.h = h && o.data.kind = 3 && (portsOf o.data).any (fun p => dieOf p = n))
  (d.plc.rules.filter (fun r => r.g = h)).flatMap (fun r =>
    match d.treeOn n h with | some u => [verAnswer n 1 0 (Config.roomAt 1 n h r.room) u r.v] | none => []) ++
  (if patterns then
    (d.plc.pats.filter (fun r => r.g = h)).map (fun r => verAnswer n 3 (d.bankOf true n r.v) (Config.roomAt 3 n h r.room) 1 r.v)
    else []) ++
  (d.plc.objs.filter (fun o => o.h = h)).flatMap (fun o => d.whereObj n o) ++
  ((d.fwOf n).table.filter (fun e => e.2.static && e.2.handle = h)).map (fun e => verAnswer n 4 0 e.1 1 e.2.v) ++
  (d.plc.evicts.filter (fun e => e.1 = n && e.2.2.handle = h)).map (fun e => verAnswer n 4 0 e.2.1 1 e.2.2.v)

/-- The room that an object holds, die by die. -/
def Dev.whereAll (d : Dev) (h : Nat) : List Answer :=
  joinRuns (d.whereCam h ++ (List.range 4).flatMap (fun n => d.whereOn n h))

/-- The 16 bytes of an answer record (Table 11-9). -/
def answerBytes (a : Answer) : List Nat :=
  [a.die, a.mem, a.unit, a.state] ++ leBytes 4 a.first ++ leBytes 4 a.run ++ [a.frm, a.til, 0, 0]

/-! ### Moves of the sequencer's own (R252) -/

/-- Whether an intent is being staged: its trees are being built, on their own or in a build that software asked for. -/
def Dev.staging (d : Dev) : Bool :=
  d.plc.jobs.any (fun j => !j.software || d.plc.outq.any (fun o => o.code.isNone && (o.owner = j.owner || j.also.contains o.owner)))

/-- Whether the sequencer may make a move of its own: between intents, none of them outstanding but those that are to run again,
and one move at a time. -/
def Dev.moveFree (d : Dev) : Bool :=
  d.live && d.plc.outq.all (·.redo) && d.plc.wait.isNone && !d.staging && d.tak.commits.all (fun c => c.move.isNone)

/-- A fresh commit number. -/
def Dev.freshOwner (d : Dev) : Nat × Dev := (d.tak.nextOwner, { d with tak := { d.tak with nextOwner := d.tak.nextOwner + 1 } })

/-- A move of the sequencer's own is staged between intents and its commit requested. -/
def Dev.move (d : Dev) (m : SeqMove) : Dev :=
  if d.moveFree then
    let f := d.freshOwner
    match f.2.stageMove f.1 m with
    | some e => ({ e with tak := { e.tak with commits := e.tak.commits ++ [{ owner := f.1, move := some m }] } } : Dev).activate
    | none => d
  else d

/-- The moves withdrawn or put off are tried again (R252); one that cannot be made between intents now stays. -/
def Dev.moveAgain (d : Dev) : Dev :=
  d.plc.again.foldl (fun (d : Dev) m =>
    if d.moveFree then d.move m else { d with plc := { d.plc with again := d.plc.again ++ [m] } })
    { d with plc := { d.plc with again := [] } }

/-- The bytes of a die's copy slots in the running second: the total and those of the busiest slot. -/
def Dev.slotLoad (d : Dev) (n : Nat) : Nat × Nat :=
  let mine := d.plc.slotBytes.filter (fun e => e.1 = n)
  let slot := fun (k : Nat) => (mine.filter (fun e => e.2.1 = k)).foldl (fun a e => a + e.2.2.2) 0
  let all := (List.range 16).map (fun k => slot (33 + k))
  (all.foldl (· + ·) 0, all.foldl max 0)

/-- The bytes that a group carried in the busiest copy slots of a die. -/
def Dev.groupLoad (d : Dev) (n g : Nat) : Nat :=
  let mine := d.plc.slotBytes.filter (fun e => e.1 = n)
  let slot := fun (k : Nat) => (mine.filter (fun e => e.2.1 = k)).foldl (fun a e => a + e.2.2.2) 0
  ((mine.filter (fun e => e.2.2.1 = g && slot e.2.1 = (d.slotLoad n).2)).map (·.2.2.2)).foldl max 0

/-- Whether a die's busiest copy slot carried more than 1.5 times the mean and more than 50 Gb/s over the second measured, and
the multicast group h contributed most to it (R251). -/
def Dev.copyHot (d : Dev) (n h : Nat) : Bool :=
  let most := (d.slotLoad n).2
  3 * (d.slotLoad n).1 < 32 * most && 6250000000 < most &&
    (d.plc.slotBytes.filter (fun e => e.1 = n)).all (fun e => d.groupLoad n e.2.2.1 ≤ d.groupLoad n h)

/-- COPY_SLOT_MEASURE of a die: the group that contributed most to its busiest copy slot is planned anew, as soon as a move may
be made (R251, R252). -/
def Dev.copyMeasure (d : Dev) (n h : Nat) : Dev :=
  let d1 := { d with plc := { d.plc with slotBytes := d.plc.slotBytes.filter (fun e => e.1 ≠ n) } }
  if d.copyHot n h then
    (if d1.moveFree then d1.move (.plan n h)
     else if d1.plc.again.contains (.plan n h) then d1
     else { d1 with plc := { d1.plc with again := d1.plc.again ++ [.plan n h] } })
  else d1

/-- Whether an insertion of one entry somewhere in a group's order in a pipe would need more than 64 moves (R252). -/
def Dev.crowded (d : Dev) (n p g size : Nat) : Bool :=
  let items := d.camItems false n p g [] [] []
  (List.range (items.length + 1)).any (fun i =>
    match d.camPlan n p size (items.take i ++ [⟨0, 0, 1, none, {}⟩] ++ items.drop i) false with
    | some plan => 64 < (plan.filter (fun x => x.1.slot.isSome)).length
    | none => false)

/-- Whether one of the three causes of R252 stands for a move: a queued intent needs its room, an insertion into the group would
need more than 64 moves, or copy slots are to be planned anew. -/
def Dev.moveCause (d : Dev) (m : SeqMove) : Bool :=
  match m with
  | .cam n p l h =>
    if h ≠ 0 then d.queued ≠ 0
    else l.all (fun x => match d.camAt n p x.1 with | some e => d.crowded n p e.g e.size | none => false)
  | .static _ _ h => h ≠ 0 && d.queued ≠ 0
  | .plan n h => d.copyHot n h || d.plc.again.contains m

/-- SEQUENCER_MOVE. -/
def Dev.ownMove (d : Dev) (m : SeqMove) : Dev :=
  if d.moveCause m && d.moveFree then
    (({ d with plc := { d.plc with again := d.plc.again.filter (· ≠ m) } } : Dev)).move m
  else d

/-! ### The run of an intent (R247–R250) -/

/-- The descriptor that runs next: the first of those that run again, else the one after those outstanding. -/
def Dev.curIndex (d : Dev) : Nat :=
  match d.plc.outq.find? (·.redo) with
  | some o => o.idx
  | none => (d.cd .plHead_head + d.plc.outq.length) % d.ringSize

/-- Whether the sequencer may take the next intent: the ring runs and is not empty, and no intent is being staged, waits for
room or is to run again. -/
def Dev.mayRun (d : Dev) : Bool :=
  d.live && d.cd .plCtl_enable = 1 && d.plc.wait.isNone && !d.staging && d.plc.outq.all (fun o => !o.redo) &&
    d.plc.outq.length < d.queued

/-- An outstanding intent. -/
def Dev.outEntry (d : Dev) (i : Intent) (owner : Nat) (code : Option Nat) : IntentOut :=
  { idx := d.curIndex, handle := i.head.handle, op := i.head.op, irq := i.head.irq, batch := i.head.batch, owner := owner,
    code := code, take := d.curTake, intent := some i }

/-- An intent joins those outstanding, or takes its place among them when it ran again. -/
def Dev.putOut (d : Dev) (o : IntentOut) : Dev :=
  let l := d.plc.outq
  let l1 := if l.any (fun x => x.idx = o.idx) then l.map (fun x => if x.idx = o.idx then o else x) else l ++ [o]
  { d with plc := { d.plc with outq := l1 } }

/-- An intent ends with a failure. -/
def Dev.failIntent (d : Dev) (i : Intent) (b : Bad) : Dev :=
  d.putOut { d.outEntry i 0 (some b.1) with whereAt := b.2.1, atIndex := b.2.2 }

/-- The commit that an intent without BATCH joins: the last one requested, while a commit is in progress, when it is still
of intents only and holds fewer than 256 (R250). -/
def Dev.sharedCommit (d : Dev) : Option Nat :=
  if d.commitNow.isSome ∧ d.follows = false then
    match (d.tak.commits.filter (fun c => c.ahead = 0 && (c.timed.isNone || d.commitReady c))).getLast? with
    | some c =>
      if decide (c.step = .queued) ∧ c.batch = false ∧ c.move.isNone = true ∧
          (d.plc.outq.filter (fun o => o.owner = c.owner)).length < 256 then some c.owner else none
    | none => none
  else none

/-- A commit is requested. -/
def Dev.intentStaged (d : Dev) (k : Nat) : Dev :=
  let d1 := if d.tak.commits.any (fun c => c.owner = k) then d
    else { d with tak := { d.tak with commits := d.tak.commits ++ [{ owner := k }] } }
  d1.activate

/-- An intent staged under commit k ends its stay with the sequencer: with BATCH it is STAGED, without it awaits its commit. -/
def Dev.settle (d : Dev) (k : Nat) (batch : Bool) : Dev :=
  if batch then
    if d.cd .tkStatus_batchOpen = 0 then (d.giveUp k).endIntents k 0x14 d.curTake
    else d.endIntents k 2 d.curTake
  else
    match d.sharedCommit with
    | some b => d.reown k b
    | none => d.intentStaged k

/-! ### Tree staging (R121) -/

/-- The tree jobs of the device passed through a function. -/
def Dev.mapJobs (d : Dev) (f : TreeJob → TreeJob) : Dev := { d with plc := { d.plc with jobs := d.plc.jobs.map f } }

/-- The device without some of its tree jobs. -/
def Dev.dropJobs (d : Dev) (f : TreeJob → Bool) : Dev := { d with plc := { d.plc with jobs := d.plc.jobs.filter (fun j => !f j) } }

/-- Whether no tree is being staged any more for a commit. -/
def Dev.treesDone (d : Dev) (k : Nat) : Bool := d.plc.jobs.all (fun j => j.owner ≠ k && !j.also.contains k)

/-- The rule units on a job's die of the group it names. -/
def Dev.jobUnits (d : Dev) (j : TreeJob) : Nat :=
  (d.groupRules (d.ofBatch j.owner) j.handle).length * (d.treeOn j.die j.handle).getD 0

/-- A full build ends on a die: its event, and REBUILD reads 0. -/
def Dev.endFull (d : Dev) (j : TreeJob) (code pct : Nat) : Dev :=
  if j.full then (d.raise j.die 0x0407 [(8, code), (19, d.jobUnits j), (7, pct)]).setPd .clTreeCtl_rebuild j.die 0 else d

/-- The staging of a tree change begins on each die.  A change accepted while a full build runs that software asked for is
folded into it (R121): one without BATCH is committed with the new half, so that its commit becomes the build's; one with
BATCH stays with the batch. -/
def Dev.beginTrees (d : Dev) (i : Intent) (k : Nat) (ns : List Nat) : Dev :=
  let runs := fun (j : TreeJob) => j.software && j.full && ns.contains j.die
  let fresh := ns.filter (fun n => !d.plc.jobs.any (fun j => j.die = n))
  let own := fresh.map (fun n => ({ die := n, full := false, owner := k, handle := i.head.handle, software := false } : TreeJob))
  let d1 : Dev := { d with plc := { d.plc with jobs := d.plc.jobs ++ own } }
  if i.head.batch then d1.mapJobs (fun j => if runs j then { j with also := j.also ++ [k] } else j)
  else
    match (d.plc.jobs.filter runs).map (·.owner) with
    | [] => d1
    | b :: more =>
      let gone := k :: more.filter (· ≠ b)
      let d2 := gone.foldl (fun (d : Dev) x => d.reown x b) d1
      d2.mapJobs (fun j => if gone.contains j.owner then { j with owner := b } else j)

/-- An intent that passed its first checks is staged, waits for room, fails, or waits for a move that makes its room. -/
def Dev.place (d : Dev) (i : Intent) : Dev :=
  let f := d.freshOwner
  match f.2.stage i f.1 with
  | .bad b => d.failIntent i b
  | .wait _ => { d with plc := { d.plc with wait := some i } }
  | .first _ m n path => if d.moveFree then (d.carryOut n path).move m else d
  | .ok e trees =>
    let e1 := (e.putOut (e.outEntry i f.1 none)).beginTrees i f.1 trees
    if e1.staging then e1 else e1.settle f.1 i.head.batch

/-- WHERE: the answer is written, as much of it as the buffer holds (R253). -/
def Dev.answer (d : Dev) (i : Intent) (room addr : Nat) : Dev :=
  let all := d.whereAll i.head.handle
  let some_ := all.take room
  let d1 := d.putOut { d.outEntry i 0 (some 1) with atIndex := all.length, answer := some some_.length }
  { d1 with out := d1.out ++ (if some_ = [] then [] else [.hostWrite (addr % 2 ^ 64) (toBytes (some_.flatMap answerBytes))]) }

/-- The intent at the current descriptor is run: the failure of a move made for it, the checks, then its staging. -/
def Dev.runOne (d : Dev) (i : Intent) : Dev :=
  if d.plc.lost then ({ d with plc := { d.plc with lost := false } } : Dev).failIntent i (0x1C, 0xF, noRec)
  else
    match d.checkIntent i with
    | some b => d.failIntent i b
    | none =>
      match i.body with
      | .ask room addr => d.answer i room addr
      | _ => d.place i

/-- The next intent of the ring is run. -/
def Dev.runIntent (d : Dev) (i : Intent) : Dev := if d.mayRun then (d.runOne i).flushResults else d

/-- The intents that are to run again do, in ring order, until one waits or is being staged. -/
def Dev.rerun : Nat → Dev → Dev
  | 0, d => d
  | n + 1, d =>
    match (d.plc.outq.find? (·.redo)).bind (·.intent) with
    | some i => if d.plc.wait.isNone && !d.staging then (d.runOne i).rerun n else d
    | none => d

/-- What waits behind an intent goes on: the intents that are to run again, then the results that can be written. -/
def Dev.goOn (d : Dev) : Dev := (d.rerun d.plc.outq.length).flushResults

/-- A commit of intents, or a move, was given up: the intents after it run as if it had not been (R248).  Their versions,
commits and tree jobs are given up, and each runs again in ring order; a build that software asked for goes on. -/
def Dev.redoAfter (d : Dev) (code : Nat) : Dev :=
  let rest := d.plc.outq.filter (fun o => !(o.code = some code && o.owner ≠ 0))
  let owners := ((rest.map (·.owner)).filter (· ≠ 0)).eraseDups
  let gone := d.plc.jobs.filter (fun j => !j.software && owners.contains j.owner)
  let d1 := gone.foldl (fun (d : Dev) j => d.endFull j 0x1C (d.pd .clInspectUse_nodePct j.die)) d
  let d2 := (d1.dropJobs (fun j => gone.contains j)).mapJobs (fun j => { j with also := j.also.filter (fun k => !owners.contains k) })
  let d3 := owners.foldl (fun (d : Dev) k => d.giveUp k) d2
  let ids := rest.map (·.idx)
  let waiting := match d.plc.wait with
    | some i => if d.plc.outq.any (·.redo) then [] else [{ d.outEntry i 0 none with redo := true }]
    | none => []
  { d3 with
    tak := { d3.tak with commits := d3.tak.commits.filter (fun c => c.batch || c.move.isSome || !owners.contains c.owner) }
    plc := { d3.plc with
      wait := none
      outq := d3.plc.outq.map (fun (o : IntentOut) =>
        if ids.contains o.idx then
          { o with redo := true, code := none, owner := 0, whereAt := 0xF, atIndex := 0xFFFFFFFF, answer := none } else o) ++ waiting } }

/-- The intent that waits for room is tried again after a reclaim (R249). -/
def Dev.retryWait (d : Dev) : Dev :=
  match d.plc.wait with
  | some i => ({ d with plc := { d.plc with wait := none } } : Dev).place i
  | none => d

/-- A full build begins on a die. -/
def Dev.beginFull (d : Dev) (j : TreeJob) : Dev :=
  (d.mapJobs (fun x => if x.die = j.die ∧ x.owner = j.owner then { x with full := true } else x)).raise j.die 0x0406
    [(32, j.handle), (19, d.jobUnits j)]

/-- CL_TREE_CTL.REBUILD: a full build of the die's trees into its other half. -/
def Dev.rebuild (d : Dev) (n : Nat) : Dev :=
  let h := (((d.objects false).find? (fun o => o.data.kind = 2 && (portsOf o.data).any (fun p => dieOf p = n))).map (·.h)).getD 0
  match d.plc.jobs.find? (fun j => j.die = n) with
  | some j => if j.full then d else (d.setPd .clTreeCtl_rebuild n 1).beginFull j
  | none =>
    let f := d.freshOwner
    let j : TreeJob := { die := n, full := false, owner := f.1, handle := h, software := true }
    (({ f.2 with plc := { f.2.plc with jobs := f.2.plc.jobs ++ [j] } } : Dev).setPd .clTreeCtl_rebuild n 1).beginFull j

/-- A commit whose trees are all staged goes on: intents settle, and a build alone has its commit requested. -/
def Dev.settleTrees (d : Dev) (k : Nat) : Dev :=
  if !d.treesDone k then d
  else if d.plc.outq.any (fun o => o.owner = k) then d.settle k (d.plc.outq.any (fun o => o.owner = k && o.batch))
  else if d.plc.built.any (fun b => b.1 = k) then d.intentStaged k
  else d

/-- The trees of a die do not fit one half: the change fails, with every build that it began, and those folded into it.  A
build that software asked for on another die goes on. -/
def Dev.treeNoFit (d : Dev) (j : TreeJob) (pct : Nat) : Dev :=
  let fails := j.owner :: j.also
  let gone := fun (x : TreeJob) => x.die = j.die || (!x.software && fails.contains x.owner)
  let d1 := (d.plc.jobs.filter gone).foldl (fun (d : Dev) x =>
    d.endFull x 0x1B (if x.die = j.die then pct else d.pd .clInspectUse_nodePct x.die)) d
  let kept := if j.software then d.plc.built.filter (fun b => b.1 = j.owner) else []
  let d2 := fails.foldl (fun (d : Dev) k => d.giveUp k) (d1.dropJobs gone)
  let d3 := d2.mapJobs (fun x => { x with also := x.also.filter (fun k => !fails.contains k) })
  let d4 : Dev := { d3 with plc := { d3.plc with
    built := d3.plc.built ++ kept
    outq := d3.plc.outq.map (fun (o : IntentOut) =>
      if fails.contains o.owner = true ∧ o.code = none then { o with code := some 0x1B, whereAt := whereAt j.die 2 0 } else o) } }
  if d4.treesDone j.owner && kept ≠ [] then d4.intentStaged j.owner else d4

/-- TREE_STAGE_COMPLETE on a die, with the use of the half in percent. -/
def Dev.treeStaged (d : Dev) (n : Nat) (how : TreeEnd) (pct : Nat) : Dev :=
  match d.plc.jobs.find? (fun j => j.die = n) with
  | none => d
  | some j =>
    match how with
    | .lacksNodes => if j.full then d else d.beginFull j
    | .noFit => (d.treeNoFit j pct).goOn
    | .staged =>
      if j.full ∧ d.otherUsed false n = true then d
      else
        let d1 := d.dropJobs (fun x => x.die = n)
        let d2 := if j.full then
            ({ d1 with plc := { d1.plc with built := d1.plc.built ++ [(j.owner, n, pct)] } } : Dev).endFull j 1 pct
          else d1.setPd .clInspectUse_nodePct n (pct % 128)
        ((j.also ++ [j.owner]).foldl (fun (d : Dev) k => d.settleTrees k) d2).goOn

/-! ### The intent ring (R246) -/

/-- PL_TAIL is written; a write that would move it backward past descriptors not done is ignored. -/
def Dev.writeTail (d : Dev) (v : Nat) : Dev :=
  let new := v % d.ringSize
  if (new + d.ringSize - d.cd .plHead_head % d.ringSize) % d.ringSize < d.queued then
    (d.setCd .plStatus_tailErrSticky 1).raise 6 0x0905 [(12, d.cd .plHead_head), (12, v)]
  else d.setCd .plTail_tail new

/-- PL_STATUS.BUSY: an intent is in progress. -/
def Dev.plBusy (d : Dev) : Bool := d.plc.outq ≠ [] || d.plc.wait.isSome

/-- PL_CTL is written: RING_LOG2 changes only while ENABLE reads 0 and BUSY reads 0 (R246, R419). -/
def Dev.writePlCtl (d : Dev) (enable : Bool) (log2 : Nat) : Dev :=
  let d1 := if d.cd .plCtl_enable = 0 ∧ d.plBusy = false then d.setCd .plCtl_ringLog2 (Fld.store .plCtl_ringLog2 log2) else d
  d1.setCd .plCtl_enable (if enable then 1 else 0)

/-! ### Retirement and reclaim (R131) -/

/-- A take retires when it is not current and no die has a frame of it in flight. -/
def Dev.retire (d : Dev) (t : Nat) : Dev :=
  if d.tak.live.dropLast.contains t ∧ d.dies.all (fun n => d.inflight n t = 0) = true then
    let us := (d.ticks 4 - (aget d.tak.since t).getD 0) * 2 / 1000
    let d1 := { d with tak := { d.tak with
      live := d.tak.live.filter (· ≠ t), reclaim := d.tak.reclaim ++ [t], since := adel d.tak.since t } }
    (d1.raise 6 0x0402 [(4, t), (32, us)]).moveAgain
  else d

/-- A static version whose FROM has become ALWAYS removes the learned entry of its key (R184). -/
def Dev.clearHidden (d : Dev) : Dev :=
  { d with fw := d.fw.map (fun (x : Fw) =>
      { x with table := x.table.filter (fun e => e.2.static ||
          !x.table.any (fun y => y.2.static && !y.2.v.pending && y.2.v.from_.isNone && y.2.key = e.2.key)) }) }

/-- Reclaim frees every version no live take can see, and its room; a waiting intent is tried again (R131, R249). -/
def Dev.reclaimDone (d : Dev) (t : Nat) : Dev :=
  if d.tak.reclaim.contains t then
    let d1 := { d with tak := { d.tak with reclaim := d.tak.reclaim.filter (· ≠ t) } }
    let d2 := (d1.mapVers (Ver.reclaim d1.oldest)).clearHidden.sweepRoom
    let d3 := { d2 with plc := { d2.plc with halves := d2.plc.halves.map (fun (h : HalfVer) =>
      { h with from_ := h.from_.filter (fun f => takeNewer f d1.oldest) }) } }
    let d4 := (List.range 4).foldl (fun d n => d.fillTest n) d3
    d4.retryWait.goOn
  else d

/-! ### The commands -/

/-- TAKE_RETIRE. -/
def execTakeRetire (t : Fin 16) (s : State) : Host.Outcome State Fault Refusal := onDev (fun d => d.retire t) s

/-- RECLAIM_COMPLETE. -/
def execReclaimComplete (t : Fin 16) (s : State) : Host.Outcome State Fault Refusal := onDev (fun d => d.reclaimDone t) s

/-- CL_TREE_REBUILD. -/
def execClTreeRebuild (n : Die) (s : State) : Host.Outcome State Fault Refusal :=
  onReg (n.val + 1) .clTreeCtl 0 0 1 (fun d => d.rebuild n) s

/-- TREE_STAGE_COMPLETE. -/
def execTreeStageComplete (n : Die) (how : TreeEnd) (pct : Fin 101) (s : State) : Host.Outcome State Fault Refusal :=
  onDev (fun d => d.treeStaged n how pct) s

/-- PL_TAIL_WRITE. -/
def execPlTailWrite (tail : BitVec 12) (s : State) : Host.Outcome State Fault Refusal :=
  onWord 0 .plTail 0 0 tail.toNat (fun d => d.writeTail tail.toNat) s

/-- PL_CTL_WRITE. -/
def execPlCtlWrite (enable : Bool) (log2 : Fin 16) (s : State) : Host.Outcome State Fault Refusal :=
  onWord 0 .plCtl 0 0 (b2n enable + 2 ^ 8 * log2.val) (fun d => d.writePlCtl enable log2) s

/-- COMMIT_CONFIRM. -/
def execCommitConfirm (s : State) : Host.Outcome State Fault Refusal := onDev (fun d => d.confirm.goOn) s

/-- COMMIT_TIMEOUT: the wait of step 2 has lasted TK_CTL.TIMEOUT; on a unit that follows its peer, the wait of its first
software commit (R308).  What was staged on a commit of intents or a move that is given up runs again (R248). -/
def execCommitTimeout (s : State) : Host.Outcome State Fault Refusal :=
  onDev (fun d =>
    let fail := fun (c : Commit) =>
      if c.batch then d.failCommit c else ((d.failCommit c).redoAfter 0x1C).goOn
    match d.commitNow with
    | some c => if c.step = .active ∧ d.canSeal c = false then fail c else d
    | none =>
      if d.follows then
        (match d.tak.commits.find? (fun c => c.move.isNone && c.ahead = 0) with | some c => fail c | none => d)
      else d) s

/-- The intent that a descriptor and its payload spell (Table 11-2); the rules of a group take the width of the group that
HANDLE names. -/
def Dev.intentOf (d : Dev) (desc : List Byte) (payload : Option (List Byte)) : Intent :=
  let w := match d.latestObj (bitAt (numAt desc 6 1) 0 = 1) (numAt desc 0 4) with
    | some o => (match o.data with | .rules _ w _ _ => w | _ => 160)
    | none => 160
  readIntent w desc payload

/-- The payload of an intent, when it can be read. -/
def payloadOf (readable : Bool) (bytes : List Byte) : Option (List Byte) := if readable then some bytes else none

/-- The next descriptor of the ring is read and run when its OP is the command's, or none that Table 11-2 names. -/
def Dev.runDesc (d : Dev) (op : Nat) (desc : List Byte) (payload : Option (List Byte)) : Dev :=
  let o := numAt desc 4 1
  if desc.length = 64 ∧ (o = op ∨ o = 0 ∨ 8 < o) then d.runIntent (d.intentOf desc payload) else d

/-- INTENT_CREATE. -/
def execIntentCreate (ask result : List Byte) (readable : Bool) (payload : List Byte) (s : State) :
    Host.Outcome State Fault Refusal :=
  onDev (fun d => d.runDesc 1 (ask ++ result) (payloadOf readable payload)) s

/-- INTENT_MODIFY. -/
def execIntentModify (desc : List Byte) (payload : Option (List Byte)) (s : State) : Host.Outcome State Fault Refusal :=
  onDev (fun d => d.runDesc 2 desc payload) s

/-- INTENT_DELETE. -/
def execIntentDelete (desc : List Byte) (payload : Option (List Byte)) (s : State) : Host.Outcome State Fault Refusal :=
  onDev (fun d => d.runDesc 3 desc payload) s

/-- INTENT_ADD. -/
def execIntentAdd (ask result : List Byte) (readable : Bool) (payload : List Byte) (s : State) :
    Host.Outcome State Fault Refusal :=
  onDev (fun d => d.runDesc 4 (ask ++ result) (payloadOf readable payload)) s

/-- INTENT_CHANGE. -/
def execIntentChange (ask result : List Byte) (readable : Bool) (payload : List Byte) (s : State) :
    Host.Outcome State Fault Refusal :=
  onDev (fun d => d.runDesc 5 (ask ++ result) (payloadOf readable payload)) s

/-- INTENT_REMOVE. -/
def execIntentRemove (desc : List Byte) (readable : Bool) (payload : List Byte) (s : State) : Host.Outcome State Fault Refusal :=
  onDev (fun d => d.runDesc 6 desc (payloadOf readable payload)) s

/-- INTENT_BIND. -/
def execIntentBind (desc : List Byte) (payload : Option (List Byte)) (s : State) : Host.Outcome State Fault Refusal :=
  onDev (fun d => d.runDesc 7 desc payload) s

/-- INTENT_WHERE. -/
def execIntentWhere (desc : List Byte) (readable : Bool) (payload : List Byte) (s : State) : Host.Outcome State Fault Refusal :=
  onDev (fun d => d.runDesc 8 desc (payloadOf readable payload)) s

/-- INTENT_ROOM_TIMEOUT: an intent has waited for reclaim for TK_CTL.TIMEOUT (R249). -/
def execIntentRoomTimeout (s : State) : Host.Outcome State Fault Refusal :=
  onDev (fun d =>
    match d.plc.wait with
    | some i => (({ d with plc := { d.plc with wait := none } } : Dev).failIntent i (0x1C, 0xF, noRec)).goOn
    | none => d) s

/-- SEQUENCER_MOVE. -/
def execSequencerMove (m : SeqMove) (s : State) : Host.Outcome State Fault Refusal := onDev (fun d => d.ownMove m) s

/-- COPY_SLOT_MEASURE. -/
def execCopySlotMeasure (n : Die) (h : Nat) (s : State) : Host.Outcome State Fault Refusal := onDev (fun d => d.copyMeasure n h) s

/-- INTENT_RECLAIM_WAIT_1MS: an intent has waited for reclaim for 1 ms. -/
def execIntentReclaimWait1ms (s : State) : Host.Outcome State Fault Refusal :=
  onDev (fun d =>
    match d.plc.wait with
    | some i => d.raise 6 0x0902 [(32, i.head.handle), (4, d.oldest)]
    | none => d) s

end Sys2Proof.Machine
end

