-- ==== Sys2Proof/Machine/Time.lean ====
section
/-! DEFINITION. Device time (R256–R263), clock sources (R260), PPS (R274, R275) and the arming of timed actions
(R271–R273). -/

namespace Sys2Proof.Machine

/-! ### Ticks (R258) -/

/-- The device with a time island replaced. -/
def Dev.setIsl (d : Dev) (n : Nat) (x : Island) : Dev := { d with tm := { d.tm with isl := d.tm.isl.set (islOf n) x } }

/-- A time island. -/
def Dev.isl (d : Dev) (n : Nat) : Island := d.tm.isl.get (islOf n)

/-- The time of an island moved by a signed amount. -/
def Island.move (x : Island) (delta : Int) : Island := { x with t := ofSigned 96 ((x.t : Int) + delta) }

/-- One tick of an island: TM_INC, and a share of a slew in progress. -/
def Island.tick (x : Island) : Island :=
  let y := { x.move ((x.inc : Int) + (if x.slewTicks = 0 then 0 else x.slew)) with ticks := x.ticks + 1 }
  { y with slewTicks := x.slewTicks - 1 }

/-- The credit of a credit-based shaper after a tick, in 1/500 bit (R224): IDLE_SLOPE and the port rate in Mb/s each add one
such unit for each Mb/s. -/
def Dev.creditTick (d : Dev) (n s c : Nat) (v : Int) : Int :=
  let q := if s < 32 then 32 * n + s else 96 + s
  let rate := d.portRate q
  let idle : Int := (min (d.cfg .egCbs_idleSlope (n + 1) s c) rate : Nat)
  let sends : Bool := match d.sending q with | some x => decide (x.tc = c) | none => false
  let closed := (d.gating q && bitAt (d.pd .egGateStatus_gates n s) c = 0) || (d.tx q).held.contains c
  let waits := (d.egressHead q c).isSome
  if sends then v + idle - (rate : Int)
  else if closed then v
  else if waits then v + idle
  else if 0 < v then 0
  else if v + idle < 0 then v + idle else 0

/-- Every bucket of an island's die after a tick (Table 12-1). -/
def Dev.tickBuckets (d : Dev) (n : Nat) : Dev :=
  { d with bkts := d.bkts.map (fun b =>
      if bktOf b.1 = n then
        (b.1, match b.1 with
              | .cbs m s c => d.creditTick m s c b.2
              | k => fillLevel (d.bucketCap k) (d.bucketRate k) b.2)
      else b) }

/-- The cycles of a die's pipe 0 island in one tick of 2 ns, by its island rate (R34, R375); at 1.25 GHz every other tick
holds three. -/
def Dev.pipeCycles (d : Dev) (n : Nat) : Nat :=
  match d.boot.sb.rates[n]? with
  | some 1000 => 2
  | some 1250 => 2 + d.ticks n % 2
  | _ => 3

/-- The cycles of a die's scheduler island in one tick: at 1.25 GHz every other tick holds three. -/
def Dev.schedCycles (d : Dev) (n : Nat) : Nat := 2 + d.ticks n % 2

/-- The engines of a pipe with no program (R139). -/
def Dev.idleEngines (d : Dev) (n p : Nat) : Nat := ((List.range 16).filter (fun e => (d.engine? n p e).isNone)).length

/-- The queues of a die that hold copies and whose head is not eligible, as port and class (R221). -/
def Dev.blockedQueues (d : Dev) (n : Nat) : List (Nat × Nat) :=
  ((List.range 133).filter (fun q => dieOf q = n)).flatMap (fun q =>
    ((List.range 8).filter (fun c => (d.egressHead q c).isSome && !d.eligible q c)).map (fun c => (q, c)))

/-- The performance events of a die that count cycles take those of one tick (Table 18-3).  DESIGN CHOICE (log 111): egress cycles
are those of the pipe islands. -/
def Dev.tickPmc (d : Dev) (n : Nat) : Dev :=
  let k := d.pipeCycles n
  let d1 := (List.range 4).foldl (fun (x : Dev) p => x.pmc n 0x09 (some p) none none (d.idleEngines n p * k)) d
  let d2 := if 4096 ≤ (d.fwOf n).queue.length then d1.pmc n 0x0D none none none k else d1
  let d3 := if d.replicatorStalls n then d2.pmc n 0x17 none none none (d.schedCycles n) else d2
  (d.blockedQueues n).foldl (fun (x : Dev) e => x.pmc n 0x19 none (some e.2) (some (idxOf e.1)) k) d3

/-- TIME_TICK of an island. -/
def Dev.tick (d : Dev) (n : Nat) : Dev :=
  let d1 := (d.tickBuckets n).setIsl n (d.isl n).tick
  if n < 4 then
    let d2 := d1.bump .obCycles (n + 1) 0 0 (d.pipeCycles n)
    if d.pd .obPmcCtl_globalEn n = 1 then d2.tickPmc n else d2
  else d1

/-! ### Writes of TM_INC, TM_SET and TM_ADJ (R258, R263, R276) -/

/-- A steering write on the standby unit is ignored; `what` is its selector or register offset (R276). -/
def Dev.steer (d : Dev) (what : Nat) (f : Dev → Dev) : Dev :=
  if d.cd .duStatus_role = 2 then (d.setCd .tmStatus_steerIgnoredSticky 1).raise 6 0x0A08 [(32, what)] else f d

/-- TM_INC. -/
def Dev.writeInc (d : Dev) (v : Nat) : Dev :=
  d.steer 0x0A03 (fun d =>
    let x := clamp 0x0100000000 0x0300000000 v
    ({ d with tm := { d.tm with incPend := some (x, d.ticks 4) } }.setWide .tmInc 0 0 0 x).setCd .tmStatus_incPending 1)

/-- A step becomes pending in place of any other. -/
def Dev.pendStep (d : Dev) (delta : Int) (snap : Bool) : Dev :=
  { d with tm := { d.tm with step := some ⟨delta, d.ticks 4, snap⟩ } }.setCd .tmStatus_stepPending 1

/-- TM_SET: the instant of the write becomes V. -/
def Dev.writeSet (d : Dev) (v : Nat) : Dev :=
  d.steer 0x0A01 (fun d =>
    (d.setWide .tmSet 0 0 0 v).pendStep (instDiff (v % 2 ^ 64 * nsUnit) (d.instant 4)) false)

/-- TM_ADJ: a signed difference in ns. -/
def Dev.writeAdj (d : Dev) (v : Nat) : Dev :=
  d.steer 0x0A02 (fun d => (d.setWide .tmAdj 0 0 0 v).pendStep (toSigned 64 v * nsUnit) false)

/-- Whether a register of the time master is in its safe state, which holds pending steps and TM_INC writes (Table
16-10). -/
def Dev.tmHeld (d : Dev) : Bool :=
  d.inSafe .tmCtl 0 || d.inSafe .tmTaCtl 0 || d.inSafe .tmTaArg 0 || d.inSafe .tmTaMask 0 || d.inSafe .tmTaValue 0

/-! ### Clapper misses and clock sources -/

/-- ALIGNED of a die, as its own register and the CD's show it (R262). -/
def Dev.setAligned (d : Dev) (n : Nat) (on : Bool) : Dev :=
  let d1 := d.setPd .tmDieStatus_aligned n (if on then 1 else 0)
  if on then d1.setBit .tmStatus_aligned 0 0 0 n else d1.clrBit .tmStatus_aligned 0 0 0 n

/-- CLAPPER_MISSED of a die (R261). -/
def Dev.clapMissed (d : Dev) (n : Nat) : Dev :=
  let m := min 255 (d.pd .tmDieStatus_missed n + 1)
  let d1 := d.setPd .tmDieStatus_missed n m
  if d.pd .tmDieStatus_missed n = 1 then (d1.setAligned n false).raise n 0x0A03 [(2, n)] else d1

/-- TIMECLK_LOSS (R260). -/
def Dev.clkLost (d : Dev) : Dev :=
  if d.cd .tmStatus_timeclkLost = 1 then d
  else
    ((({ d with tm := { d.tm with clkLostAt := d.ticks 4 } }.setCd .tmStatus_timeclkLost 1).setCd
      .tmStatus_timeclkLostSticky 1).raise 6 0x0A06 []).irq 10

/-- TIMECLK_RETURN (R260). -/
def Dev.clkBack (d : Dev) : Dev :=
  if d.cd .tmStatus_timeclkLost = 0 then d
  else ((d.setCd .tmStatus_timeclkLost 0).raise 6 0x0A07 [(32, (d.ticks 4 - d.tm.clkLostAt) * 2 / 1000)]).irq 10

/-! ### PPS (R274, R275) -/

/-- PPS_OUT driven. -/
def Dev.ppsOut (d : Dev) (v : Bool) : Dev := { d with tm := { d.tm with ppsOut := v } }

/-- At a whole second of device time a change of mode applies, and mode 1 raises PPS_OUT (R274). -/
def Dev.ppsSecond (d : Dev) : Dev :=
  let m := d.cfg .tmCtl_ppsOutMode 0
  let d1 := { d with tm := { d.tm with ppsMode := m, ppsRose := if m = 1 then some (d.ticks 4) else none } }
  if m = 1 then d1.ppsOut true else if m = 0 then d1.ppsOut false else d1

/-- Whether the CD's time has just passed a whole second. -/
def Dev.onSecond (d : Dev) : Bool := d.instant 4 % (1000000000 * nsUnit) < (d.isl 4).inc

/-- Whether PPS_WIDTH µs have passed since PPS_OUT rose, counted in the CD's ticks of 2 ns (DESIGN CHOICE, log 94). -/
def Dev.ppsEnds (d : Dev) : Bool :=
  match d.tm.ppsRose with
  | some t => d.cfg .tmCtl_ppsWidth 0 * 500 ≤ d.ticks 4 - t
  | none => false

/-- In mode 1 PPS_OUT falls after PPS_WIDTH (R274). -/
def Dev.ppsFall (d : Dev) : Dev :=
  if d.tm.ppsMode = 1 ∧ d.ppsEnds then ({ d with tm := { d.tm with ppsRose := none } } : Dev).ppsOut false else d

/-- The whole second nearest to an instant, less the instant, in units of 2⁻³² ns. -/
def snapDelta (t : Nat) : Int :=
  let sec := 1000000000 * nsUnit
  (((t + sec / 2) / sec * sec : Nat) : Int) - t

/-- PPS_IN_EDGE (R275): the stamp keeps 1/16 ns (R264). -/
def Dev.ppsEdge (d : Dev) : Dev :=
  if d.cd .tmCtl_ppsInEn = 0 then d
  else if (match d.tm.lastEdge with | some t => (d.ticks 4 - t) * 2 < 500000000 | none => false) = true then
    d.bump .tmPpsInIgnored 0 0 0 1
  else
    let stamp := d.instant 4 / 2 ^ 28 * 2 ^ 28
    let d1 := ((({ d with tm := { d.tm with lastEdge := some (d.ticks 4) } }.setWide .tmPpsInStamp 0 0 0 stamp).bump
      .tmPpsInCount 0 0 0 1)).irq 10
    if d.cd .tmCtl_snap = 1 ∧ (match d.tm.step with | some x => x.snap | none => false) = false then
      d1.pendStep (snapDelta stamp) true
    else d1

/-- The fields that every write of TM_CTL carries. -/
def Dev.tmCtlFields (d : Dev) (mode : Nat) (inEn : Bool) (width : Nat) : Dev :=
  ((d.setCd .tmCtl_ppsOutMode (Fld.store .tmCtl_ppsOutMode mode)).setCd .tmCtl_ppsInEn (if inEn then 1 else 0)).setCd
    .tmCtl_ppsWidth (Fld.store .tmCtl_ppsWidth width)

/-- TM_SNAP. -/
def Dev.snap (d : Dev) : Dev := d.steer (regOffset .tmCtl 0 0 0) (fun d => d.setCd .tmCtl_snap 1)

/-! ### Timed actions (R271–R273) -/

/-- The code of the last ARM or CANCEL. -/
def Dev.taCode (d : Dev) (code : Nat) : Dev := d.setCd .tmTaStatus_code code

/-- BAD_ARG: a port that does not exist or is unpowered, an address against Table 2-5 or in the block 0x14_0000 of
window 0. -/
def Dev.badArg (d : Dev) (kind arg : Nat) : Bool :=
  if kind = 3 ∨ kind = 4 then 131 < arg || d.badPort arg
  else if kind = 5 then 2 ^ 26 ≤ arg || (bits arg 25 22 = 0 && bits arg 21 18 = 5)
  else false

/-- TA_ARM: the action described by TM_TA_TIME, TM_TA_ARG, TM_TA_MASK, TM_TA_VALUE and KIND takes the lowest free entry. -/
def Dev.taArm (d : Dev) (kind : Nat) : Dev :=
  let arg := d.cd .tmTaArg_arg
  if kind ≤ 2 ∨ 7 < kind then d.taCode 3
  else if d.badArg kind arg then d.taCode 4
  else
    match d.freeTimer with
    | none => d.taCode 2
    | some i =>
      let t := d.wide .tmTaTime 0
      ((d.bookTimer i { kind := kind, t := t, arg := arg, mask := d.cd .tmTaMask_mask, value := d.cd .tmTaValue_value,
                        late := 0 < diff64 (d.now 4) t }).taCode 1).setCd .tmTaStatus_index i

/-- TA_CANCEL of an entry. -/
def Dev.taCancel (d : Dev) (i : Nat) : Dev :=
  let d1 := d.setCd .tmTaStatus_index i
  match aget d.tm.ta i with
  | some e =>
    if e.kind ≤ 2 then d1.taCode 7
    else if e.dispatched then d1.taCode 6
    else (d1.dropTimer i).taCode 5
  | none => d1.taCode 7

/-! ### The commands -/

/-- Whether an island runs: the device is out of reset and the die is powered. -/
def Dev.ticking (d : Dev) (n : Nat) : Bool := d.boot.run && (4 ≤ n || d.railOn n)

/-- TIME_TICK. -/
def execTimeTick (n : Isl) (s : State) : Host.Outcome State Fault Refusal :=
  onDev (fun d => if d.ticking n then d.tick n else d) s

/-- CLAPPER_MISSED. -/
def execClapperMissed (n : Die) (s : State) : Host.Outcome State Fault Refusal := onDev (fun d => d.clapMissed n) s

/-- TM_INC_WRITE. -/
def execTmIncWrite (v : BitVec 40) (s : State) : Host.Outcome State Fault Refusal := onHost (fun d => d.writeInc v.toNat) s

/-- TM_SET_WRITE. -/
def execTmSetWrite (v : BitVec 64) (s : State) : Host.Outcome State Fault Refusal := onHost (fun d => d.writeSet v.toNat) s

/-- TM_ADJ_WRITE. -/
def execTmAdjWrite (v : BitVec 64) (s : State) : Host.Outcome State Fault Refusal := onHost (fun d => d.writeAdj v.toNat) s

/-- TIMECLK_LOSS. -/
def execTimeclkLoss (s : State) : Host.Outcome State Fault Refusal := onDev (fun d => d.clkLost) s

/-- TIMECLK_RETURN. -/
def execTimeclkReturn (s : State) : Host.Outcome State Fault Refusal := onDev (fun d => d.clkBack) s

/-- TA_ARM: a write of TM_TA_CTL with ARM set. -/
def execTaArm (index : BitVec 8) (kind : Fin 16) (s : State) : Host.Outcome State Fault Refusal :=
  onWord 0 .tmTaCtl 0 0 (index.toNat + 2 ^ 8 * kind.val + 2 ^ 12)
    (fun d => ((d.setCd .tmTaCtl_index index.toNat).setCd .tmTaCtl_kind kind).taArm kind) s

/-- TA_CANCEL: a write of TM_TA_CTL with CANCEL set. -/
def execTaCancel (index : BitVec 8) (kind : Fin 16) (s : State) : Host.Outcome State Fault Refusal :=
  onWord 0 .tmTaCtl 0 0 (index.toNat + 2 ^ 8 * kind.val + 2 ^ 13)
    (fun d => ((d.setCd .tmTaCtl_index index.toNat).setCd .tmTaCtl_kind kind).taCancel index.toNat) s

/-- The island whose time an action waits for: that of the die it acts on, or the CD's (R272). -/
def TaEntry.isl (e : TaEntry) : Nat :=
  if e.kind = 3 ∨ e.kind = 4 then (if e.arg < 128 then e.arg / 32 else 4)
  else if e.kind = 5 ∧ 1 ≤ bits e.arg 25 22 ∧ bits e.arg 25 22 ≤ 4 then bits e.arg 25 22 - 1
  else 4

/-- TA_DISPATCH: from 50 µs before T, an action reaches the die whose register it acts on; it is late when that die's time has
passed T (R272). -/
def execTaDispatch (i : BitVec 8) (s : State) : Host.Outcome State Fault Refusal :=
  onDev (fun d =>
    match aget d.tm.ta i.toNat with
    | some e =>
      if 3 ≤ e.kind ∧ e.kind ≤ 5 ∧ e.dispatched = false ∧ diff64 e.t (d.now 4) ≤ 50000 then
        d.bookTimer i.toNat { e with dispatched := true, late := e.late || decide (0 < diff64 (d.now e.isl) e.t) }
      else d
    | none => d) s

/-- PPS_OUT_SECOND: the CD's time passes a whole second. -/
def execPpsOutSecond (s : State) : Host.Outcome State Fault Refusal :=
  onDev (fun d => if d.boot.run && d.onSecond then d.ppsSecond else d) s

/-- PPS_WIDTH_END. -/
def execPpsWidthEnd (s : State) : Host.Outcome State Fault Refusal := onDev (fun d => d.ppsFall) s

/-- PPS_IN_EDGE. -/
def execPpsInEdge (s : State) : Host.Outcome State Fault Refusal := onDev (fun d => d.ppsEdge) s

/-- TM_SNAP: a write of TM_CTL with SNAP set. -/
def execTmSnap (mode : Fin 4) (inEn : Bool) (width : BitVec 20) (s : State) : Host.Outcome State Fault Refusal :=
  onWord 0 .tmCtl 0 0 (mode.val + 2 ^ 2 * b2n inEn + 2 ^ 3 + 2 ^ 4 * width.toNat)
    (fun d => (d.tmCtlFields mode inEn width.toNat).snap) s

end Sys2Proof.Machine
end

