-- ==== Sys2Proof/Machine/Duo.lean ====
section
/-! DEFINITION. Duo operation (R294–R311): roles, the interlock, watchdogs, the continuity link, time following and the takes
of a standby. -/

namespace Sys2Proof.Machine

/-! ### Conditions (R299, R303, R305) -/

/-- The device with the duo island's state replaced. -/
def Dev.setDuo (d : Dev) (x : Duo) : Dev := { d with duo := x }

/-- ROLE. -/
def Dev.role (d : Dev) : Nat := d.cd .duStatus_role

/-- Whether the duo-enable strap is set, so that the rules of a duo apply (R294). -/
def Dev.isDuo (d : Dev) : Bool := d.role ≠ 0 && d.cd .duStatus_duo = 1

/-- Whether the peer's claim is present. -/
def Duo.peerClaim (x : Duo) : Bool := x.peerEdge < 8

/-- Whether the unit's own claim is good. -/
def Duo.claimGood (x : Duo) : Bool := x.ownEdge < 8

/-- Whether a valid heartbeat has come within the last 20 µs. -/
def Duo.fresh (x : Duo) : Bool := x.beat.isSome && x.beatAge < 20

/-- Whether the last two valid heartbeats report the peer ACTIVE.  DEDUCED (log 103): those of a peer silent for 20 µs, which
hb_gone says is gone, report it no more, for a takeover by silence ends in forwarding (Table 14-3). -/
def Duo.peerActive (x : Duo) : Bool := x.fresh && (x.beat.map (·.role)) = some 3 && x.prevRole = some 3

/-- Whether the last two heartbeats report a role other than ACTIVE. -/
def Duo.peerOff (x : Duo) : Bool :=
  (match x.beat with | some b => b.role ≠ 3 | none => false) && (match x.prevRole with | some r => r ≠ 3 | none => false)

/-- ELIGIBLE (R303, R307). -/
def Dev.claimable (d : Dev) : Bool :=
  (d.cfg .duCtl_autoClaim 0 = 1 || d.cd .duCtl_claim = 1) && d.role ≠ 4 && !d.boot.factory && d.duo.eligBlock = 0

/-- Whether unit B yields to its peer. -/
def Dev.yields (d : Dev) : Bool :=
  d.cd .duStatus_unit = 1 && d.cd .duCtl_claim = 0 &&
    (match d.duo.beat with | some b => b.role = 2 && b.elig | none => false)

/-- Whether a standby wants the claim. -/
def Dev.wants (d : Dev) : Bool :=
  d.claimable && !d.duo.peerClaim && (!d.duo.fresh || (d.duo.peerOff && !d.yields))

/-- For how many µs the wish must hold: 20, or the boot wait of 100 ms on A and 1 s on B while no heartbeat has come. -/
def Dev.claimHold (d : Dev) : Nat :=
  if d.duo.beat.isSome then 20 else if d.cd .duStatus_unit = 0 then 100000 else 1000000

/-- The third condition of R301. -/
def Duo.seen (x : Duo) : Bool := x.claimGood || (x.fresh && (match x.beat with | some b => b.sees | none => false))

/-! ### Leaving ACTIVE (R302, R298) -/

/-- Forwarding ends with the role: every copy in transmission is ended and every queued copy removed, each counted once. -/
def Dev.roleFlush (d : Dev) : Dev :=
  let d1 := (List.range 132).foldl (fun d q =>
    match d.sending q with
    | some c =>
      let d2 := ((d.bump .duRoleFlush (d.holderOf c + 1) 0 0 1).stopTx q c).takeOut c false
      { d2 with out := d2.out ++ [sentBad q c.out] }
    | none => d) d
  (d1.net.copies.filter (fun c => !c.tx)).foldl (fun d c => d.discard c ⟨.duRoleFlush, d.holderOf c + 1, 0, 0⟩) d1

/-- The unit leaves ACTIVE for a role: the pulse and forwarding stop. -/
def Dev.leaveActive (d : Dev) (r : Nat) : Dev :=
  let d1 := d.setDuo { d.duo with drive := false, forwarding := false, checking := false, held := 0, badFor := 0 }
  (if d.role = 3 then d1.roleFlush else d1).setRole r

/-- The unit enters FAULT with a cause, and alarm 0x0B07, a fatal incident. -/
def Dev.enterFault (d : Dev) (cause : Nat) : Dev :=
  ((d.leaveActive 4).setCd .duStatus_faultCause cause).fatalEvent 6 0x0B07 3 [(3, cause)]

/-- FAULT is left for STANDBY once CLEAR_FAULT was written and the watchdogs are fed. -/
def Dev.tryClear (d : Dev) : Dev :=
  if d.duo.clearAsked ∧ d.role = 4 ∧ d.duo.silent = [] ∧ d.duo.swSilent = false then
    ((d.setDuo { d.duo with clearAsked := false, held := 0 }).setCd .duStatus_faultCause 0).setRole 2
  else d

/-! ### Takes in a duo (R308, R309) -/

/-- A software commit that waits for the peer's count to cover it. -/
def Dev.lagging (d : Dev) : Bool :=
  d.role = 2 && d.cd .duStatus_ctUp = 1 &&
    (!d.duo.adopted || d.tak.commits.any (fun c => decide (c.step = .queued) && c.move.isNone && c.ahead = 0))

/-- TAKE_LAG follows its condition, with event 0x0B08 when it is set. -/
def Dev.lagUpdate (d : Dev) : Dev :=
  if d.lagging then
    (if d.cd .duStatus_takeLag = 1 then d
     else (d.setCd .duStatus_takeLag 1).raise 6 0x0B08
       [(32, d.wide .duCommitCount 0 % 2 ^ 32), (32, d.wide .duPeerCommitCount 0 % 2 ^ 32)])
  else d.setCd .duStatus_takeLag 0

/-- A take number moved by an amount. -/
def shiftTake (by_ t : Nat) : Nat := (t + by_) % 16

/-- A version with its takes moved. -/
def Ver.shift (by_ : Nat) (v : Ver) : Option Ver :=
  some { v with from_ := v.from_.map (shiftTake by_), until_ := v.until_.map (shiftTake by_) }

/-- Every take of the unit renumbered by an amount, so that it continues its peer's numbering. -/
def Dev.renumber (d : Dev) (by_ : Nat) : Dev :=
  let d1 := d.mapVers (Ver.shift by_)
  { d1 with
    tak := { d1.tak with
      live := d1.tak.live.map (shiftTake by_)
      reclaim := d1.tak.reclaim.map (shiftTake by_)
      current := d1.tak.current.map (shiftTake by_)
      since := d1.tak.since.map (fun e => (shiftTake by_ e.1, e.2)) }
    plc := { d1.plc with halves := d1.plc.halves.map (fun h => { h with from_ := h.from_.map (shiftTake by_) }) }
    net := { d1.net with frames := d1.net.frames.map (fun f => { f with take := shiftTake by_ f.take }) } }

/-- The commits that a TAKE with count C seals: the waiting moves, and software commits in order while C covers them. -/
def Dev.covered (d : Dev) (c : Nat) : List Commit :=
  (d.tak.commits.foldl (fun a x =>
    if x.step ≠ .queued ∨ x.ahead ≠ 0 then a
    else if x.move.isSome then (a.1 ++ [x], a.2)
    else if d.softwareCommits x ≤ a.2 then (a.1 ++ [x], a.2 - d.softwareCommits x) else (a.1, 0))
    (([] : List Commit), c - d.wide .duCommitCount 0)).1

/-- A TAKE is acted on: its take is sealed with what it covers, and becomes current at S, or late when sealing ends after
S. -/
def Dev.sealPeer (d : Dev) (n s c : Nat) : Dev :=
  let soon := d.instant 4 + 2048 * nsUnit
  let late : Bool := decide (instDiff (s * nsUnit) (d.instant 4) < 0)
  let r := if late then soon else s * nsUnit
  let own : Commit := { owner := d.tak.nextOwner, n := n }
  let d1 : Dev := { d with tak := { d.tak with nextOwner := d.tak.nextOwner + 1, commits := d.tak.commits ++ [own] } }
  ((d1.covered c) ++ [own]).foldl (fun d x => d.sealCommit x n r late) d1

/-- The oldest TAKE waiting is acted on when the unit follows its peer, no other take of it is being made current, and the
wait of step 2 of R132 is over; the unit first adopts the peer's numbering where its own differs and it has one live
take. -/
def Dev.followTake (d : Dev) : Dev :=
  match d.duo.peerTakes with
  | [] => d
  | (n, s, c) :: rest =>
    if d.role ≠ 2 ∨ d.commitNow.isSome = true then d
    else
      let d1 := if d.duo.adopted ∧ (d.curTake + 1) % 16 = n then d
        else if d.tak.live.length = 1 then
          (d.renumber ((n + 15 + 16 - d.curTake % 16) % 16)).setDuo { d.duo with adopted := true }
        else d
      if d1.duo.adopted = false ∨ (d1.curTake + 1) % 16 ≠ n then d
      else
        let d2 := d1.setDuo { d1.duo with peerTakes := rest }
        let waits := (d2.covered c).any (fun x => !(d2.flipsOf x.owner).all (fun y => !d2.otherUsed y.1 y.2))
        if 2 < d2.tak.live.length ∨ d2.takesNear n = false ∨ d2.tak.reclaim.contains n = true ∨ waits = true then d else d2.sealPeer n s c

/-- A standby that follows its peer and has a move waiting asks for a take, at most once per 1 ms. -/
def Dev.askTake (d : Dev) : Dev :=
  let x := d.duo
  if d.follows ∧ 1000 ≤ x.reqAge ∧ d.tak.commits.any (fun c => decide (c.step = .queued) && c.move.isSome) = true then
    (d.setDuo { x with reqAge := 0 }).ctNext 4
      [(d.tak.commits.filter (fun c => decide (c.step = .queued) && c.move.isSome)).length]
  else d.setDuo { x with reqAge := min 1000 (x.reqAge + 1) }

/-! ### The evaluation (R305, R301) -/

/-- Alarm 0x0B05 once per episode while the interlock disagrees with the heartbeats (Table 14-4). -/
def Dev.disagree (d : Dev) (on : Bool) : Dev :=
  let x := d.duo
  let d1 := d.setDuo { x with disagreed := on }
  if on && !x.disagreed then
    (d1.setCd .duStatus_interlockLostSticky 1).raise 6 0x0B05
      [(1, b2n x.peerClaim), (1, b2n x.claimGood), (1, d.cd .duStatus_peerSeesClaim)]
  else d1

/-- Contention is met: its sticky bits and alarm 0x0B06, a fatal incident. -/
def Dev.contention (d : Dev) : Dev :=
  if d.duo.contended then d
  else
    let d1 := ((d.setDuo { d.duo with contended := true, blind := false }).setCd .duStatus_contentionSticky 1).fatalEvent 6
      0x0B06 4 [(1, d.cd .duStatus_unit), (1, b2n (!d.duo.peerClaim))]
    if d.duo.blind then d1.setCd .duStatus_splitSticky 1 else d1

/-- The evaluation of an ACTIVE unit. -/
def Dev.evalActive (d : Dev) : Dev :=
  if d.duo.peerClaim || d.duo.peerActive then
    let d1 := d.contention
    if d.cd .duStatus_unit = 1 then d1.leaveActive 2
    else
      let d2 := d1.setDuo { d1.duo with forwarding := false }
      if d2.duo.checking then d2
      else if d2.duo.seen then (d2.setDuo { d2.duo with badFor := 0 }).disagree (!d2.duo.claimGood)
      else if 20 ≤ d2.duo.badFor then d2.enterFault 3
      else d2.setDuo { d2.duo with badFor := d2.duo.badFor + 1 }
  else
    let d0 := d.setDuo { d.duo with contended := false }
    if d0.duo.checking then d0
    else if d0.duo.seen then
      (d0.setDuo { d0.duo with badFor := 0, forwarding := true }).disagree (!d0.duo.claimGood)
    else if 20 ≤ d0.duo.badFor then d0.enterFault 3
    else d0.setDuo { d0.duo with badFor := d0.duo.badFor + 1, forwarding := false }

/-- The evaluation of a STANDBY unit: the claim is driven once the wish has held. -/
def Dev.evalStandby (d : Dev) : Dev :=
  let d1 := d.disagree (!d.duo.peerClaim && d.duo.fresh && d.duo.peerActive)
  if d1.wants then
    if d1.claimHold ≤ d1.duo.held then
      ((d1.setDuo { d1.duo with drive := true, checking := true, returned := false, held := 0, badFor := 0,
                                contended := false, peerTakes := [],
                                blind := d1.duo.blind || d1.cd .duStatus_ctUp = 0 }).setCd .duCtl_claim 0).setRole 3
    else d1.setDuo { d1.duo with held := d1.duo.held + 1 }
  else d1.setDuo { d1.duo with held := 0 }

/-- DUO_EVAL: 1 µs has passed; `peer` and `own` say whether PEER_CLAIM_IN and CLAIM_RETURN showed an edge in it. -/
def Dev.duoEval (d : Dev) (peer own : Bool) : Dev :=
  if d.isDuo then
    let x := d.duo
    let y := { x with
      peerEdge := if peer then 0 else min 8 (x.peerEdge + 1)
      ownEdge := if own then 0 else min 8 (x.ownEdge + 1)
      beatAge := min 20 (x.beatAge + 1)
      eligBlock := x.eligBlock - 1
      returned := x.returned || own }
    let z := { y with peerHeld := y.peerHeld || (d.role = 2 && (y.peerClaim || y.peerActive)) }
    let d1 := ((d.setDuo z).setCd .duStatus_peerClaim (b2n z.peerClaim)).setCd .duStatus_claimGood (b2n z.claimGood)
    let d1 := if d1.duo.releases = 0 then d1 else (d1.setDuo { d1.duo with releases := d1.duo.releases - 1 }).ctNext 5 []
    let d2 :=
      if d1.role = 3 then d1.evalActive
      else if d1.role = 2 then d1.evalStandby
      else if d1.role = 1 ∧ ((List.range 128).any (fun p => d1.portUp p)) = true then d1.leaveInit
      else d1
    d2.askTake.followTake.lagUpdate
  else d

/-- DUO_EVAL. -/
def execDuoEval (peer own : Bool) (s : State) : Host.Outcome State Fault Refusal := onDev (fun d => d.duoEval peer own) s

/-- CLAIM_CHECK: 2 µs after the claim was driven, with an edge seen on CLAIM_RETURN or none. -/
def Dev.claimCheck (d : Dev) (edge : Bool) : Dev :=
  if d.duo.checking then
    if edge || d.duo.returned then
      let x := d.duo
      let d1 := ((d.setDuo { x with checking := false, forwarding := !x.contended, peerHeld := false,
                                    ownEdge := if edge then 0 else x.ownEdge }).bump .duTakeoverCount 0 0 0 1).setWide
        .duLastTakeover 0 0 0 (d.now 4)
      if x.peerHeld then
        (d1.setCd .duStatus_takeoverSticky 1).raise 6 0x0B02
          [(3, d.cd .duStatus_peerRole), (3, (x.beat.map (·.cause)).getD 0)]
      else d1
    else d.enterFault 4
  else d

/-- CLAIM_CHECK. -/
def execClaimCheck (edge : Bool) (s : State) : Host.Outcome State Fault Refusal := onDev (fun d => d.claimCheck edge) s

/-- INIT_TIMEOUT: 2.0 s have passed since reset. -/
def execInitTimeout (s : State) : Host.Outcome State Fault Refusal :=
  onDev (fun d => if d.role = 1 then d.setRole 2 else d) s

/-! ### Watchdogs (R298) -/

/-- A source of health beacons: PD0–PD3 when active, then the placement, time-master and host islands of the CD. -/
def Dev.beaconSource (d : Dev) (k : Nat) : Bool := if k < 4 then activeDie d.boot.sb.active k else k < 7

/-- HEALTH_BEACON. -/
def execHealthBeacon (k : Fin 7) (s : State) : Host.Outcome State Fault Refusal :=
  onDev (fun d => (d.setDuo { d.duo with silent := d.duo.silent.filter (fun x => x ≠ k.val) }).tryClear) s

/-- HW_WDOG_EXPIRE: a source has been silent for HW_WDOG_US. -/
def execHwWdogExpire (k : Fin 7) (s : State) : Host.Outcome State Fault Refusal :=
  onDev (fun d =>
    if d.isDuo ∧ d.boot.applied = true ∧ d.beaconSource k = true then
      let d1 := d.setDuo { d.duo with silent := if d.duo.silent.contains k then d.duo.silent else k.val :: d.duo.silent }
      if d1.role = 4 then d1 else d1.enterFault 1
    else d) s

/-- SW_WDOG_EXPIRE: FEED has not been written for SW_WDOG_MS. -/
def execSwWdogExpire (s : State) : Host.Outcome State Fault Refusal :=
  onDev (fun d =>
    if d.isDuo ∧ d.boot.applied = true ∧ d.cfg .duCtl_swWdogMs 0 ≠ 0 then
      let d1 := d.setDuo { d.duo with swSilent := true }
      if d1.role = 4 then d1 else d1.enterFault 2
    else d) s

/-- FEED written. -/
def Dev.duFeed (d : Dev) : Dev := (d.setDuo { d.duo with swSilent := false }).tryClear

/-- DU_FEED: a write of DU_CTL.FEED. -/
def execDuFeed (s : State) : Host.Outcome State Fault Refusal :=
  onReg 0 .duCtl 0 0 8 (fun d => d.duFeed) s

/-! ### Requests of software (R305, R307) -/

/-- CLAIM written: ignored while the peer's claim is present, and by a unit that holds its own. -/
def Dev.duClaim (d : Dev) : Dev :=
  if d.inSafe .duCtl 0 = false ∧ d.isDuo ∧ d.role ≠ 3 ∧ d.duo.peerClaim = false then d.setCd .duCtl_claim 1 else d

/-- DU_CLAIM: a write of DU_CTL.CLAIM. -/
def execDuClaim (s : State) : Host.Outcome State Fault Refusal :=
  onReg 0 .duCtl 0 0 2 (fun d => d.duClaim) s

/-- RELEASE written. -/
def Dev.duRelease (d : Dev) : Dev :=
  let d1 := d.setCd .duCtl_claim 0
  if d.inSafe .duCtl 0 then d
  else if d.role = 3 then
    ((d1.setDuo { d1.duo with eligBlock := 1000, releases := 2 }).leaveActive 2).ctNext 5 []
  else d1

/-- DU_RELEASE: a write of DU_CTL.RELEASE. -/
def execDuRelease (s : State) : Host.Outcome State Fault Refusal :=
  onReg 0 .duCtl 0 0 4 (fun d => d.duRelease) s

/-- CLEAR_FAULT written. -/
def Dev.duClear (d : Dev) : Dev := if d.role = 4 then (d.setDuo { d.duo with clearAsked := true }).tryClear else d

/-- DU_CLEAR_FAULT: a write of DU_CTL.CLEAR_FAULT. -/
def execDuClearFault (s : State) : Host.Outcome State Fault Refusal :=
  onReg 0 .duCtl 0 0 16 (fun d => d.duClear) s

/-! ### Continuity messages (R303) -/

/-- HEARTBEAT_SEND: a HEARTBEAT leaves on every lane in lock. -/
def execHeartbeatSend (s : State) : Host.Outcome State Fault Refusal :=
  onDev (fun d =>
    if d.isDuo then
      d.ctNext 1
        [d.role, b2n d.claimable, b2n d.duo.peerClaim, b2n d.duo.claimGood, d.cd .duStatus_faultCause,
         d.curTake, d.wide .duCommitCount 0]
    else d) s

/-- A message arrives on a lane in lock: one with a bad CRC counts, a copy of one already taken is discarded, and the first
good copy of a type acts. -/
def Dev.ctTake (d : Dev) (lane kind seq : Nat) (ok : Bool) (f : Dev → Dev) : Dev :=
  if d.isDuo = false ∨ bitAt (d.cd .duStatus_ctLanes) lane = 0 then d
  else if !ok then d.bump .duCtBadMsg 0 0 0 1
  else if aget d.duo.seqs kind = some seq then d
  else f (d.setDuo { d.duo with seqs := aset d.duo.seqs kind seq })

/-- A valid heartbeat is taken. -/
def Dev.takeBeat (d : Dev) (b : Beat) : Dev :=
  ((d.setDuo { d.duo with prevRole := d.duo.beat.map (·.role), beat := some b, beatAge := 0,
                          blind := d.duo.blind && b.role = 3 }).setCd .duStatus_peerSeesClaim (b2n b.sees)).setCd
    .duStatus_peerRole b.role

/-- HEARTBEAT_RECEIVE. -/
def execHeartbeatReceive (lane : Fin 4) (seq : BitVec 16) (crcOk : Bool) (role : Fin 5) (elig sees good : Bool)
    (cause : Fin 5) (take : Fin 16) (commits : BitVec 64) (s : State) : Host.Outcome State Fault Refusal :=
  onDev (fun d => d.ctTake lane 1 seq.toNat crcOk (fun d =>
    d.takeBeat ⟨role, elig, sees, good, cause, take, commits.toNat⟩)) s

/-- The offset of a unit's CD time from its peer's in 1/16 ns: the peer's t1 and its arrival stamp r here, less the link
delay, half the round trip of the echoed pair (e1, e2) corrected by the trim (R304).  Stamps count 1/16 ns. -/
def ctOffset (t1 r e1 e2 trim : Int) : Int := (r - t1) - (((e2 - e1) + (r - t1)) / 2 + trim)

/-- A stamp of 96 bits in 1/16 ns. -/
def sixteenths (t : Nat) : Nat := t / 2 ^ 28

/-- A standby removes an offset from its peer: above 1 µs by a step, a smaller one through TM_INC. -/
def Dev.followTime (d : Dev) (off : Int) : Dev :=
  let d1 := d.setWide .duTimeOffset 0 0 0 (ofSigned 64 off)
  let d2 := if 16000 < off ∨ off < -16000 then d1.pendStep (-(off * 2 ^ 28)) false
    else
      let v := clamp 0x0100000000 0x0300000000 (Config.steerInc off (d.wide .tmInc 0)).toNat
      (({ d1 with tm := { d1.tm with incPend := some (v, d1.ticks 4) } }.setWide .tmInc 0 0 0 v).setCd .tmStatus_incPending 1).setCd
        .tmStatus_set 1
  if -160 ≤ off ∧ off ≤ 160 then
    let t := d.duo.lockedAt.getD (d.ticks 4)
    (d2.setDuo { d2.duo with lockedAt := some t }).setCd .duStatus_timeLocked (b2n (decide (500000000 ≤ d.ticks 4 - t)))
  else (d2.setDuo { d2.duo with lockedAt := none }).setCd .duStatus_timeLocked 0

/-- TIME_MSG_RECEIVE: the peer's boundary and t1, and what it last heard of this unit: t1 and its arrival stamp, in units of
2⁻³² ns. -/
def execTimeMsgReceive (lane : Fin 4) (seq : BitVec 16) (crcOk : Bool) (t1 : BitVec 96)
    (echo : Option (BitVec 96 × BitVec 96)) (s : State) : Host.Outcome State Fault Refusal :=
  onDev (fun d => d.ctTake lane 2 seq.toNat crcOk (fun d =>
    let r := d.instant 4
    let d1 := d.setDuo { d.duo with peerTime := some (t1.toNat, r) }
    match echo with
    | some e =>
      if d.role = 2 ∧ d.duo.beat.map (·.role) = some 3 then
        d1.followTime (ctOffset (sixteenths t1.toNat) (sixteenths r) (sixteenths e.1.toNat) (sixteenths e.2.toNat)
          (toSigned 16 (d.cfg .duCtTrim_trim 0)))
      else d1
    | none => d1)) s

/-- A TIME message at a clapper boundary b of this unit. -/
def Dev.timeMsg (d : Dev) (b : Nat) : Dev :=
  if d.isDuo then
    let x := d.duo
    d.ctNext 2 ([b, d.instant 4] ++ (match x.peerTime with | some p => [p.1, p.2] | none => []))
  else d

/-- TAKE_MSG_RECEIVE: an ACTIVE unit ignores it. -/
def execTakeMsgReceive (lane : Fin 4) (seq : BitVec 16) (crcOk : Bool) (take : Fin 16) (at_ : BitVec 64)
    (count : BitVec 64) (s : State) : Host.Outcome State Fault Refusal :=
  onDev (fun d => d.ctTake lane 3 seq.toNat crcOk (fun d =>
    if d.role = 2 then
      let d1 := d.setWide .duPeerCommitCount 0 0 0 count.toNat
      let d2 := if d1.duo.adopted ∨ d1.tak.live.length = 1 then
          d1.setDuo { d1.duo with peerTakes := d1.duo.peerTakes ++ [(take.val, at_.toNat, count.toNat)] }
        else d1
      d2.followTake.lagUpdate
    else d)) s

/-- TAKE_REQUEST_RECEIVE: the ACTIVE unit requests an empty take. -/
def execTakeRequestReceive (lane : Fin 4) (seq : BitVec 16) (crcOk : Bool) (s : State) :
    Host.Outcome State Fault Refusal :=
  onDev (fun d => d.ctTake lane 4 seq.toNat crcOk (fun d =>
    if d.role = 3 then
      let c : Commit := { owner := d.tak.nextOwner }
      { d with tak := { d.tak with nextOwner := d.tak.nextOwner + 1, commits := d.tak.commits ++ [c] } }.activate
    else d)) s

/-- RELEASE_MSG_RECEIVE: the peer has held the claim and released it. -/
def execReleaseMsgReceive (lane : Fin 4) (seq : BitVec 16) (crcOk : Bool) (s : State) : Host.Outcome State Fault Refusal :=
  onDev (fun d => d.ctTake lane 5 seq.toNat crcOk (fun d => d.setDuo { d.duo with peerHeld := true })) s

/-! ### The link (R303) -/

/-- CT_LANE_LOCK_LOST: a lane loses lock; when none remains the 20 µs timer starts. -/
def execCtLaneLockLost (k : Fin 4) (s : State) : Host.Outcome State Fault Refusal :=
  onDev (fun d =>
    let old := d.cd .duStatus_ctLanes
    if d.isDuo ∧ bitAt old k = 1 then
      let d1 := d.clrBit .duStatus_ctLanes 0 0 0 k
      if d1.cd .duStatus_ctLanes = 0 then d1.setDuo { d1.duo with lostLanes := old, lossTimer := true } else d1
    else d) s

/-- CT_LINK_LOST: no lane has been in lock for 20 µs. -/
def execCtLinkLost (s : State) : Host.Outcome State Fault Refusal :=
  onDev (fun d =>
    if d.isDuo ∧ d.cd .duStatus_ctUp = 1 ∧ d.duo.lossTimer = true then
      let d1 := ((d.setDuo { d.duo with lossTimer := false, lostAt := d.ticks 4, lockedAt := none, peerTakes := [],
                                        blind := d.duo.blind || d.role = 3, adopted := d.duo.adopted && d.role ≠ 2 }).setCd
        .duStatus_ctUp 0).setCd .duStatus_ctLostSticky 1
      ((d1.setCd .duStatus_timeLocked 0).raise 6 0x0B03 [(4, d.duo.lostLanes)]).lagUpdate
    else d) s

/-- CT_LINK_UP: a lane comes into lock. -/
def execCtLinkUp (k : Fin 4) (s : State) : Host.Outcome State Fault Refusal :=
  onDev (fun d =>
    if d.isDuo then
      let d1 := ((d.setBit .duStatus_ctLanes 0 0 0 k).setDuo { d.duo with lossTimer := false }).lnTrained (128 + k)
      if d.cd .duStatus_ctUp = 1 then d1
      else ((d1.setCd .duStatus_ctUp 1).raise 6 0x0B04 [(32, (d.ticks 4 - d.duo.lostAt) * 2 / 1000)]).lagUpdate
    else d) s

end Sys2Proof.Machine
end

