-- ==== Sys2Proof/Machine/Security.lean ====
section
/-! DEFINITION. The security engine's requests: slate, quote, challenge, key commands, anti-rollback and patches (R395–R406). -/

namespace Sys2Proof.Machine

/-- The security engine's state replaced. -/
def Dev.setSec (d : Dev) (x : Sec) : Dev := { d with sec := x }

/-! ### What requests write (Tables 19-4 and 19-6) -/

/-- ROM_VERSION: build, silicon revision, patch level. -/
def Dev.romVersion (d : Dev) : Nat := Config.romBuild.toNat * 2 ^ 16 + 0xA0 * 2 ^ 8 + d.cd .scOtpStatus_patchLevel

/-- The device certificate. -/
def devCert : List Byte := Config.deviceCert.take 32768

/-- The CA certificate. -/
def caCert : List Byte := Config.caCert.take 32768

/-- The slate. -/
def Dev.slate (d : Dev) : List Byte :=
  toBytes ([0x56, 0x58, 0x53, 0x4C, 1, 0, 0, 0] ++ leBytes 16 (d.wide .scSerial 0) ++ leBytes 6 Config.baseMac ++ [0, 0] ++
    leBytes 64 (d.wide .scIdentityPubkey 0) ++ leBytes 4 d.romVersion ++ leBytes 4 devCert.length ++
    leBytes 4 caCert.length ++ List.replicate 20 0) ++ devCert ++ caCert

/-- Bytes 0 to 191 of a quote. -/
def Dev.quoteHead (d : Dev) (o : Otp) (nonce : Nat) : List Byte :=
  toBytes ([0x56, 0x58, 0x51, 0x54, 1, 0, d.cd .imBootStatus_bank,
      d.cd .duStatus_unit + 2 * d.cd .duStatus_duo + 4 * d.cd .duStatus_role] ++ leBytes 16 (d.wide .scSerial 0) ++
    leBytes 64 nonce ++ leBytes 64 (d.wide .imRunningDigest 0) ++ leBytes 4 (d.cd .imBootSeq_seq) ++ leBytes 4 d.romVersion ++
    leBytes 8 (Otp.rollback o) ++ leBytes 8 (d.now 4) ++ [Otp.mask o (·.marker) + 16 * Otp.mask o (·.dead)] ++
    List.replicate 15 0)

/-- A quote with its signature. -/
def Dev.quote (d : Dev) (o : Otp) (nonce : Nat) : List Byte :=
  let q := d.quoteHead o nonce
  q ++ (List.range 49856).map (Config.quoteSignature q)

/-! ### Starting a request (R398, R405) -/

/-- A request's code when its checks have passed or failed, and what it will do. -/
abbrev ScPlan := Nat × ScEffect

/-- A request that writes an output of some bytes. -/
def Dev.scOutput (d : Dev) (bytes : List Byte) (e : ScEffect) : ScPlan :=
  if d.wide .scOutLen 0 < bytes.length then (6, .nothing) else (1, e)

/-- START of a request with its OP: ignored while one runs, PARITY while SC_CMD is in its safe state, else it runs with the
plan its checks gave. -/
def Dev.scStart (d : Dev) (op : Nat) (plan : ScPlan) : Dev :=
  if d.cd .scStatus_state = 1 then
    (d.setCd .scStatus_busySticky 1).raise 6 0x0F05 [(4, (d.sec.run.map (·.op)).getD 0)]
  else
    let p := if d.inSafe .scCmd 0 then (3, ScEffect.nothing) else plan
    (((d.setSec { d.sec with run := some ⟨op, p.1, p.2⟩ }).setCd .scCmd_op op).setCd .scCmd_start 1).setCd .scStatus_state 1

/-- READ_SLATE. -/
def Dev.scSlate (d : Dev) : Dev := d.scStart 1 (d.scOutput d.slate (.output d.slate))

/-- QUOTE over a nonce, or with a nonce that could not be read; its fields are taken now. -/
def Dev.scQuote (d : Dev) (o : Otp) (nonce : Option Nat) : Dev :=
  match nonce with
  | none => d.scStart 2 (5, .nothing)
  | some n => d.scStart 2 (d.scOutput (d.quote o n) (.output (d.quote o n)))

/-- The current challenge ends (R401). -/
def Dev.endChallenge (d : Dev) : Dev := (d.setSec { d.sec with challenge := none }).setWide .scChallenge 0 0 0 0

/-- GET_CHALLENGE: the challenge before it ends, whatever its outcome, and a new one, conditioned by SHAKE256, is drawn
(R401). -/
def Dev.scGet (d : Dev) : Dev :=
  let c := (Config.challenge d.net.draws).toNat
  if d.cd .scStatus_state = 1 then d.scStart 3 (1, .nothing)
  else
    let d1 : Dev := { d with net := { d.net with draws := d.net.draws + 1 } }
    d1.endChallenge.scStart 3 (d.scOutput (toBytes (leBytes 32 c)) (.challenge c))

/-- The bytes 0 to 191 of a key command, which its signature covers (Table 19-7). -/
def KeyCmd.head (k : KeyCmd) : List Nat :=
  leBytes 4 k.magic ++ [k.op, k.slot, k.authSlot, 0] ++ leBytes 16 k.serial ++ leBytes 32 k.challenge ++ leBytes 64 k.newHash ++
    leBytes 64 k.authPubkey ++ List.replicate 8 0

/-- Whether no slot is programmed or broken, so that a first claim may pass (R402). -/
def Otp.unclaimed (o : Otp) : Bool := [0, 1, 2, 3].all (fun j => !(o.slot j).begun)

/-- Whether a command is well formed: MAGIC, OP, SLOT, AUTH_SLOT and reserved bytes. -/
def KeyCmd.formed (k : KeyCmd) : Bool :=
  k.magic = 0x434B5856 && (k.op = 1 || k.op = 2) && k.clean && k.slot ≤ 3 && (k.authSlot ≤ 3 || k.authSlot = 0xFF)

/-- Whether the authorizing slot or first claim of a command passes R402. -/
def Otp.authOk (o : Otp) (k : KeyCmd) : Bool :=
  if k.authSlot = 0xFF then k.op = 1 && o.unclaimed
  else o.holds k.authSlot k.authPubkey && !(o.slot k.authSlot).dead

/-- Whether a slot holds a key that still counts. -/
def KeySlot.usable (x : KeySlot) : Bool := x.marker && !x.dead

/-- The checks of a key command after the challenge check, in the order of Table 19-5. -/
def Dev.keyChecks (d : Dev) (o : Otp) (k : KeyCmd) : ScPlan :=
  if k.serial ≠ d.wide .scSerial 0 then (0xA, .nothing)
  else if o.authOk k = false then (0xB, .nothing)
  else if k.authSlot ≠ 0xFF ∧ Config.sigVerifies k.authPubkey (KeyCmd.head k) k.signature = false then (0xC, .nothing)
  else if k.op = 1 ∧ (o.slot k.slot).begun = true then (0xD, .nothing)
  else if k.op = 2 ∧ (o.slot k.slot).begun = false then (0xE, .nothing)
  else if k.op = 2 ∧ d.boot.applied = true ∧ d.boot.factory = false ∧ d.boot.hdr.keyIndex = k.slot then (0xF, .nothing)
  else if k.op = 2 ∧ [0, 1, 2, 3].any (fun j => j ≠ k.slot && (o.slot j).usable) = false then (0x10, .nothing)
  else if k.op = 1 then (1, .program k.slot k.newHash)
  else (1, .revoke k.slot)

/-- KEY_COMMAND with a command, or with one that could not be read: the challenge is ended by a command that reaches its
check, and counts for 10 minutes (R401). -/
def Dev.scKey (d : Dev) (o : Otp) (cmd : Option KeyCmd) : Dev :=
  match cmd with
  | none => d.scStart 4 (5, .nothing)
  | some k =>
    if d.cd .scStatus_state = 1 ∨ d.inSafe .scCmd 0 = true ∨ KeyCmd.formed k = false then d.scStart 4 (4, .nothing)
    else
      let good : Bool := match d.sec.challenge with
        | some c => c.1 = k.challenge && diff64 (d.now 4) c.2 ≤ 600000000000 | none => false
      if good then d.endChallenge.scStart 4 (d.keyChecks o k) else d.endChallenge.scStart 4 (9, .nothing)

/-- ADVANCE_ROLLBACK (R403). -/
def Dev.scAdvance (d : Dev) (o : Otp) : Dev :=
  d.scStart 5
    (if d.boot.applied = false ∨ d.boot.factory = true then (7, .nothing)
     else if d.boot.hdr.rollback ≤ o.rollback then (2, .nothing)
     else if 128 ≤ o.advances.length then (8, .nothing)
     else (1, .advance d.boot.hdr.rollback))

/-- The bytes of a patch record that its signature covers, of which the spec names only these parts. -/
def PatchRec.head (p : PatchRec) : List Nat := leBytes 2 p.build ++ [p.revision, p.level] ++ leBytes 64 p.pubkey ++ p.content

/-- APPLY_PATCH with a record, or with one that could not be read (R404). -/
def Dev.scPatch (d : Dev) (o : Otp) (rec_ : Option PatchRec) : Dev :=
  d.scStart 6
    (match rec_ with
     | none => (5, .nothing)
     | some p =>
       if 8 ≤ o.patches.length then (8, .nothing)
       else if keyHash p.pubkey ≠ Config.vendorRootHash ∨
           Config.sigVerifies p.pubkey (PatchRec.head p) p.signature = false then (0xC, .nothing)
       else if p.build ≠ Config.romBuild.toNat ∨ p.revision ≠ 0xA0 ∨ p.level ≤ d.cd .scOtpStatus_patchLevel then
         (3 + Config.patchRefusal % 15, .nothing)
       else (1, .patch p.level p.content))

/-- An OP that Table 19-3 does not name. -/
def Dev.scBad (d : Dev) (op : Nat) : Dev := d.scStart op (4, .nothing)

/-- A command that starts a request of the security engine. -/
abbrev scReq (f : Dev → Otp → Dev) (op : Nat) (s : State) : Host.Outcome State Fault Refusal :=
  onReg 0 .scCmd 0 0 (op + 16) (fun d => f d s.otp) s

/-- SC_READ_SLATE. -/
def execScReadSlate (s : State) : Host.Outcome State Fault Refusal := scReq (fun d _ => d.scSlate) 1 s

/-- SC_QUOTE, with the nonce at SC_IN_ADDR, or none where it could not be read. -/
def execScQuote (nonce : Option (BitVec 512)) (s : State) : Host.Outcome State Fault Refusal :=
  scReq (fun d o => d.scQuote o (nonce.map (·.toNat))) 2 s

/-- SC_GET_CHALLENGE. -/
def execScGetChallenge (s : State) : Host.Outcome State Fault Refusal := scReq (fun d _ => d.scGet) 3 s

/-- SC_KEY_COMMAND, with the command at SC_IN_ADDR, or none where it could not be read. -/
def execScKeyCommand (k : Option (List Byte)) (s : State) : Host.Outcome State Fault Refusal :=
  scReq (fun d o => d.scKey o (k.map readKey)) 4 s

/-- SC_ADVANCE_ROLLBACK. -/
def execScAdvanceRollback (s : State) : Host.Outcome State Fault Refusal := scReq (fun d o => d.scAdvance o) 5 s

/-- SC_APPLY_PATCH, with the record at SC_IN_ADDR, or none where it could not be read. -/
def execScApplyPatch (p : Option PatchRec) (s : State) : Host.Outcome State Fault Refusal := scReq (fun d o => d.scPatch o p) 6 s

/-! ### The end of a request -/

/-- Whether an effect writes the OTP. -/
def ScEffect.writes : ScEffect → Bool
  | .program _ _ | .revoke _ | .advance _ | .patch _ _ => true
  | .nothing | .output _ | .challenge _ => false

/-- What event 0x0F06 says of an effect whose write failed: the row of Table 19-2 and the slot or record index. -/
def ScEffect.place (o : Otp) : ScEffect → Nat × Nat
  | .program k _ => (0, k)
  | .revoke k => (1, k)
  | .advance _ => (2, o.advances.length)
  | .patch _ _ => (5, o.patches.length)
  | .nothing | .output _ | .challenge _ => (0, 0)

/-- The payload of event 0x0F04. -/
def ScEffect.report (op : Nat) : ScEffect → List (Nat × Nat)
  | .program k _ | .revoke k => [(4, op), (8, k)]
  | .advance v => [(4, op), (32, v % 2 ^ 32)]
  | .patch _ _ | .nothing | .output _ | .challenge _ => [(4, op)]

/-- STATE becomes DONE with a code. -/
def Dev.scEnd (d : Dev) (code : Nat) : Dev :=
  (((d.setSec { d.sec with run := none }).setCd .scCmd_start 0).setCd .scStatus_state 2).setCd .scStatus_code code

/-- What a request that ends OK does on the device, its OTP write apart. -/
def Dev.scEffect (d : Dev) (r : ScRun) : Dev :=
  match r.effect with
  | .output b => { d with out := d.out ++ [.hostWrite (d.wide .scOutAddr 0) b] }
  | .challenge c =>
    let d1 : Dev := { d with out := d.out ++ [.hostWrite (d.wide .scOutAddr 0) (toBytes (leBytes 32 c))] }
    (d1.setSec { d1.sec with challenge := some (c, d1.now 4) }).setWide .scChallenge 0 0 0 c
  | .program _ _ | .advance _ | .patch _ _ => d.raise 6 0x0F04 (ScEffect.report r.op r.effect)
  | .revoke k => (d.raise 6 0x0F04 (ScEffect.report r.op r.effect)).raise 6 0x0F03 [(2, k)]
  | .nothing => d

/-- A request that is refused counts and raises its event (R405). -/
def Dev.scRefuse (d : Dev) (op code : Nat) : Dev := (d.bump .scRefused 0 0 0 1).raise 6 0x0F02 [(4, op), (5, code)]

/-- The running request completes; `otpOk` is whether the read-back of an OTP write agreed. -/
def State.scDone (s : State) (r : ScRun) (otpOk : Bool) : State :=
  let d := s.dev
  if r.code = 1 then
    if r.effect.writes ∧ otpOk = false then
      let n := d.net.draws
      let o := Otp.written s.otp r.effect 1 (Config.draw n)
      let d1 : Dev := { d with net := { d.net with draws := n + 1 } }
      let p := ScEffect.place s.otp r.effect
      let d2 := ((d1.scEnd 0x11).scRefuse r.op 0x11).raise 6 0x0F06 [(8, (Config.otpItem p.1).toNat), (8, p.2)]
      { s with otp := o, dev := d2.showOtp o }
    else
      let o := Otp.written s.otp r.effect 2 0
      { s with otp := o, dev := (((d.scEnd 1).raise 6 0x0F01 [(4, r.op)]).scEffect r).showOtp o }
  else if r.code = 2 then { s with dev := d.scEnd 2 }
  else { s with dev := (d.scEnd r.code).scRefuse r.op r.code }

/-- SC_REQUEST_DONE. -/
def execScRequestDone (otpOk : Bool) (s : State) : Host.Outcome State Fault Refusal :=
  let s1 := { s with dev := s.dev.quiet }
  match s1.dev.sec.run with
  | some r => .next (s1.scDone r otpOk)
  | none => .next s1

/-- CHALLENGE_EXPIRE: a challenge is more than 10 minutes of device time old (R401). -/
def execChallengeExpire (s : State) : Host.Outcome State Fault Refusal :=
  onDev (fun d =>
    match d.sec.challenge with
    | some c => if 600000000000 ≤ diff64 (d.now 4) c.2 then d.endChallenge else d
    | none => d) s

end Sys2Proof.Machine
end

