-- ==== Sys2Proof/Machine/DmaCore.lean ====
section
/-! DEFINITION. The DMA engine's own state: starts, checks and ends of transfers (R355–R364), and the host port's rings
(R365–R367).  The accesses of a transfer stand in Dma. -/

namespace Sys2Proof.Machine

/-! ### Channels -/

/-- A channel's transfer. -/
def Dev.chan (d : Dev) (k : Nat) : DmChan := (d.dma.chans[k]?).getD {}

/-- The device with a channel's transfer replaced. -/
def Dev.setChan (d : Dev) (k : Nat) (x : DmChan) : Dev :=
  if h : k < 16 then { d with dma := { d.dma with chans := d.dma.chans.set k x } } else d

/-- STATE of a channel: 0 IDLE, 1 FETCH, 2 RUNNING, 3 DONE, 4 HALTED. -/
def Dev.chState (d : Dev) (k : Nat) : Nat := d.cd .dmChStatus_state k

/-- Whether a channel runs. -/
def Dev.chRuns (d : Dev) (k : Nat) : Bool := d.chState k = 1 || d.chState k = 2

/-- The size of an element (Table 17-1). -/
def dmSize (x : DmDesc) : Nat := 4 * 2 ^ x.elem

/-- The number of elements of a transfer. -/
def dmTotal (x : DmDesc) : Nat := (x.count0 + 1) * (x.count1 + 1) * (x.count2 + 1)

/-- The loop indices of the i-th element in loop order (R357). -/
def dmIndex (x : DmDesc) (i : Nat) : Nat × Nat × Nat :=
  (i % (x.count0 + 1), i / (x.count0 + 1) % (x.count1 + 1), i / ((x.count0 + 1) * (x.count1 + 1)))

/-- The source address of the i-th element. -/
def dmSrcAt (x : DmDesc) (i : Nat) : Nat :=
  let j := dmIndex x i
  ((x.src : Int) + j.1 * x.srcStep0 + j.2.1 * x.srcStep1 + j.2.2 * x.srcStep2).toNat

/-- The destination address of the i-th element. -/
def dmDstAt (x : DmDesc) (i : Nat) : Nat :=
  let j := dmIndex x i
  ((x.dst : Int) + j.1 * x.dstStep0 + j.2.1 * x.dstStep1 + j.2.2 * x.dstStep2).toNat

/-- Whether the source lies in the device space. -/
def dmSrcDev (x : DmDesc) : Bool := bitAt x.space 0 = 1

/-- Whether the destination lies in the device space. -/
def dmDstDev (x : DmDesc) : Bool := bitAt x.space 1 = 1

/-- The bounding box of a side (R360). -/
def box (base : Nat) (steps : List (Nat × Int)) (e : Nat) : Int × Int :=
  (steps.foldl (fun a s => a + min 0 ((s.1 : Int) * s.2)) (base : Int), steps.foldl (fun a s => a + max 0 ((s.1 : Int) * s.2)) (base : Int) + e - 1)

/-- The source's box. -/
def dmSrcBox (x : DmDesc) : Int × Int :=
  box x.src [(x.count0, x.srcStep0), (x.count1, x.srcStep1), (x.count2, x.srcStep2)] (dmSize x)

/-- The destination's box. -/
def dmDstBox (x : DmDesc) : Int × Int :=
  box x.dst [(x.count0, x.dstStep0), (x.count1, x.dstStep1), (x.count2, x.dstStep2)] (dmSize x)

/-- Whether a device address lies in the register region (Table 17-2). -/
def inRegisters (a : Nat) : Bool := a < 2 ^ 28

/-- Whether a device address lies in the wide region (Table 17-2). -/
def inWides (a : Nat) : Bool := a / 2 ^ 32 = 1 && a / 2 ^ 26 % 4 = 0

/-- Whether a box lies within the host space, or within one device region (R359). -/
def boxOk (device : Bool) (b : Int × Int) : Bool :=
  0 ≤ b.1 && b.2 < 2 ^ 64 &&
    (!device || inRegisters b.2.toNat || (inWides b.1.toNat && b.1.toNat / 2 ^ 26 = b.2.toNat / 2 ^ 26))

/-- The checks at the end of FETCH (R359). -/
def dmBad (x : DmDesc) : Bool :=
  4 < x.elem || 3 < x.space || x.tail ≠ 0 ||
    [(x.src : Int), x.dst, x.srcStep0, x.srcStep1, x.srcStep2, x.dstStep0, x.dstStep1, x.dstStep2].any
      (fun v => v % (dmSize x : Int) ≠ 0) ||
    !boxOk (dmSrcDev x) (dmSrcBox x) || !boxOk (dmDstDev x) (dmDstBox x) ||
    (dmDstDev x && inWides x.dst && [(x.dst : Int), x.dstStep0, x.dstStep1, x.dstStep2].any (fun v => v % 64 ≠ 0))

/-- Whether a transfer runs in strict mode (R360). -/
def dmOverlaps (x : DmDesc) : Bool :=
  dmSrcDev x = dmDstDev x && (dmSrcBox x).1 ≤ (dmDstBox x).2 && (dmDstBox x).1 ≤ (dmSrcBox x).2

/-- DM_CH_INDEX and DM_CH_INDEX2 name an element. -/
def Dev.chIndex (d : Dev) (k i : Nat) : Dev :=
  let j := dmIndex (d.chan k).desc i
  ((d.setCd .dmChIndex_i0 j.1 k).setCd .dmChIndex_i1 j.2.1 k).setCd .dmChIndex2_i2 j.2.2 k

/-- A channel's transfer ends with a code (R364, Table 17-3). -/
def Dev.chEnd (d : Dev) (k code : Nat) : Dev :=
  let d1 := (((d.setCd .dmChStatus_code code k).setCd .dmChStatus_state (if code = 1 ∨ code = 3 then 3 else 4) k).setCd
    .dmChCtl_start 0 k).setCd .dmChCtl_abort 0 k
  let d2 := d1.setChan k { d1.chan k with buf := [], part := [], made := 0, fail := none }
  let d3 := if code ≠ 1 ∨ d.cfg .dmChCtl_irq 0 k = 1 then d2.irq (16 + k) else d2
  if code = 1 then d3
  else d3.raise 6 0x0E01 [(4, k), (4, code), (16, d3.cd .dmChIndex_i0 k), (16, d3.cd .dmChIndex_i1 k),
    (16, d3.cd .dmChIndex2_i2 k)]

/-- START of a channel (R356). -/
def Dev.chStart (d : Dev) (k : Nat) : Dev :=
  if d.chRuns k then d.raise 6 0x0E03 [(4, k), (3, d.chState k)]
  else
    let d1 := [Fld.dmChStatus_overlap, .dmChStatus_code, .dmChStatus_retryOk, .dmChStatus_failWrite, .dmChStatus_failDevice,
      .dmChStatus_failType, .dmChStatus_retries, .dmChIndex_i0, .dmChIndex_i1, .dmChIndex2_i2].foldl
        (fun (d : Dev) f => d.setCd f 0 k) d
    ((d1.setCd .dmChStatus_state 1 k).setCd .dmChCtl_start 1 k).setChan k {}

/-- A running channel is halted from outside, naming the first element not written (R363). -/
def Dev.chHalt (d : Dev) (k code : Nat) : Dev :=
  if d.chRuns k then (d.chIndex k (d.chan k).done).chEnd k code else d

/-- ABORT of a channel. -/
def Dev.chAbort (d : Dev) (k : Nat) : Dev := d.chHalt k 4

/-- The RW fields of DM_CH_CTL are written. -/
def Dev.chFields (d : Dev) (k : Nat) (irq : Bool) (limit : Nat) : Dev :=
  (d.setCd .dmChCtl_irq (if irq then 1 else 0) k).setCd .dmChCtl_retryLimit limit k

/-- The word of DM_CH_CTL with one request bit. -/
def chWord (bit : Nat) (irq : Bool) (limit : Nat) : Nat := 2 ^ bit + (if irq then 4 else 0) + 16 * limit

/-- DM_START: a write of DM_CH_CTL with START. -/
def execDmStart (k : Fin 16) (irq : Bool) (limit : Fin 8) (s : State) : Host.Outcome State Fault Refusal :=
  onWord 0 .dmChCtl k.val 0 (chWord 0 irq limit.val) (fun d => (d.chFields k.val irq limit.val).chStart k.val) s

/-- DM_ABORT: a write of DM_CH_CTL with ABORT. -/
def execDmAbort (k : Fin 16) (irq : Bool) (limit : Fin 8) (s : State) : Host.Outcome State Fault Refusal :=
  onWord 0 .dmChCtl k.val 0 (chWord 1 irq limit.val) (fun d => (d.chFields k.val irq limit.val).chAbort k.val) s

/-- The descriptor of a channel arrives and is checked (R359, R360). -/
def Dev.chFetched (d : Dev) (k : Nat) (x : DmDesc) : Dev :=
  let a := d.wide .dmDescAddr 0 k / 64 * 64
  let d0 : Dev := { d with out := d.out ++ [.hostRead a 64] }
  let d1 := d0.setCd .dmChCtl_start 0 k
  if dmBad x then d1.chEnd k 5
  else
    ((d1.setCd .dmChStatus_state 2 k).setCd .dmChStatus_overlap (if dmOverlaps x then 1 else 0) k).setChan k
      { desc := x, strict := dmOverlaps x }

/-! ### Failures (R361, R362) -/

/-- A channel's failing access is recorded, with event 0x0E02 at most once per channel in each 1 s interval. -/
def Dev.chRecord (d : Dev) (k : Nat) (x : DmFail) : Dev :=
  ((((((d.setCd .dmChStatus_failWrite (if x.write then 1 else 0) k).setCd .dmChStatus_failDevice (if x.device then 1 else 0)
    k).setCd .dmChStatus_failType x.type k).setCd .dmChStatus_retries x.retries k).setWide .dmFailAddr 0 k 0 x.addr).setChan k
      { d.chan k with fail := some x }).raiseOnce 6 0x0E02 k [(4, k), (4, x.type), (48, x.addr % 2 ^ 48)]

/-- A channel's access has failed: it waits 1 µs to repeat it, or ends when its repeats are exhausted. -/
def Dev.chFail (d : Dev) (k : Nat) (x : DmFail) : Dev :=
  let d1 := d.chRecord k x
  if x.retries < d.cfg .dmChCtl_retryLimit 0 k then d1
  else if d.chState k = 1 then d1.chEnd k 6
  else if x.late then (d1.chIndex k (d.chan k).done).chEnd k 3
  else (d1.chIndex k (if x.write then (d.chan k).done else (d.chan k).read)).chEnd k 2

/-- 1 µs after a failure the channel repeats the failed access. -/
def Dev.chRetry (d : Dev) (k : Nat) : Dev :=
  match (d.chan k).fail with
  | some x => if x.waiting then d.setChan k { d.chan k with fail := some { x with retries := x.retries + 1, waiting := false } } else d
  | none => d

/-- DM_RETRY: the failed access of a channel is repeated. -/
def execDmRetry (k : Fin 16) (s : State) : Host.Outcome State Fault Refusal := onDev (fun d => d.chRetry k.val) s

/-- Whether a channel has an access in flight. -/
def Dev.chInFlight (d : Dev) (k : Nat) : Bool :=
  d.chRuns k && (match (d.chan k).fail with | some x => !x.waiting | none => true)

/-- A failure waits no longer: its repeat succeeded. -/
def Dev.chRetried (d : Dev) (k : Nat) : Dev :=
  match (d.chan k).fail with
  | some x => (d.setChan k { d.chan k with fail := none }).setCd .dmChStatus_retries x.retries k
  | none => d

/-- DM_DESC_FETCH_DONE: the descriptor of a channel in FETCH arrives. -/
def execDmDescFetchDone (k : Fin 16) (desc : List Byte) (s : State) : Host.Outcome State Fault Refusal :=
  onDev (fun d => if d.chState k.val = 1 && d.chInFlight k.val then (d.chRetried k.val).chFetched k.val (readChan desc) else d) s

/-- A failing access repeats the count of the failure it repeats. -/
def Dev.chFailed (d : Dev) (k : Nat) (x : DmFail) : Dev :=
  d.chFail k { x with retries := ((d.chan k).fail.map (·.retries)).getD 0 }

/-! ### The host port's rings (R365–R367, R419) -/

/-- Whether the host-port rings run: the device is out of reset and its function is in D0 (R320, R363). -/
def Dev.ringsRun (d : Dev) : Bool := d.boot.run && d.pcieUp

/-- A write of DM_RX_CTL (`none`) or DM_TX_CTL of a class by its fields: RING_LOG2 changes only while ENABLE reads 0. -/
def Dev.ringCtl (d : Dev) (c : Option Nat) (v : Nat) : Dev :=
  match c with
  | none =>
    let d1 := if d.cd .dmRxCtl_enable = 0 then d.setCd .dmRxCtl_ringLog2 (Fld.store .dmRxCtl_ringLog2 (bits v 11 8)) else d
    (((d1.setCd .dmRxCtl_enable (bitAt v 0)).setCd .dmRxCtl_bufKib (Fld.store .dmRxCtl_bufKib (bits v 19 16))).setCd
      .dmRxCtl_irqCh (bits v 27 24)).setCd .dmRxCtl_irqEn (bitAt v 28)
  | some k =>
    let d1 := if d.cd .dmTxCtl_enable k = 0 then d.setCd .dmTxCtl_ringLog2 (Fld.store .dmTxCtl_ringLog2 (bits v 11 8)) k
      else d
    ((d1.setCd .dmTxCtl_enable (bitAt v 0) k).setCd .dmTxCtl_irqCh (bits v 27 24) k).setCd .dmTxCtl_irqEn (bitAt v 28) k

/-- DM_RING_CTL_WRITE: a write of DM_RX_CTL, or of DM_TX_CTL of a class. -/
def execDmRingCtlWrite (c : Option Tc) (v : BitVec 32) (s : State) : Host.Outcome State Fault Refusal :=
  match c with
  | none => onWord 0 .dmRxCtl 0 0 v.toNat (fun d => d.ringCtl none v.toNat) s
  | some k => onWord 0 .dmTxCtl k.val 0 v.toNat (fun d => d.ringCtl (some k.val) v.toNat) s

/-- The new TAIL of a ring of a size; one that would move it backward past descriptors not done is ignored (R246). -/
def newTail (size head tail v : Nat) : Nat :=
  if (v % size + size - head % size) % size < (tail % size + size - head % size) % size then tail else v % size

/-- The entries of the receive ring. -/
def Dev.rxRing (d : Dev) : Nat := 2 ^ d.cfg .dmRxCtl_ringLog2 0

/-- The entries of a transmit ring. -/
def Dev.txRing (d : Dev) (c : Nat) : Nat := 2 ^ d.cfg .dmTxCtl_ringLog2 0 c

/-- TAIL of a transmit ring is written. -/
def Dev.txTail (d : Dev) (c v : Nat) : Dev :=
  d.setCd .dmTxPtr_tail (newTail (d.txRing c) (d.cd .dmTxPtr_head c) (d.cd .dmTxPtr_tail c) v) c

/-- TAIL of the receive ring is written. -/
def Dev.rxTail (d : Dev) (v : Nat) : Dev :=
  d.setCd .dmRxPtr_tail (newTail d.rxRing (d.cd .dmRxPtr_head) (d.cd .dmRxPtr_tail) v)

/-- DM_TX_TAIL_WRITE: a write of DM_TX_PTR of a class. -/
def execDmTxTailWrite (c : Tc) (tail : BitVec 12) (s : State) : Host.Outcome State Fault Refusal :=
  onWord 0 .dmTxPtr c.val 0 (tail.toNat * 2 ^ 16) (fun d => d.txTail c.val tail.toNat) s

/-- DM_RX_TAIL_WRITE: a write of DM_RX_PTR. -/
def execDmRxTailWrite (tail : BitVec 12) (s : State) : Host.Outcome State Fault Refusal :=
  onWord 0 .dmRxPtr 0 0 (tail.toNat * 2 ^ 16) (fun d => d.rxTail tail.toNat) s

/-- Whether the service input has credit for a class: no stall (R203), and the cells a host frame may need (R72, R202). -/
def Dev.hostCredit (d : Dev) (c : Nat) : Bool :=
  d.liveDie 0 && bitAt (d.pd .swPortStatus_xoff 0 36) c = 0 && d.pd .swStatus_globalXoff 0 = 0 && 40 ≤ d.cellsFree 0

/-- The class whose transmit descriptor is taken next (R365). -/
def Dev.txClass (d : Dev) : Option Nat :=
  ((List.range 8).map (7 - ·)).find? (fun c =>
    d.cfg .dmTxCtl_enable 0 c = 1 && d.cd .dmTxPtr_head c % d.txRing c ≠ d.cd .dmTxPtr_tail c % d.txRing c && d.hostCredit c)

/-- The result of a transmit descriptor: STATUS is written and HEAD advances (R365–R367). -/
def Dev.txResult (d : Dev) (c status : Nat) : Dev :=
  let head := d.cd .dmTxPtr_head c
  let d1 := if status = 1 then d
    else (d.bump .dmTxDiscard 0 0 0 1).raise 6 0x0E04 [(3, c), (8, status), (12, head)]
  let d2 : Dev := { d1 with out := d1.out ++ [.hostWrite ((d.wide .dmTxBase 0 c + 32 * head + 24) % 2 ^ 64) (toBytes [status])] }
  let d3 := d2.setCd .dmTxPtr_head ((head + 1) % d.txRing c) c
  if d.cfg .dmTxCtl_irqEn 0 c = 1 then d3.irq (16 + d.cfg .dmTxCtl_irqCh 0 c) else d3

/-- A host frame enters the service channel whole, in the class of its ring, with its stamp at the entry (R219, R264). -/
def Dev.hostFrame (d : Dev) (c : Nat) (x : TxDesc) (b : List Byte) (slow : Nat) (read : List BadWord) : Dev :=
  let f0 : Frame := { id := d.net.nextId, die := 0, port := 132, take := d.takeOf 0, bytes := [], maxlen := 10240,
                      stamp := stampAt (d.instant 4) 0,
                      oneStep := if x.mode = 0 then none else some ⟨x.mode, x.tag, x.ref⟩ }
  let f1 := f0.receive b
  let f2 := d.serviceFrame
    { f1 with whole := true, known := true, work := { f1.work with tc := c }, init := { f1.init with tc := c } } slow
  let d1 := d.noteBad read
  let d2 : Dev := { d1 with net := { d1.net with nextId := d1.net.nextId + 1, frames := d1.net.frames ++ [f2] } }
  (d2.rxStats 132 (b.length + 4) (beNat (b.take 6))).startWalk f2 read

/-- The engine takes a transmit descriptor with what reading its frame gave. -/
def Dev.txFrame (d : Dev) (c : Nat) (x : TxDesc) (data : Option (List Byte)) (slow : Nat) (read : List BadWord) : Dev :=
  if x.len < 60 ∨ 10236 < x.len ∨ x.clean = false then d.txResult c 3
  else
    match data with
    | none => d.txResult c 2
    | some b => if b.length = x.len then (d.hostFrame c x b slow read).txResult c 1 else d

/-- DM_TX_FRAME: the engine takes the descriptor at HEAD of the highest class with credit; `data` is the frame host memory
holds, `none` when it cannot be read. -/
def execDmTxFrame (desc : List Byte) (data : Option (List Byte)) (meets : Entered) (s : State) :
    Host.Outcome State Fault Refusal :=
  onDev (fun d =>
    if d.ringsRun then
      match d.txClass with
      | some c => d.txFrame c (readTx desc) data meets.slow meets.bad
      | none => d
    else d) s

/-- The receive record of a copy (Table 17-6). -/
def RxItem.bytes64 (x : RxItem) (buf stored : Nat) : List Nat :=
  leBytes 8 buf ++ leBytes 2 x.bytes.length ++ leBytes 2 stored ++
    [x.inport, x.tc + (if stored < x.bytes.length then 8 else 0) + (if x.malformed then 16 else 0) + 32, x.code, x.hdr] ++
    leBytes 4 (x.stamp % 2 ^ 32) ++ leBytes 8 (x.stamp / 2 ^ 32) ++ [x.take % 16] ++ List.replicate 35 0

/-- A copy for port 132 is written into the buffer of the entry at HEAD, then its record (R367). -/
def Dev.rxFrame (d : Dev) (x : RxItem) (buf : Nat) : Dev :=
  let stored := min x.bytes.length (d.cfg .dmRxCtl_bufKib 0 * 1024)
  let head := d.cd .dmRxPtr_head
  let d1 : Dev := { d with
    dma := { d.dma with rxq := d.dma.rxq.tail }
    out := d.out ++ [.hostWrite buf (x.bytes.take stored),
                     .hostWrite ((d.wide .dmRxBase 0 + 64 * head) % 2 ^ 64) (toBytes (x.bytes64 buf stored))] }
  let d2 := (d1.txStats 132 (x.bytes.length + 4) 0).setCd .dmRxPtr_head ((head + 1) % d.rxRing)
  if d.cfg .dmRxCtl_irqEn 0 = 1 then d2.irq (16 + d.cfg .dmRxCtl_irqCh 0) else d2

/-- DM_RX_RECORD: the oldest copy of the receive queue is written into the buffer at HEAD, whose BUF is `buf`. -/
def execDmRxRecord (buf : BitVec 64) (s : State) : Host.Outcome State Fault Refusal :=
  onDev (fun d =>
    match d.dma.rxq with
    | x :: _ =>
      if d.ringsRun && d.cfg .dmRxCtl_enable 0 = 1 && d.cd .dmRxPtr_head % d.rxRing ≠ d.cd .dmRxPtr_tail % d.rxRing then
        d.rxFrame x buf.toNat
      else d
    | [] => d) s

end Sys2Proof.Machine
end

