-- ==== Sys2Proof/Machine/LaneTest.lean ====
section
/-! DEFINITION. Lane tests (R287–R290, Tables 13-2 to 13-5). -/

namespace Sys2Proof.Machine

/-! ### Starting (Table 13-4) -/

/-- Whether a lane has test registers that can be reached now. -/
def Dev.laneThere (d : Dev) : LaneId → Bool
  | .line s => s < 128 && d.railOn (s / 32)
  | .fabric a b k => d.link a b && k < 48
  | .cont k => k < 4

/-- The RW fields of LN_TEST_CTL as a write carries them. -/
def Dev.lnFields (d : Dev) (l : LaneId) (source loopback duration : Nat) : Dev :=
  ((d.lnSet l .lnTestCtl_source (Fld.store .lnTestCtl_source source)).lnSet l .lnTestCtl_loopback loopback).lnSet l
    .lnTestCtl_duration duration

/-- The checkers of a test are not locked yet. -/
def Dev.lnUnlock (d : Dev) (l : LaneId) : Dev :=
  let d1 := d.lnSet l .lnTestStatus_lock 0
  match LaneId.far l with
  | some m => if d.lnFld l .lnTestCtl_loopback = 0 then d1.lnSet m .lnTestStatus_lock 0 else d1
  | none => d1

/-- The test runs. -/
def Dev.lnRun (d : Dev) (l : LaneId) : Dev := ((d.lnSet l .lnTestStatus_state 2).lnSet l .lnTestStatus_code 0).lnUnlock l

/-- START: the outcome of Table 13-4.  A lane already in a test is refused. -/
def Dev.lnStart (d : Dev) (l : LaneId) : Dev :=
  let busy := d.lnSet l .lnTestStatus_code 2
  if d.lnFld l .lnTestStatus_state ∈ [1, 2, 3] then busy
  else
    match l with
    | .line s => if sbSlot d.boot.sb s = .unused ∨ d.linkState (d.slotPort s) = 0 then d.lnRun l else busy
    | .cont _ => if d.cd .duStatus_duo = 1 then busy else d.lnRun l
    | .fabric a b k =>
      if d.mayTake a b k then
        (((d.drainLane a b k 5 4).lnSet l .lnTestStatus_state 1).lnSet l .lnTestStatus_code 0).lnUnlock l
      else if d.laneState a b k = 6 then ((d.pairTo a b k 4).setLaneX { d.pairX a b k with cause := 5 }).lnRun l
      else busy

/-- LN_TEST_START: a write of LN_TEST_CTL with START set. -/
def execLnTestStart (l : LaneId) (source : Fin 8) (loopback : Fin 4) (duration : BitVec 16) (s : State) :
    Host.Outcome State Fault Refusal :=
  onWord (LaneId.place l).1 .lnTestCtl (LaneId.place l).2.1 (LaneId.place l).2.2
    (source.val + 2 ^ 4 * loopback.val + 2 ^ 8 + 2 ^ 16 * duration.toNat)
    (fun d => if d.laneThere l then (d.lnFields l source loopback duration.toNat).lnStart l else d) s

/-! ### Ending (R290) -/

/-- A test ends at its DURATION or STOP: a fabric lane recalibrates and qualifies first. -/
def Dev.lnFinish (d : Dev) (l : LaneId) : Dev :=
  if d.lnFld l .lnTestStatus_state = 2 then
    match l with
    | .fabric a b k => (d.lnSet l .lnTestStatus_state 3).pairTo a b k 2
    | _ => d.lnEnd l 1
  else d

/-- LN_TEST_STOP: a write of LN_TEST_CTL with STOP set, with what the checkers have counted: the lane's own, and that of a fabric
lane's other end. -/
def execLnTestStop (l : LaneId) (bits errors syncs : Counts) (s : State) : Host.Outcome State Fault Refusal :=
  onReg (LaneId.place l).1 .lnTestCtl (LaneId.place l).2.1 (LaneId.place l).2.2 (2 ^ 9)
    (fun d => if d.laneThere l then
        (d.lnCounts l ⟨bits.near, errors.near, syncs.near⟩ ⟨bits.far, errors.far, syncs.far⟩).lnFinish l else d) s

/-- CLEAR: the checker's counters are zeroed. -/
def Dev.lnClear (d : Dev) (l : LaneId) : Dev :=
  let p := LaneId.place l
  ((d.setWide .lnBits p.1 p.2.1 p.2.2 0).setWide .lnBitErrors p.1 p.2.1 p.2.2 0).setWide .lnSyncErrors p.1 p.2.1 p.2.2 0

/-- LN_TEST_CLEAR: a write of LN_TEST_CTL with CLEAR set. -/
def execLnTestClear (l : LaneId) (s : State) : Host.Outcome State Fault Refusal :=
  onReg (LaneId.place l).1 .lnTestCtl (LaneId.place l).2.1 (LaneId.place l).2.2 (2 ^ 10)
    (fun d => if d.laneThere l then d.lnClear l else d) s

/-- LN_TEST_DURATION_END: DURATION has elapsed, with what the checkers have counted. -/
def execLnTestDurationEnd (l : LaneId) (bits errors syncs : Counts) (s : State) : Host.Outcome State Fault Refusal :=
  onDev (fun d =>
    if d.laneThere l ∧ d.lnFld l .lnTestCtl_duration ≠ 0 then
      (d.lnCounts l ⟨bits.near, errors.near, syncs.near⟩ ⟨bits.far, errors.far, syncs.far⟩).lnFinish l
    else d) s

/-! ### Error injection (R289) -/

/-- The lane of this device whose checker receives what a lane's generator sends, if any: the peer die's for a fabric lane
without loopback, its own with one, and its own when a fibre loops it. -/
def Dev.checkedBy (d : Dev) (l : LaneId) (looped : Bool) : Option LaneId :=
  if d.lnFld l .lnTestCtl_loopback ≠ 0 then some l
  else match l with
    | .fabric _ _ _ => LaneId.far l
    | .line _ => if looped then some l else none
    | .cont _ => none

/-- What one injection adds to the checker: bit errors, and in IDLE invalid headers and block errors.  A burst in IDLE can
cross one block boundary, which the n-th draw decides. -/
def injected (kind len source draw : Nat) : Nat × Nat :=
  if source = 5 then (0, if kind = 1 then 1 + draw % 2 else 1)
  else (if kind = 1 then len else 1, 0)

/-- INJECT. -/
def Dev.lnInject (d : Dev) (l : LaneId) (looped : Bool) : Dev :=
  let kind := d.lnFld l .lnInjCtl_kind
  let source := d.lnFld l .lnTestCtl_source
  if d.lnFld l .lnTestStatus_state ≠ 2 then d
  else if kind = 2 ∧ source ≠ 5 then d.lnSet l .lnTestStatus_code 5
  else
    match d.checkedBy l looped with
    | none => d
    | some m =>
      let n := d.lnFld l .lnInjCtl_count
      let one := fun k => injected kind (d.lnFld l .lnInjCtl_len) source (Config.draw (d.net.draws + k))
      let bitsN := (List.range n).foldl (fun a k => a + (one k).1) 0
      let syncN := (List.range n).foldl (fun a k => a + (one k).2) 0
      ({ d with net := { d.net with draws := d.net.draws + n } }.lnBump m .lnBitErrors bitsN).lnBump m .lnSyncErrors syncN

/-- The RW fields of LN_INJ_CTL as a write carries them. -/
def Dev.injFields (d : Dev) (l : LaneId) (kind len count : Nat) : Dev :=
  ((d.lnSet l .lnInjCtl_kind (Fld.store .lnInjCtl_kind kind)).lnSet l .lnInjCtl_len (Fld.store .lnInjCtl_len len)).lnSet l
    .lnInjCtl_count (Fld.store .lnInjCtl_count count)

/-- LN_INJECT: a write of LN_INJ_CTL with INJECT set; `looped` says whether a fibre joins the lane's ends. -/
def execLnInject (l : LaneId) (kind : Fin 4) (len : BitVec 7) (count : BitVec 16) (looped : Bool) (s : State) :
    Host.Outcome State Fault Refusal :=
  onWord (LaneId.place l).1 .lnInjCtl (LaneId.place l).2.1 (LaneId.place l).2.2
    (kind.val + 2 ^ 2 * len.toNat + 2 ^ 9 + 2 ^ 16 * count.toNat)
    (fun d => if d.laneThere l then (d.injFields l kind len.toNat count.toNat).lnInject l looped else d) s

/-! ### The checker's lock (R287) -/

/-- The exponents of a PRBS polynomial (Table 13-2). -/
def prbsTaps : Nat → Option (Nat × Nat)
  | 0 => some (7, 6)
  | 1 => some (15, 14)
  | 2 => some (23, 18)
  | 3 => some (31, 28)
  | _ => none

/-- Whether received bits lock the checker: 64 consecutive bits match its prediction, which a PRBS seeds with the bits before
them and USER with its place in the pattern.  IDLE locks by block lock (R287, Table 13-2). -/
def checkerLocks (source user : Nat) (rx : List Bool) : Bool :=
  match prbsTaps source with
  | some (n, m) =>
    rx.length = n + 64 && (List.range 64).all (fun t => rx[n + t]? = some (xor ((rx[t]?).getD false) ((rx[n + t - m]?).getD false)))
  | none =>
    source = 5 || (rx.length = 64 && (List.range 64).any (fun r =>
      (List.range 64).all (fun t => rx[t]? = some (decide (bitAt user ((r + t) % 64) = 1)))))

/-- LN_CHECKER_LOCK: 64 consecutive bits match the prediction; those received that seed it come first. -/
def execLnCheckerLock (x : LaneId × List Bool) (s : State) : Host.Outcome State Fault Refusal :=
  onDev (fun d =>
    match d.lnTestOf x.1 with
    | some t =>
      let p := LaneId.place t
      if d.laneThere x.1 && checkerLocks (d.lnFld t .lnTestCtl_source) (d.wide .lnUserPattern p.1 p.2.1 p.2.2) x.2 then
        d.lnSet x.1 .lnTestStatus_lock 1
      else d
    | none => d) s

/-- LN_CHECKER_LOCK_LOST: a checker in lock finds 16 errors within 64 bits. -/
def execLnCheckerLockLost (x : LaneId × Fin 65) (s : State) : Host.Outcome State Fault Refusal :=
  onDev (fun d =>
    if d.laneThere x.1 ∧ d.lnFld x.1 .lnTestStatus_lock = 1 ∧ 16 ≤ x.2.val then
      (d.lnSet x.1 .lnTestStatus_lock 0).lnSet x.1 .lnTestStatus_lockLostSticky 1
    else d) s

end Sys2Proof.Machine
end

