-- ==== Sys2Proof/Machine/Observe.lean ====
section
/-! DEFINITION. Observability: statistics snapshots (R372), bandwidth windows (R374), delivery of records (R383, R384),
summaries (R386), incidents and first-take buffers (R388, R389), and the fatal write (R391). -/

namespace Sys2Proof.Machine

/-! ### Records as bytes (Table 18-5) -/

/-- The 32 bytes of a record, with bits added to its CLASS. -/
def EvRec.bytes (e : EvRec) (cls : Nat) : List Nat :=
  let b := leBytes 8 e.time ++ leBytes 2 e.code ++ [e.source % 256, (e.cls ||| cls) % 256] ++ leBytes 2 e.seq ++ [0, 0] ++
    leBytes 12 e.payload
  b ++ leBytes 4 (crc32 b)

/-! ### Statistics and bandwidth -/

/-- OB_SNAP_CTL.SNAP: the 64 statistics of a slot are copied into the die's shadow set. -/
def Dev.obSnap (d : Dev) (n s : Nat) : Dev :=
  (List.range 64).foldl (fun d i =>
    d.setWide .obSnap (n + 1) i 0 (if d.portExists (32 * n + s) then d.wide .obStat (n + 1) s i else 0)) d

/-- OB_SNAP: a write of OB_SNAP_CTL with SNAP set. -/
def execObSnap (n : Die) (slot : Fin 32) (s : State) : Host.Outcome State Fault Refusal :=
  onWord (n.val + 1) .obSnapCtl 0 0 (slot.val + 2 ^ 8) (fun d => (d.setPd .obSnapCtl_port n slot).obSnap n slot) s

/-- A port's bandwidth window ends: its values are those of Table 18-2. -/
def Dev.bwEnd (d : Dev) (q : Nat) : Dev :=
  let x := (d.obs.bw.find? (fun e => e.1 = q)).getD (q, 0, 0, 0, 0, 0)
  let w := q / 32 + 1
  let s := q % 32
  let d1 := (d.setWide .obBw w s 0 x.2.1).setWide .obBw w s 1 x.2.2.1
  let d2 := (d1.setWide .obBw w s 2 (max (d.wide .obBw w s 2) x.2.1)).setWide .obBw w s 3 (max (d.wide .obBw w s 3) x.2.2.1)
  let d3 := (d2.setWide .obBw w s 4 x.2.2.2.1).setWide .obBw w s 5 x.2.2.2.2.1
  { d3 with obs := { d3.obs with bw := d3.obs.bw.filter (fun e => e.1 ≠ q) } }

/-- Whether a whole multiple of a length in µs lies between the end of a port's last window and now in device time. -/
def Dev.bwPassed (d : Dev) (q us : Nat) : Bool :=
  d.now (q / 32) / (us * 1000) ≠ (aget d.obs.bwAt q).getD 0 / (us * 1000)

/-- A port's next window begins, of the length that OB_BW_CTL holds when `fresh`. -/
def Dev.bwNext (d : Dev) (q : Nat) (fresh : Bool) : Dev :=
  { d with obs := { d.obs with
      bw := d.obs.bw.filter (fun e => e.1 ≠ q)
      bwAt := aset d.obs.bwAt q (d.now (q / 32))
      bwOld := if fresh then adel d.obs.bwOld q else d.obs.bwOld } }

/-- A bandwidth window ends at a whole multiple of its length.  A new WINDOW_US applies from the next multiple of its own
length, and until then windows of the old length run on (R374); what the last of them leaves incomplete is dropped. -/
def Dev.bwTick (d : Dev) (q : Nat) : Dev :=
  let new := d.cfg .obBwCtl_windowUs (q / 32 + 1) (q % 32)
  let old := (aget d.obs.bwOld q).getD new
  let d1 := if d.bwPassed q old then d.bwEnd q else d
  if d.bwPassed q new then d1.bwNext q true else if d.bwPassed q old then d1.bwNext q false else d

/-- A write of OB_BW_CTL: the length in force until the new one applies is kept. -/
def Dev.bwLength (d was : Dev) (q : Nat) : Dev :=
  let old := was.cfg .obBwCtl_windowUs (q / 32 + 1) (q % 32)
  if d.cfg .obBwCtl_windowUs (q / 32 + 1) (q % 32) = old ∨ (aget d.obs.bwOld q).isSome = true then d
  else { d with obs := { d.obs with bwOld := aset d.obs.bwOld q old } }

/-- A step of device time ends the running window, and the next aligns to the new time (R374). -/
def Dev.bwStep (d : Dev) (q : Nat) : Dev := (d.bwEnd q).bwNext q true

/-- BW_WINDOW_END: the bandwidth window of a line port ends. -/
def execBwWindowEnd (q : LinePort) (s : State) : Host.Outcome State Fault Refusal :=
  onDev (fun d => if d.liveDie (q.val / 32) ∧ d.portExists q = true then d.bwTick q else d) s

/-! ### Delivery (R383, R384) -/

/-- The rings that hold records, with the oldest record of each. -/
def Dev.ringHeads (d : Dev) : List (Nat × EvRec) :=
  [0, 1, 2, 3, 4].filterMap (fun r => (d.ring r).recs.head?.map (fun e => (r, e)))

/-- Whether a record of ring r is earlier than one delivered from another ring. -/
def Dev.outOfOrder (d : Dev) (r : Nat) (e : EvRec) : Bool :=
  d.obs.delivered.any (fun x => x.1 ≠ r && decide (diff64 e.time x.2 < 0))

/-- The earliest of some records; of equal times, the first. -/
def earliest : List (Nat × EvRec) → Option (Nat × EvRec)
  | [] => none
  | x :: t =>
    match earliest t with
    | some y => if diff64 y.2.time x.2.time < 0 then some y else some x
    | none => some x

/-- The next record to deliver, with whether it is out of time order: one that is goes at once, any other once 20 µs of CD
time have passed since its own. -/
def Dev.nextRecord (d : Dev) : Option (Nat × EvRec × Bool) :=
  match d.ringHeads.find? (fun x => d.outOfOrder x.1 x.2) with
  | some x => some (x.1, x.2, true)
  | none =>
    match earliest d.ringHeads with
    | some x => if 20000 ≤ diff64 (d.now 4) x.2.time then some (x.1, x.2, false) else none
    | none => none

/-- The size of the host event ring. -/
def Dev.hostRing (d : Dev) : Nat := 2 ^ d.cfg .obDCtl_ringLog2 0

/-- Whether the host event ring is full. -/
def Dev.hostRingFull (d : Dev) : Bool :=
  (d.cd .obDWptr_wptr + 1) % d.hostRing = d.cfg .obDRptr_rptr 0 % d.hostRing

/-- Whether records may be written to the host. -/
def Dev.delivers (d : Dev) : Bool := d.boot.run && d.pcieUp && d.cfg .obDCtl_enable 0 = 1

/-- One record is written to the host ring, and its ring gives it up. -/
def Dev.deliver (d : Dev) (r : Nat) (e : EvRec) (late : Bool) : Dev :=
  let x := d.ring r
  let last := match aget d.obs.delivered r with | some t => if diff64 t e.time < 0 then e.time else t | none => e.time
  let d1 := d.setRing r { x with recs := x.recs.tail }
  let d2 : Dev := { d1 with
    obs := { d1.obs with delivered := aset d1.obs.delivered r last }
    out := d1.out ++ [.hostWrite (d.wide .obDBase 0 + 32 * d.cd .obDWptr_wptr) (toBytes (e.bytes (if late then 8 else 0)))] }
  let d3 := (d2.setCd .obDWptr_wptr ((d.cd .obDWptr_wptr + 1) % d.hostRing)).bump .obDDelivered 0 0 0 1
  (if late then d3.bump .obDLateOrder 0 0 0 1 else d3).irq 5

/-- RECORD_DELIVER: the CD writes the next record to the host event ring. -/
def execRecordDeliver (s : State) : Host.Outcome State Fault Refusal :=
  onDev (fun d =>
    if d.delivers ∧ d.hostRingFull = false then
      match d.nextRecord with
      | some x => d.deliver x.1 x.2.1 x.2.2
      | none => d
    else d) s

/-- OB_D_RPTR_WRITE: a write of OB_D_RPTR. -/
def execObDRptrWrite (v : BitVec 20) (s : State) : Host.Outcome State Fault Refusal :=
  onWord 0 .obDRptr 0 0 v.toNat (fun d => d.setCd .obDRptr_rptr v.toNat) s

/-- HOST_RING_FULL_1MS: the host event ring has been full for 1 ms. -/
def execHostRingFull1ms (s : State) : Host.Outcome State Fault Refusal :=
  onDev (fun d =>
    if d.hostRingFull = true then
      d.raise 6 0x1105 [(32, ([0, 1, 2, 3, 4].map (fun r => (d.ring r).recs.length)).sum)]
    else d) s

/-! ### Summaries, incidents and first-take buffers -/

/-- The summary of a code leaves its ring when the emission bucket holds a token, and waits otherwise (R385, R386). -/
def Dev.summary (d : Dev) (r : Nat) (c : Coalesced) : Dev :=
  if d.bucket (.emission r) < 500 then d
  else
    let x := d.ring r
    let e : EvRec := { time := c.last, code := c.code, source := c.source, cls := 3 + 16 * c.cls, seq := x.seq,
                       payload := packPayload [(32, c.count), (48, c.first % 2 ^ 48)] }
    let y := { x.ftbTake e with summ := x.summ.filter (fun z => z.code ≠ c.code), seq := (x.seq + 1) % 2 ^ 16 }
    let d1 := (((d.setRing r y).bump .obRaised (ringWin r) 0 0 1).setBucket (.emission r) (d.bucket (.emission r) - 500)).pushRec
      r e
    (if d1.spilling then { d1 with out := d1.out ++ [.spill e false] } else d1).counted d r

/-- SUMMARY_RAISE: a whole second of device time has ended on a ring's island in which codes were coalesced. -/
def execSummaryRaise (r : Isl) (s : State) : Host.Outcome State Fault Refusal :=
  onDev (fun d => (d.ring r).summ.foldl (fun (a : Dev) c =>
    if c.first / 1000000000 = d.now r.val / 1000000000 then a else a.summary r c) d) s

/-- The device number that raises the records of a ring's own machinery. -/
def ringDie (r : Nat) : Nat := if r < 4 then r else 6

/-- INCIDENT_END: 1 s has passed on a ring without loss and with FILL below 25%. -/
def Dev.incidentEnd (d : Dev) (r : Nat) : Dev :=
  let x := d.ring r
  if x.incident ∧ x.recs.length * 4 < 8192 then
    (d.setRing r { x with incident := false, incAlarm := 0, incLog := 0, incTrace := 0 }).raise (ringDie r) 0x1103 [(32, x.incAlarm), (32, x.incLog), (32, x.incTrace)]
  else d

/-- INCIDENT_END. -/
def execIncidentEnd (r : Isl) (s : State) : Host.Outcome State Fault Refusal := onDev (fun d => d.incidentEnd r) s

/-- OB_INC_CTL.TRIGGER: an incident begins with cause SOFTWARE; a trigger during an incident has no further effect. -/
def Dev.obTrigger (d : Dev) (r : Nat) : Dev := if (d.ring r).incident then d else d.beginIncident r 5 []

/-- OB_TRIGGER: a write of OB_INC_CTL.TRIGGER. -/
def execObTrigger (r : Isl) (s : State) : Host.Outcome State Fault Refusal :=
  onReg (ringWin r) .obIncCtl 0 0 1 (fun d => d.obTrigger r) s

/-- OB_INC_CTL.FTB_RELEASE: the first-take buffer is emptied. -/
def Dev.ftbRelease (d : Dev) (r : Nat) : Dev := d.setRing r { d.ring r with ftbState := 0, ftb := [] }

/-- FTB_RELEASE: a write of OB_INC_CTL.FTB_RELEASE. -/
def execFtbRelease (r : Isl) (s : State) : Host.Outcome State Fault Refusal :=
  onReg (ringWin r) .obIncCtl 0 0 2 (fun d => d.ftbRelease r) s

/-- OB_FATAL: a write of OB_FATAL.FATAL. -/
def execObFatal (s : State) : Host.Outcome State Fault Refusal := onReg 0 .obFatal 0 0 1 (fun d => d.fatal 5 []) s

end Sys2Proof.Machine
end

