-- ==== Sys2Proof/Machine/Reads.lean ====
section
/-! DEFINITION. What registers read (R341, R348, R418): the fields that show other state, and the effects of a read. -/

namespace Sys2Proof.Machine

/-- A set of numbers below n as bits. -/
def bitsWhere (n : Nat) (p : Nat → Bool) : Nat := (List.range n).foldl (fun a k => if p k then a + 2 ^ k else a) 0

/-- The patterns of the current take held on a die (CL_TREE_CTL.PATTERNS). -/
def Dev.patternsHeld (d : Dev) (n : Nat) : Nat :=
  (d.plc.pats.filter (fun x => x.v.applies (d.takeOf n) &&
    (match d.obj x.g (d.takeOf n) with | some o => (portsOf o.data).any (fun p => dieOf p = n) | none => false))).length

/-- What stands in a timed-action entry, as STATE and KIND. -/
def Dev.timerEntry (d : Dev) (i : Nat) : Nat × Nat :=
  match aget d.tm.ta i with
  | some e => (if e.dispatched then 2 else 1, e.kind)
  | none => (0, 0)

/-- The captures that wait on a die (R270). -/
def Dev.capturesOn (d : Dev) (n : Nat) : List (Nat × CapEntry) := d.tm.caps.filter (fun e => e.1 = n)

/-- A field that shows state with a home of its own, or the storyboard's choices; `none` for one that holds its value. -/
def Dev.shown (d : Dev) (f : Fld) (w i : Nat) : Option Nat :=
  let n := w - 1
  match f with
  | .ptPortStatus_speed => some (d.portSpeed (32 * n + i))
  | .ptPortStatus_fec => some (d.portFec (32 * n + i))
  | .lnTsDelay_rxDelay => some (Config.rxDelay (32 * n + i) (d.portRate (32 * n + i))).toNat
  | .lnTsDelay_txDelay => some (Config.txDelay (32 * n + i) (d.portRate (32 * n + i))).toNat
  | .opLanePower_txPower => if d.modulatorDark (64 * (w - 5) + i) then some 0x8000 else none
  | .opLanePower_rxPower => if d.slotOn (64 * (w - 5) + i) then none else some 0x8000
  | .ptPfcStatus_txXoff => some (bitsWhere 8 (fun c => (d.xoffClasses (32 * n + i)).contains c))
  | .ptPfcStatus_rxPaused => some (bitsWhere 8 (fun c => (d.tx (32 * n + i)).held.contains c))
  | .fpPortStatus_up => some (if d.cd .fpPortStatus_up i = 1 ∧ d.inRun = true then 1 else 0)
  | .tkStatus_current => some d.curTake
  | .tkStatus_drainOld => some (if 2 ≤ d.tak.live.length then d.oldest else 0)
  | .tkStatus_drainNew => some (if d.tak.live.length = 3 then d.tak.live.getD 1 0 else 0)
  | .tkStatus_live => some (max 1 d.tak.live.length)
  | .tkStatus_waiting => some (if d.tak.commits.any (fun c => c.step = .active) then 1 else 0)
  | .tkInflight_count => some (d.inflight n i)
  | .clPipeStatus_slotsUsed => some ((d.plc.cam.filter (fun e => e.die = n && e.pipe = i)).foldl (fun a e => a + e.size * e.parts) 0)
  | .clInspectStatus_window =>
    some (match d.boot.sb.window.getD n 128 with | 64 => 0 | 256 => 2 | _ => 1)
  | .clInspectStatus_treeHalf => some (d.halfNow false n)
  | .clInspectStatus_patternBank => some (d.halfNow true n)
  | .clInspectStatus_build =>
    some (if d.plc.jobs.any (fun x => x.die = n && x.full) then 2 else if d.plc.jobs.any (fun x => x.die = n) then 1 else 0)
  | .clInspectPorts_ports => some (bitsWhere 32 (fun s => d.boot.sb.inspect.contains (32 * n + s)))
  | .clInspectUse_ruleUnits => some (d.unitsUsed n false)
  | .clTreeCtl_patterns => some (d.patternsHeld n)
  | .aeCtl_budget => some (d.budgetCode n)
  | .aeStatus_programs => some (d.boot.sb.programs.filter (fun p => p.die = n)).length
  | .fwStatus_fill => some (d.fillPct n)
  | .swStatus_cellsUsed => some (d.cellsUsed n)
  | .miSession_handle => some ((((d.mirrors (d.takeOf n)).find? (fun x => x.1 = i)).map (·.2.1)).getD 0)
  | .plStatus_busy => some (if d.plBusy then 1 else 0)
  | .plStatus_waitRoom => some (if d.plc.wait.isSome then 1 else 0)
  | .plStatus_moving => some (if d.tak.commits.any (·.move.isSome) then 1 else 0)
  | .tmTaStatus_used => some d.tm.ta.length
  | .tmTaEntry_state => some (d.timerEntry i).1
  | .tmTaEntry_kind => some (d.timerEntry i).2
  | .tmDieStatus_capCount => some (min 63 (d.capturesOn n).length)
  | .tmCapStatus_full => some (if 64 ≤ (d.capturesOn n).length then 1 else 0)
  | .fbLinkCtl_policy => some (if d.idleEligible n i then 1 else 0)
  | .fbLinkStatus_inService => some (if d.link n i then (d.inService n i).length else 0)
  | .fbLinkStatus_awake => some (if d.link n i then (d.awake n i).length else 0)
  | .dvFaultCtl_faultNState => some (if d.faultN then 1 else 0)
  | .hiId_pdPowered => some (bitsWhere 4 d.railOn)
  | .hiId_oePowered => some (bitsWhere 2 (fun k => d.railOn (4 + k)))
  | .hiErrlogStatus_count => some d.errlog.length
  | .hiParityStatus_safe => some (bitsWhere 8 (fun x => d.safe.any (fun k => k.w = x)))
  | .obSampleStatus_count => some (d.obs.samples.filter (fun e => e.1 = n)).length
  | .obRingStatus_fill => some (d.ring (if w = 0 then 4 else n)).recs.length
  | .obRingStatus_incident => some (if (d.ring (if w = 0 then 4 else n)).incident then 1 else 0)
  | .obRingStatus_ftbState => some (d.ring (if w = 0 then 4 else n)).ftbState
  | .obRingStatus_ftbCount => some (d.ring (if w = 0 then 4 else n)).ftb.length
  | .obAlarmSummary_pd => some (bitsWhere 4 (fun r => (d.ring r).latched))
  | .obAlarmSummary_cd => some (if (d.ring 4).latched then 1 else 0)
  | _ => none

/-- What a field reads. -/
def Dev.fieldNow (d : Dev) (f : Fld) (w i j : Nat) : Nat := (d.shown f w i).getD (d.fld f w i j)

/-- What a register reads; one of a port that does not exist reads 0 (R418). -/
def Dev.regWord (d : Dev) (r : Reg) (w i j : Nat) : Nat :=
  if d.ghost r w i then 0
  else r.flds.foldl (fun a f => a + d.fieldNow f w i j % 2 ^ (f.info.hi + 1 - f.info.lo) * 2 ^ f.info.lo) 0

/-- What a read does to a register: its RC fields clear, and a read of WMB_D3 clears VALID (R341, R345). -/
def Dev.readEffect (d : Dev) (r : Reg) (w i j : Nat) : Dev :=
  if r = .wmbD ∧ i = 3 then d.setFld .wmbCtl_valid w 0 0 0
  else r.flds.foldl (fun d f => if f.info.acc = .rc then d.setFld f w i j 0 else d) d

/-- A register of the mailbox (R344). -/
def Reg.mailbox : Reg → Bool
  | .wmbSel | .wmbCtl | .wmbD => true
  | _ => false

/-- A register of the MSI-X structures (Table 16-1). -/
def Reg.msix : Reg → Bool
  | .msixTable | .msixPba => true
  | _ => false

/-- What an access to an offset of a window through an alias meets: a register with its indices, or a bus error type
(Table 16-9). -/
inductive Target where
  | reg (r : Reg) (i j : Nat)
  | error (type : Nat)
  deriving DecidableEq, Repr

/-- What an access meets. -/
def Dev.target (d : Dev) (alias_ w off : Nat) (isRead : Bool) : Target :=
  if 9 ≤ w then .error 1
  else if w = 8 ∧ isRead then .error 5
  else if w < 8 ∧ d.winPowered w = false then .error 2
  else
    match regAt (if w = 8 then 1 else w) off with
    | some (r, i, j) => if alias_ ≠ 0 ∧ (r.mailbox || r.msix) then .error 6 else .reg r i j
    | none => .error 1

/-- A read by its alias, window and offset: the word, or the type of the bus error it meets (R348). -/
def Dev.readReg (d : Dev) (alias_ w off : Nat) : Dev × Sum Nat Nat :=
  match d.target alias_ w off true with
  | .reg r i j => (d.readEffect r w i j, .inl (d.regWord r w i j))
  | .error t => (d.bump .hiReadAbort 0 0 0 1, .inr t)

/-- A read by the host, whose word is the last read's data. -/
def Dev.hostRead (d : Dev) (alias_ w off : Nat) : Dev :=
  match d.readReg alias_ w off with
  | (d1, .inl v) => { d1 with readData := some v }
  | (d1, .inr _) => d1

/-- The alias, window and offset that a BAR0 offset names (R339). -/
def splitBar (a : Nat) : Nat × Nat × Nat := (bits a 27 26, bits a 25 22, bits a 21 0)

/-- A read by the host of a form: the MSI-X structures also answer aligned reads of eight bytes (R340). -/
def Dev.formRead (d : Dev) (a : Nat) (form : AccForm) : Dev :=
  let p := splitBar a
  let fail := d.bump .hiReadAbort 0 0 0 1
  match form with
  | .dword => if a % 4 = 0 then d.hostRead p.1 p.2.1 p.2.2 else fail
  | .qword =>
    if a % 8 = 0 then
      match d.target p.1 p.2.1 p.2.2 true, d.target p.1 p.2.1 (p.2.2 + 4) true with
      | .reg r i j, .reg r2 i2 j2 =>
        if r.msix && r2.msix then { d with readData := some (d.regWord r p.2.1 i j + d.regWord r2 p.2.1 i2 j2 * 2 ^ 32) }
        else fail
      | _, _ => fail
    else fail
  | .other => fail

/-- RC_READ: a read by the host at a BAR0 offset. -/
def execRcRead (a : BitVec 28) (form : AccForm) (s : State) : Host.Outcome State Fault Refusal :=
  onHost (fun d => d.formRead a.toNat form) s

/-- WMB_D3_READ: a read by the host of WMB_D3 of a window. -/
def execWmbD3Read (w : Fin 16) (s : State) : Host.Outcome State Fault Refusal :=
  onHost (fun d => d.hostRead 0 w.val 0x3FFF1C) s

end Sys2Proof.Machine
end

