-- ==== Sys2Proof/Machine/Wides.lean ====
section
/-! DEFINITION. Wide values (R344–R347): what a snapshot of one holds, what a write of one does, and the mailboxes. -/

namespace Sys2Proof.Machine

/-! ### Ports that do not exist (R418) and statistics a port does not have (R371) -/

/-- Whether a wide value belongs to a port that does not exist. -/
def Dev.ghostWide (d : Dev) (x : Wide) (w i : Nat) : Bool :=
  match x with
  | .ptMacAddr | .psMalCount | .clMissCount | .swHeadroomOverrun | .swDownBp | .swCtAbort | .swCtDiscard | .egGcl0 | .egGcl1
  | .egGateBase | .egGateCycle | .egGateChange | .egGateOversize | .poStormDrop | .tmPortPdelay | .fwRedundancy | .obBw =>
    !d.idxExists (w - 1) i
  | .obStat => if w = 0 then !d.portExists (128 + i) else !d.idxExists (w - 1) i
  | .swAgeDiscard | .swDownFlush | .swDownDiscard => !d.portExists i
  | _ => false

/-- Whether a port has a statistic (Table 18-1, and Table 4-1 for the receive drop counters). -/
def Dev.hasStat (d : Dev) (p idx : Nat) : Bool :=
  let line := p < 128
  let field := 128 ≤ p && p < 132
  if idx ∈ [0x00, 0x01, 0x20, 0x21] then true
  else if idx ∈ [0x10, 0x13, 0x31] then line
  else if idx ∈ [0x11, 0x12, 0x14, 0x18, 0x1A, 0x32, 0x33, 0x34, 0x35, 0x36, 0x37, 0x38] then field
  else if idx ∈ [0x3C, 0x3D] then line && d.portFec p ≠ 0
  else (line || field) && (idx ≤ 0x0D || (0x10 ≤ idx && idx ≤ 0x1B) || (0x22 ≤ idx && idx ≤ 0x2C) || idx = 0x30)

/-- The port whose statistics lie at an index of a window. -/
def statPort (w i : Nat) : Nat := if w = 0 then 128 + i else 32 * (w - 1) + i

/-! ### Values that show other state -/

/-- Fields laid out from bit 0 on, as (width, value). -/
def packBits (l : List (Nat × Nat)) : Nat :=
  (l.foldl (fun a e => (a.1 + e.2 % 2 ^ e.1 * 2 ^ a.2, a.2 + e.1)) (0, 0)).1

/-- Even parity of a word of 32 bits. -/
def parity32 (v : Nat) : Nat := (List.range 32).foldl (fun a k => (a + bitAt v k) % 2) 0

/-- DEST_TYPE and DEST of an entry (Table 8-1). -/
def destBits : Dest → Nat × Nat
  | .port p => (0, p)
  | .group g => (1, g)
  | .drop => (2, 0)
  | .host c => (3, c)

/-- The 128 bits of an address entry (Table 8-1). -/
def AddrEnt.word (e : AddrEnt) : Nat :=
  let b := packBits [(48, e.mac), (14, e.fid), (2, (destBits e.dest).1), (16, (destBits e.dest).2), (1, 1), (1, b2n e.hit),
    (1, b2n e.strike), (1, b2n e.static), (1, b2n e.sticky), (1, b2n e.egressLearned), (1, b2n e.cls.isSome),
    (3, e.cls.getD 0), (4, e.v.from_.getD 0), (1, b2n e.v.from_.isNone), (4, e.v.until_.getD 0), (1, b2n e.v.until_.isNone),
    (1, b2n e.v.pending), (1, b2n e.stream.isSome), (14, e.stream.getD 0)]
  b + packBits [(1, parity32 (bits b 31 0)), (1, parity32 (bits b 63 32)), (1, parity32 (bits b 95 64)),
    (1, parity32 (bits b 127 96))] * 2 ^ 124

/-- FW_READ_ENTRY. -/
def Dev.readEntry (d : Dev) (n : Nat) : Nat :=
  let i := d.pd .fwReadIndex_index n
  if d.badEnt n i then (Config.badEntry i).toNat
  else match d.entAt n i with
    | some e => e.word
    | none => 0

/-- AE_PROG of a program number. -/
def Dev.progWord (d : Dev) (n q : Nat) : Nat :=
  match storeProg d.boot.sb n q with
  | some p => packBits [(14, p.start), (14, p.words.length), (2, bits (storeWord d.boot.sb n p.start) 25 24), (1, 1)]
  | none => 0

/-- AE_BIND of a slot under the current take. -/
def Dev.bindWord (d : Dev) (n slot : Nat) : Nat :=
  match d.bound slot (d.takeOf n) with
  | some o =>
    packBits [(32, o.h), (3, match o.data with
      | .meter r => if r.policer then 2 else 1
      | .cblock _ => 3
      | .mirror _ => 4
      | .mcast _ _ => 5
      | .rules _ _ _ _ | .patterns _ | .static _ | .stream _ => (Config.otherKind o.h).toNat)]
  | none => 0

/-- A counter of the meter or policer that PO_READ_HANDLE names (R234). -/
def Dev.poCount (d : Dev) (n k : Nat) : Nat :=
  match d.plc.meters.find? (fun m => m.h = d.pd .poReadHandle_handle n && m.die = n) with
  | some m => m.cnt.getD k 0
  | none => 0

/-- PO_READ_STATE. -/
def Dev.poState (d : Dev) (n : Nat) : Nat :=
  let h := d.pd .poReadHandle_handle n
  if d.plc.meters.any (fun m => m.h = h && m.die = n) then
    match d.meterRec n h with
    | some r => packBits [(8, if r.policer then 2 else 1), (24, levelBytes (d.bucket (.meterC n h))),
        (24, levelBytes (d.bucket (.meterP n h)))]
    | none => 0
  else 0

/-- OB_RULE_COUNT (R373). -/
def Dev.ruleCount (d : Dev) (n : Nat) : Nat :=
  let q := d.wide .obRuleQuery (n + 1)
  ((d.plc.matches_.find? (fun e => e.1 = n && e.2.1 = q % 2 ^ 32 && e.2.2.1 = q / 2 ^ 32)).map (·.2.2.2)).getD 0

/-- OB_CBLK_PACKETS and OB_CBLK_BYTES (R373). -/
def Dev.cblkCount (d : Dev) (n : Nat) : Nat × Nat :=
  let q := d.wide .obCblkQuery (n + 1)
  match d.plc.cblks.find? (fun c => c.h = q % 2 ^ 32 && c.die = n) with
  | some c => ((c.entries.find? (fun e => e.1 = bits q 47 32)).map (·.2)).getD (0, 0)
  | none => (0, 0)

/-- A capture entry (Table 12-5). -/
def CapEntry.word (c : CapEntry) : Nat :=
  packBits [(32, c.frac), (64, c.time), (8, c.port), (16, c.tag), (1, b2n c.discarded), (1, 1)]

/-- A sampled record (Table 18-4). -/
def Sample.record (x : Sample) : Nat :=
  packBits [(64, x.time), (32, x.word), (16, x.addr), (16, x.latency), (8, x.port), (8, x.flags), (16, x.who), (8, x.slots),
    (8, x.budget), (16, x.cycles), (56, 0), (8, 1)]

/-- An entry of the register error log (Table 16-8). -/
def ErrEntry.word (e : ErrEntry) : Nat :=
  packBits [(28, e.offset), (4, e.type), (32, e.data), (8, e.source), (8, e.index), (48, e.time)]

/-- The ring whose state lies in a window. -/
def winRing (w : Nat) : Nat := if w = 0 then 4 else w - 1

/-- What a wide value reads. -/
def Dev.wideNow (d : Dev) (x : Wide) (w i j : Nat) : Nat :=
  let n := w - 1
  if d.ghostWide x w i then 0
  else match x with
    | .aeProg => d.progWord n i
    | .aeBind => d.bindWord n i
    | .fwLearned => ((d.fwOf n).table.filter (fun e => !e.2.static)).length
    | .fwStatic => (d.statics n).length
    | .fwReadEntry => d.readEntry n
    | .poRead => d.poCount n i
    | .poReadState => d.poState n
    | .plObjects => d.handleCount
    | .tmTime => d.instant 4
    | .tmDieTime => d.instant n
    | .tmCapture => (((d.capturesOn n).head?).map (·.2.word)).getD 0
    | .hiErrlog => ((d.errlog[i]?).map (·.word)).getD 0
    | .hiParityLast => d.wide x w i j % 2 ^ 32 + d.safe.length * 2 ^ 32
    | .obStat => if d.hasStat (statPort w i) j then d.wide x w i j else 0
    | .obSample => (((d.obs.samples.find? (fun e => e.1 = n))).map (·.2.record)).getD 0
    | .obRuleCount => d.ruleCount n
    | .obCblkPackets => (d.cblkCount n).1
    | .obCblkBytes => (d.cblkCount n).2
    | .obAlarmState => (aget (d.ring (winRing w)).alarms i).getD 0
    | .obFtb => (((d.ring (winRing w)).ftb[i]?).map (fun e => leNat (toBytes (e.bytes 0)))).getD 0
    | .pwVin12 | .pwIin | .pwPower | .pwEnergy => (Config.measured d.net.draws).toNat
    | _ => d.wide x w i j

/-- The list without its first entry of a die. -/
def dropOf {α : Type} (n : Nat) : List (Nat × α) → List (Nat × α)
  | [] => []
  | e :: t => if e.1 = n then t else e :: dropOf n t

/-- What taking a snapshot does: the head of a queue leaves it, a peak clears, a measurement is made. -/
def Dev.wideTaken (d : Dev) (x : Wide) (w i j : Nat) : Dev :=
  let n := w - 1
  match x with
  | .tmCapture => { d with tm := { d.tm with caps := dropOf n d.tm.caps } }
  | .obSample => { d with obs := { d.obs with samples := dropOf n d.obs.samples } }
  | .obBw => if j = 2 ∨ j = 3 then d.setWide .obBw w i j 0 else d
  | .pwVin12 | .pwIin | .pwPower | .pwEnergy => { d with net := { d.net with draws := d.net.draws + 1 } }
  | _ => d

/-! ### Writes -/

/-- A write to the admin list or to its base or cycle time cancels a pending change (R241). -/
def Dev.adminWrite (d : Dev) (x : Wide) (w i j v : Nat) : Dev :=
  (d.gateCancel (32 * (w - 1) + i) 5).setWide x w i j v

/-- Whether a gate list of a port is the operational one. -/
def Dev.operational (d : Dev) (w i l : Nat) : Bool := d.pd .egGateStatus_operList (w - 1) i = l

/-- Whether the placement ring is stopped, so that its base may change (R246). -/
def Dev.plStopped (d : Dev) : Bool := d.cd .plCtl_enable = 0 && !d.plBusy

/-- What a write of a value does (R346), with the storing rules of its table; the bits beyond its width are ignored (R344). -/
def Dev.storeWide (d : Dev) (x : Wide) (w i j v0 : Nat) : Dev :=
  let n := w - 1
  let v := v0 % 2 ^ x.info.width
  if d.ghostWide x w i then d
  else match x with
    | .egGcl0 | .egGcl1 | .egGateBase => d.adminWrite x w i j v
    | .egGateCycle =>
      d.adminWrite x w i j (clamp 1000 1000000000 (bits v 31 0) + bits v 63 32 * 2 ^ 32)
    | .fwVlanMember | .fwVlanUntag => (d.setWide x w i j v).mendWord (.vlan n i)
    | .fwVlanCtl =>
      (d.setWide x w i j (v % 2 ^ 28 - (if i = 4095 then bitAt v 27 * 2 ^ 27 else 0))).mendWord (.vlan n i)
    | .fwSweepPeriod => d.setWide x w i j (clamp 1000000000 1000000000000000 v)
    | .plRingBase => if d.plStopped then d.setWide x w i j (v / 64 * 64) else d
    | .dmRxBase => if d.cd .dmRxCtl_enable = 0 then d.setWide x w i j (v / 64 * 64) else d
    | .dmTxBase => if d.cd .dmTxCtl_enable i = 0 then d.setWide x w i j (v / 32 * 32) else d
    | .obDBase => if d.cd .obDCtl_enable = 0 then d.setWide x w i j (v / 32 * 32) else d
    | .tmInc => d.writeInc (v % 2 ^ 40)
    | .tmSet => d.writeSet (v % 2 ^ 64)
    | .tmAdj => d.writeAdj (v % 2 ^ 64)
    | .obStat => if d.hasStat (statPort w i) j then d.setWide x w i j v else d
    | .obAlarmState =>
      let r := d.ring (winRing w)
      let old := (aget r.alarms i).getD 0
      d.setRing (winRing w) { r with alarms := aset r.alarms i (old - (old &&& v)) }
    | _ => d.setWide x w i j v

/-- Whether a wide value takes no write: an RO one but for the alarm state, and the operational gate list (R241). -/
def Dev.wideReadOnly (d : Dev) (x : Wide) (w i : Nat) : Bool :=
  if d.ghostWide x w i then false
  else match x with
    | .obAlarmState => false
    | .egGcl0 => d.operational w i 0
    | .egGcl1 => d.operational w i 1
    | _ => x.info.acc = .ro

/-! ### The mailboxes (R345–R347) -/

/-- The words of a mailbox as one part. -/
def Dev.mailData (d : Dev) (w : Nat) : Nat :=
  d.fld .wmbD_data w 0 + d.fld .wmbD_data w 1 * 2 ^ 32 + d.fld .wmbD_data w 2 * 2 ^ 64 + d.fld .wmbD_data w 3 * 2 ^ 96

/-- The device with a part copied into a mailbox. -/
def Dev.setMail (d : Dev) (w v : Nat) : Dev :=
  (List.range 4).foldl (fun d k => d.setFld .wmbD_data w k 0 (v / 2 ^ (32 * k) % 2 ^ 32)) d

/-- The snapshot a mailbox holds. -/
def Dev.snapOf (d : Dev) (w : Nat) : Option Snapshot := aget d.snaps w

/-- The mailbox of a window ends an operation with a code. -/
def Dev.mailCode (d : Dev) (w code : Nat) : Dev := d.setFld .wmbCtl_code w 0 0 code

/-- A part of a snapshot is shown. -/
def Dev.showPart (d : Dev) (w : Nat) (x : Snapshot) (part : Nat) : Dev :=
  ((d.setMail w (x.value / 2 ^ (128 * part))).setFld .wmbCtl_valid w 0 0 1).mailCode w 1

/-- READ of a mailbox; the error type it logs, 0 for none. -/
def Dev.mailRead (d : Dev) (w : Nat) : Dev × Nat :=
  let sel := d.fld .wmbSel_selector w
  let part := d.fld .wmbSel_part w
  let d0 := d.setFld .wmbCtl_valid w 0 0 0
  let d1 : Dev := if part = 0 then { d0 with snaps := adel d0.snaps w } else d0
  match wideAt w sel with
  | none => (d1.mailCode w 2, 8)
  | some (x, i, j) =>
    if part ≠ 0 ∧ x.info.width ≤ 128 * part then (d1.mailCode w 4, 0)
    else if part = 0 then
      let s : Snapshot := ⟨sel, x.info.width, d1.wideNow x w i j % 2 ^ x.info.width⟩
      let d2 := d1.wideTaken x w i j
      let d3 : Dev := { d2 with snaps := aset d2.snaps w s }
      (d3.showPart w s 0, 0)
    else
      match d1.snapOf w with
      | some s => if s.sel = sel then (d1.showPart w s part, 0) else (d1.mailCode w 6, 0)
      | none => (d1.mailCode w 6, 0)

/-- WRITE of a mailbox; the error type it logs, 0 for none. -/
def Dev.mailWrite (d : Dev) (w : Nat) : Dev × Nat :=
  let sel := d.fld .wmbSel_selector w
  let part := d.fld .wmbSel_part w
  let d0 := d.setFld .wmbCtl_valid w 0 0 0
  let d1 : Dev := { d0 with snaps := adel d0.snaps w }
  match wideAt w sel with
  | none => (d1.mailCode w 2, 8)
  | some (x, i, j) =>
    if d1.wideReadOnly x w i then (d1.mailCode w 3, 9)
    else if part ≠ 0 ∧ x.info.width ≤ 128 * part then (d1.mailCode w 4, 0)
    else ((d1.storeWide x w i j (d1.mailData w * 2 ^ (128 * part))).mailCode w 1, 0)

/-- READ and WRITE of WMB_CTL as a write gives them; the error type it logs. -/
def Dev.mailOp (d : Dev) (w : Nat) (read write : Bool) : Dev × Nat :=
  if read ∧ write then ((d.setFld .wmbCtl_valid w 0 0 0).mailCode w 5, 0)
  else if read then d.mailRead w
  else if write then d.mailWrite w
  else (d, 0)

/-! ### Wide-region accesses (Table 17-2) -/

/-- A wide-region read of e bytes: one snapshot, whose element is returned; a bus error answers its type (R358). -/
def Dev.wideRead (d : Dev) (w sel byte e : Nat) : Dev × Sum Nat Nat :=
  let fail := fun (t : Nat) => (d.bump .hiReadAbort 0 0 0 1, (Sum.inr t : Sum Nat Nat))
  if 9 ≤ w then fail 1
  else if w = 8 then fail 5
  else if d.winPowered w = false then fail 2
  else match wideAt w sel with
    | none => fail 8
    | some (x, i, j) => (d.wideTaken x w i j, .inl (d.wideNow x w i j % 2 ^ x.info.width / 2 ^ (8 * byte) % 2 ^ (8 * e)))

/-- The windows a write of a window reaches (Table 16-2). -/
def Dev.writeWins (d : Dev) (w : Nat) : List Nat := if w = 8 then d.dies.map (· + 1) else [w]

/-- A wide-region write of an element as a value's low bytes; a bus error answers its type, 0 for none. -/
def Dev.wideWrite (d : Dev) (w sel v : Nat) : Dev × Nat :=
  if 9 ≤ w then (d, 1)
  else if w < 8 ∧ d.winPowered w = false then (d, 2)
  else match wideAt (if w = 8 then 1 else w) sel with
    | none => (d, 8)
    | some (x, i, j) =>
      (d.writeWins w).foldl (fun (a : Dev × Nat) y =>
        if a.1.wideReadOnly x y i then (a.1, 9) else (a.1.storeWide x y i j v, a.2)) (d, 0)

end Sys2Proof.Machine
end

