-- ==== Sys2Proof/Machine/HostIf.lean ====
section
/-! DEFINITION. Writes of registers (R340–R349, Table 16-5), what each register's write does, the mailboxes' commands, the
interrupt enables (R352), and configuration parity (R350, R351). -/

namespace Sys2Proof.Machine

/-! ### A write by its alias (Table 16-5) -/

/-- What an alias makes of a field's value: Normal, Set, Clear or Toggle. -/
def aliasOp (alias_ old v : Nat) : Nat :=
  match alias_ with
  | 0 => v
  | 1 => old ||| v
  | 2 => old - (old &&& v)
  | _ => old ^^^ v

/-- The bits of written data that belong to a field. -/
def Fld.ofData (f : Fld) (data : Nat) : Nat := bits data f.info.hi f.info.lo

/-- Whether an SC field is requested: by every alias but Clear. -/
def Fld.asked (f : Fld) (alias_ data : Nat) : Bool := alias_ ≠ 2 && f.ofData data ≠ 0

/-- The fields that a write stores through an operation of its own, under the rules of their chapters. -/
def Fld.guarded : Fld → Bool
  | .ptPortCtl_enable | .fpPortCtl_enable | .egGateCtl_gateEn | .fbLaneCtl_out | .plCtl_enable | .plCtl_ringLog2
  | .plTail_tail | .dmRxCtl_enable | .dmRxCtl_ringLog2 | .dmRxCtl_bufKib | .dmRxCtl_irqCh | .dmRxCtl_irqEn
  | .dmTxCtl_enable | .dmTxCtl_ringLog2 | .dmTxCtl_irqCh | .dmTxCtl_irqEn | .dmRxPtr_tail | .dmTxPtr_tail
  | .obDCtl_ringLog2 | .fwFlush_port | .fwFlush_fid | .fwFlush_byPort | .fwFlush_byFid => true
  | _ => false

/-- One field under a write.  No field of the map has access LK, WO or W1S; LK and WO before its first write act as RW. -/
def Dev.writeField (d : Dev) (alias_ data w i j : Nat) (f : Fld) : Dev :=
  let old := d.fld f w i j
  let v := f.ofData data
  match f.info.acc with
  | .rw | .lk | .wo => if f.guarded then d else d.setFld f w i j (f.store (aliasOp alias_ old v))
  | .w1c => if alias_ = 0 ∨ alias_ = 2 then d.setFld f w i j (old - (old &&& v)) else d
  | .w1s => if alias_ = 0 ∨ alias_ = 1 then d.setFld f w i j (old ||| v) else d
  | .sc | .rc | .hu | .ro => d

/-- The fields of a register under a write. -/
def Dev.writeFields (d : Dev) (r : Reg) (w i j alias_ data : Nat) : Dev :=
  r.flds.foldl (fun d f => d.writeField alias_ data w i j f) d

/-- The value that an RW field takes from a write. -/
def Dev.asWritten (d : Dev) (f : Fld) (w i j alias_ data : Nat) : Nat := aliasOp alias_ (d.fld f w i j) (f.ofData data)

/-- The word that an alias write makes of a register. -/
def Dev.wordWritten (d : Dev) (r : Reg) (w i j alias_ data : Nat) : Nat := aliasOp alias_ (d.rawWord r w i j) data

/-! ### What the write of a register does beyond its fields -/

/-- The lane that an address of lane-test registers names. -/
def laneAt (w i j : Nat) : LaneId := if w = 0 then .cont i else if j = 0 then .line (32 * (w - 1) + i) else .fabric (w - 1) (j - 1) i

/-- A request honoured. -/
def Dev.on (d : Dev) (c : Bool) (f : Dev → Dev) : Dev := if c then f d else d

/-- EG_SCHED: a shaper that is switched on begins with a full bucket, or with no credit (R224, R225). -/
def Dev.schedSet (d was : Dev) (w i : Nat) : Dev :=
  let n := w - 1
  (List.range 8).foldl (fun (d : Dev) c =>
    let up := fun (f : Fld) => bitAt (d.fld f w i) c = 1 ∧ bitAt (was.fld f w i) c = 0
    let d1 := if up .egSched_maxrateEn then d.setBucket (.maxrate n i c) (d.bucketCap (.maxrate n i c)) else d
    if up .egSched_cbsEn then d1.setBucket (.cbs n i c) 0 else d1) d

/-- EG_GATE_CTL: a new ADMIN_LEN cancels a pending change, GATE_EN follows R229, and CONFIG_CHANGE is requested. -/
def Dev.gateCtl (d was : Dev) (w i : Nat) (en change : Bool) : Dev :=
  let q := 32 * (w - 1) + i
  let d1 := if d.fld .egGateCtl_adminLen w i = was.fld .egGateCtl_adminLen w i then d else d.gateCancel q 5
  let d2 :=
    if en then
      (if was.cfg .egGateCtl_gateEn w i = 1 ∧ (d1.gate q).running = true then d1 else (d1.setPd .egGateCtl_gateEn (w - 1) 0 i).gateEnable q true)
    else d1.gateEnable q false
  d2.on change (fun d => d.gateChange q)

/-- FB_LANE_CTL: a change of OUT, and CALIBRATE. -/
def Dev.laneCtl (d was : Dev) (a b k : Nat) (out cal : Bool) : Dev :=
  if a = b then d.setPd .fbLaneCtl_out a (b2n out) k b
  else
    let d1 := if was.cfg .fbLaneCtl_out (a + 1) k b = b2n out then d.setPd .fbLaneCtl_out a (b2n out) k b else d.laneOut a b k out
    d1.on (cal && d1.link a b) (fun d => d.laneCalibrate a b k)

/-- The enables of MSI-X vectors: one set while its cause is 1 sends the vector (R352). -/
def Dev.enablesSet (d was : Dev) : Dev :=
  (List.range 32).foldl (fun (d : Dev) v =>
    if bitAt (d.cd .hiIrqEnableLo_enable) v = 1 ∧ bitAt (was.cd .hiIrqEnableLo_enable) v = 0 ∧
        bitAt (d.cd .hiIrqCauseLo_cause) v = 1 then d.sendIrq v else d) d

/-- A vector whose table entry is unmasked is sent when it is pending (R352). -/
def Dev.unmask (d : Dev) (v : Nat) : Dev :=
  if bitAt (d.cd .msixPba_pending (v / 32)) (v % 32) = 1 ∧ d.cd .msixTable_dword (4 * v + 3) % 2 = 0 ∧ d.pcieUp = true then
    (d.clrBit .msixPba_pending 0 (v / 32) 0 (v % 32)).sendIrq v
  else d

/-- The effect of a write on the device beyond the fields it stores.  `was` is the device before the write, `d` the device
with the fields stored. -/
def Dev.afterWrite (d was : Dev) (r : Reg) (w i j alias_ data : Nat) : Dev :=
  let ask := fun (f : Fld) => f.asked alias_ data
  let new := fun (f : Fld) => was.asWritten f w i j alias_ data
  let n := w - 1
  match r with
  | .dvLaserCtl => d.lsEnUpdate
  | .ptPortCtl => if new .ptPortCtl_enable = 1 then d.portEnable (32 * n + i) else d.portDisable (32 * n + i)
  | .ptMacCtl | .ptMacThresh => d.bringUp (32 * n + i)
  | .ptPfcCtl => (d.bringUp (32 * n + i)).pfcCtlWritten was (32 * n + i)
  | .fpPortCtl => if new .fpPortCtl_enable = 1 then d.fieldEnable i else d.fieldDisable i
  | .tkCtl => ((d.on (ask .tkCtl_open) (·.tkOpen)).on (ask .tkCtl_commit) (·.tkCommit)).on (ask .tkCtl_abort) (·.tkAbort)
  | .clTreeCtl => d.on (ask .clTreeCtl_rebuild) (fun d => d.rebuild n)
  | .fwFlush =>
    if was.pd .fwFlush_start n = 1 then d
    else
      let d1 := [Fld.fwFlush_port, .fwFlush_fid, .fwFlush_byPort, .fwFlush_byFid].foldl
        (fun (d : Dev) f => d.setFld f w i j (new f)) d
      d1.on (ask .fwFlush_start) (fun d => d.flushStart n (new .fwFlush_port) (new .fwFlush_fid) (new .fwFlush_byPort = 1)
        (new .fwFlush_byFid = 1))
  | .fwPrpCtl => d.judgePairs n
  | .obBwCtl => d.bwLength was (32 * n + i)
  | .egSched => d.schedSet was w i
  | .egGateCtl => d.gateCtl was w i (new .egGateCtl_gateEn = 1) (ask .egGateCtl_configChange)
  | .plCtl => d.writePlCtl (new .plCtl_enable = 1) (new .plCtl_ringLog2)
  | .plTail => d.writeTail (new .plTail_tail)
  | .tmCtl => d.on (ask .tmCtl_snap) (·.snap)
  | .tmTaCtl =>
    (d.on (ask .tmTaCtl_arm) (fun d => d.taArm (d.cd .tmTaCtl_kind))).on (ask .tmTaCtl_cancel)
      (fun d => d.taCancel (d.cd .tmTaCtl_index))
  | .fbLaneCtl => d.laneCtl was n j i (new .fbLaneCtl_out = 1) (ask .fbLaneCtl_calibrate)
  | .lnTestCtl =>
    let l := laneAt w i j
    if d.laneThere l then
      ((d.on (ask .lnTestCtl_start) (fun d => d.lnStart l)).on (ask .lnTestCtl_stop) (fun d =>
        if d.lnFld l .lnTestStatus_state = 2 then (d.lnUnseen l).lnFinish l else d)).on
        (ask .lnTestCtl_clear) (fun d => d.lnClear l)
    else d
  | .lnInjCtl => d.on (ask .lnInjCtl_inject && d.laneThere (laneAt w i j)) (fun d => d.lnInject (laneAt w i j) false)
  | .dvBistCtl => d.on (ask .dvBistCtl_start) (·.bistStart)
  | .duCtl =>
    (((d.on (ask .duCtl_claim) (·.duClaim)).on (ask .duCtl_release) (·.duRelease)).on (ask .duCtl_feed) (·.duFeed)).on
      (ask .duCtl_clearFault) (·.duClear)
  | .btBootCtl => (d.on (ask .btBootCtl_spillRelease) (·.spillRelease)).on (ask .btBootCtl_spillTest) (·.spillTest)
  | .hiErrlogStatus => d.on (ask .hiErrlogStatus_clear) (fun d => { d with errlog := [] })
  | .hiIrqEnableLo => d.enablesSet was
  | .dmChCtl => (d.on (ask .dmChCtl_start) (fun d => d.chStart i)).on (ask .dmChCtl_abort) (fun d => d.chAbort i)
  | .dmRxCtl => d.ringCtl none (was.wordWritten r w i j alias_ data)
  | .dmTxCtl => d.ringCtl (some i) (was.wordWritten r w i j alias_ data)
  | .dmRxPtr => d.rxTail (new .dmRxPtr_tail)
  | .dmTxPtr => d.txTail i (new .dmTxPtr_tail)
  | .obSnapCtl => d.on (ask .obSnapCtl_snap) (fun d => d.obSnap n (d.pd .obSnapCtl_port n))
  | .obIncCtl =>
    (d.on (ask .obIncCtl_trigger) (fun d => d.obTrigger (winRing w))).on (ask .obIncCtl_ftbRelease)
      (fun d => d.ftbRelease (winRing w))
  | .obDCtl =>
    if was.cd .obDCtl_enable = 0 then d.setCd .obDCtl_ringLog2 (Fld.store .obDCtl_ringLog2 (new .obDCtl_ringLog2)) else d
  | .obFatal => d.on (ask .obFatal_fatal) (fun d => d.fatal 5 [])
  | .msixTable => if i % 4 = 3 then d.unmask (i / 4) else d
  | _ => d

/-- The request that a write of SC_CMD with START begins, by its OP (Table 19-3), with what host memory holds for it. -/
def Dev.scRequest (d : Dev) (o : Otp) (inp : HostInput) : Dev :=
  match d.cd .scCmd_op with
  | 1 => d.scSlate
  | 2 => d.scQuote o (match inp with | .nonce v => some v | _ => none)
  | 3 => d.scGet
  | 4 => d.scKey o (match inp with | .key b => some (readKey b) | _ => none)
  | 5 => d.scAdvance o
  | 6 => d.scPatch o (match inp with | .patch p => some p | _ => none)
  | op => d.scBad op

/-- The effect of a write where it reaches the flash or the OTP. -/
def State.afterWrite (s : State) (was : Dev) (r : Reg) (w i j alias_ data : Nat) (inp : HostInput) : State :=
  let ask := fun (f : Fld) => f.asked alias_ data
  match r with
  | .imWriteCtl =>
    let s1 := if ask .imWriteCtl_start then
        (match inp with
         | .image x => s.imageStart x true
         | _ => s.imageStart { bytes := [] } false)
      else s
    if ask .imWriteCtl_abort then { s1 with dev := s1.dev.imageAbort } else s1
  | .btBootCtl =>
    let s1 := if ask .btBootCtl_continue then s.continue_ else s
    { s1 with dev := s1.dev.afterWrite was r w i j alias_ data }
  | .scCmd => if ask .scCmd_start then { s with dev := s.dev.scRequest s.otp inp } else s
  | _ => { s with dev := s.dev.afterWrite was r w i j alias_ data }

/-! ### Writing a register -/

/-- A write reaches a register of a window; the error type it logs, 0 for none.  One of a port that does not exist ignores
it (R418); in the normal alias it ends a safe state (R351). -/
def State.writeOne (s : State) (r : Reg) (w i j alias_ data : Nat) (inp : HostInput) : State × Nat :=
  let was := s.dev
  if was.ghost r w i then (s, 0)
  else
    let d0 := if alias_ = 0 then was.leaveSafe r w i j else was
    let d1 := (d0.writeFields r w i j alias_ data).storeTogether r w i j
    if r = .wmbCtl then
      let x := d1.mailOp w (Fld.asked .wmbCtl_read alias_ data) (Fld.asked .wmbCtl_write alias_ data)
      ({ s with dev := x.1 }, x.2)
    else (State.afterWrite { s with dev := d1 } was r w i j alias_ data inp, 0)

/-- A write error: entered in the log unless it repeats a failed attempt (R348). -/
def State.writeError (s : State) (first : Bool) (t offset data source index : Nat) : State × Nat :=
  (if first then { s with dev := s.dev.logError t offset data source index } else s, t)

/-- A write by its alias, window and offset, with its data, SOURCE and INDEX: the state and the bus error type, 0 for none
(R341, R346–R349).  `first` is whether it is the first attempt. -/
def State.writeReg (s : State) (alias_ w off data source index : Nat) (inp : HostInput) (first : Bool) : State × Nat :=
  match s.dev.target alias_ w off false with
  | .error t => s.writeError first t (barOffset alias_ w off) data source index
  | .reg r i j =>
    if w = 8 ∧ r = .wmbCtl ∧ bitAt data 0 = 1 then s.writeError first 5 (barOffset alias_ w off) data source index
    else
      let sel := s.dev.fld .wmbSel_selector ((s.dev.writeWins w).headD 0)
      let x := (s.dev.writeWins w).foldl (fun (a : State × Nat) y =>
        let b := a.1.writeOne r y i j alias_ data inp
        (b.1, if a.2 = 0 then b.2 else a.2)) (s, 0)
      if x.2 = 0 then x else x.1.writeError first x.2 (barOffset 0 w 0x3FFF04) sel source index

/-- A write by the host. -/
def State.hostWrite (s : State) (alias_ w off data : Nat) (inp : HostInput) : State × Nat := s.writeReg alias_ w off data 0 0 inp true

/-- A write by the host of a form (R340): the MSI-X structures also accept aligned writes of eight bytes. -/
def State.formWrite (s : State) (a data : Nat) (form : AccForm) (inp : HostInput) : State :=
  let p := splitBar a
  let size := { s with dev := s.dev.logError 7 a (data % 2 ^ 32) 0 0 }
  match form with
  | .dword => if a % 4 = 0 then (s.hostWrite p.1 p.2.1 p.2.2 (data % 2 ^ 32) inp).1 else size
  | .qword =>
    let msix := p.2.1 = 0 ∧ (match regAt 0 p.2.2 with | some x => x.1.msix | none => false) = true
    if a % 8 = 0 ∧ msix then
      let x := s.hostWrite p.1 p.2.1 p.2.2 (data % 2 ^ 32) inp
      if x.2 = 0 then (x.1.hostWrite p.1 p.2.1 (p.2.2 + 4) (data / 2 ^ 32) inp).1 else x.1
    else size
  | .other => size

/-- A command that is an access by the host and may reach the flash or the OTP. -/
def onHostState (f : State → State) (s : State) : Host.Outcome State Fault Refusal :=
  let s1 := { s with dev := s.dev.quiet }
  .next (if s1.dev.hostUp then f s1 else s1)

/-! ### The commands -/

/-- REGISTER_WRITE: a write by the host at a BAR0 offset; `inp` is what host memory holds for a request that it starts. -/
def execRegisterWrite (a : BitVec 28) (data : BitVec 64) (form : AccForm) (inp : HostInput) (s : State) :
    Host.Outcome State Fault Refusal :=
  onHostState (fun s => s.formWrite a.toNat data.toNat form inp) s

/-- WMB_READ: a write of WMB_CTL of a window with READ set. -/
def execWmbRead (w : Fin 16) (s : State) : Host.Outcome State Fault Refusal :=
  onHostState (fun s => (s.hostWrite 0 w.val 0x3FFF04 1 .nothing).1) s

/-- WMB_WRITE: a write of WMB_CTL of a window with WRITE set. -/
def execWmbWrite (w : Fin 16) (s : State) : Host.Outcome State Fault Refusal :=
  onHostState (fun s => (s.hostWrite 0 w.val 0x3FFF04 2 .nothing).1) s

/-- ERRLOG_CLEAR: a write of HI_ERRLOG_STATUS.CLEAR. -/
def execErrlogClear (s : State) : Host.Outcome State Fault Refusal :=
  onReg 0 .hiErrlogStatus 0 0 256 (fun d => { d with errlog := [] }) s

/-- IRQ_ENABLE_WRITE: a write of HI_IRQ_ENABLE_LO or HI_IRQ_ENABLE_HI. -/
def execIrqEnableWrite (hi : Bool) (v : BitVec 32) (s : State) : Host.Outcome State Fault Refusal :=
  if hi then onWord 0 .hiIrqEnableHi 0 0 v.toNat (fun d => d.setCd .hiIrqEnableHi_enable v.toNat) s
  else onWord 0 .hiIrqEnableLo 0 0 v.toNat (fun d => (d.setCd .hiIrqEnableLo_enable v.toNat).enablesSet d) s

/-! ### Configuration parity (R350, Table 16-10) -/

/-- Whether a register has fields that parity protects. -/
def Reg.guarded (r : Reg) : Bool := r.flds.any (fun f => f.info.acc = .rw || f.info.acc = .lk || f.info.acc = .wo)

/-- What entering its safe state makes a register's block do at once. -/
def Dev.safeEffect (d : Dev) (r : Reg) (w i j : Nat) : Dev :=
  let q := 32 * (w - 1) + i
  match r with
  | .dvLaserCtl => d.lsEnUpdate
  | .ptPortCtl | .ptMacCtl | .ptPfcCtl | .ptMacThresh => d.finishDisable q
  | .fpPortCtl => d.fieldDown (128 + i)
  | .egGateCtl => (d.setPd .egGateStatus_gates (w - 1) 0xFF i).setGate q { d.gate q with running := false }
  | .fbLaneCtl =>
    if d.link (w - 1) j then
      (d.laneOut (w - 1) j i true).setPd .fbLaneCtl_out (w - 1) (d.pd .fbLaneCtl_out (w - 1) i j) i j
    else d
  | .dmChCtl => d.chHalt i 7
  | .fwPrpCtl => d.judgePairs (w - 1)
  | _ => d

/-- A register found bad enters the safe state of its block. -/
def Dev.enterSafe (d : Dev) (w : Nat) (off : Nat) : Dev :=
  match regAt w off with
  | some (r, i, j) =>
    if r.guarded = false ∨ d.ghost r w i = true ∨ d.inSafe r w i j = true then d
    else
      let d0 : Dev := { d with safe := d.safe ++ [⟨r, w, i, j⟩] }
      let d1 := (((d0.setBit .hiParityStatus_sticky 0 0 0 w).setWide .hiParityLast 0 0 0 (barOffset 0 w off)).bump
        .hiParityCount 0 0 0 1).raise 6 0x0D01 [(4, w), (22, off)]
      (d1.irq 1).safeEffect r w i j
  | none => d

/-- CFG_SCRUB_PASS: the scrubber of a window checks its registers and finds those at some offsets bad. -/
def execCfgScrubPass (w : Fin 8) (bad : List (BitVec 22)) (s : State) : Host.Outcome State Fault Refusal :=
  onDev (fun d =>
    if d.boot.run && d.winPowered w.val then bad.foldl (fun d o => d.enterSafe w.val o.toNat) d else d) s

end Sys2Proof.Machine
end

