-- ==== Sys2Proof/Machine/Dma.lean ====
section
/-! DEFINITION. The accesses of the DMA engine's channels (R357, R358, R360–R362), and the events of the PCIe interface that
end them: PERST_N (R320) and D3hot (R338, R363).  Every access of a channel is one command, in the order in which the
channel issues them. -/

namespace Sys2Proof.Machine

/-- SOURCE of an access of channel k (Table 16-8). -/
def chSource (k : Nat) : Nat := 0x10 + k

/-- Whether the access in flight of a running channel is a read: a failed access is repeated; else the next element is read
while there is one and the elements read ahead leave room for it, in strict mode only when the one before it is written
(R360, R361). -/
def DmChan.reads (c : DmChan) : Bool :=
  match c.fail with
  | some x => !x.write
  | none => c.read < dmTotal c.desc && (if c.strict then c.buf.isEmpty else (c.buf.length + 1) * dmSize c.desc ≤ 256)

/-- Whether the access in flight of a channel is a host read: of its descriptor, or of a source element. -/
def Dev.hostReading (d : Dev) (k : Nat) : Bool :=
  d.chInFlight k && (d.chState k = 1 || ((d.chan k).reads && !dmSrcDev (d.chan k).desc))

/-- The bytes of a number. -/
def numBytes (n v : Nat) : List Byte := toBytes (leBytes n v)

/-! ### Writes -/

/-- An element of a channel is written: DM_BYTES counts it, and the last one ends the transfer with OK, or, when its final
access had failed after the count reached zero, with ERROR_AFTER_LAST and RETRY_OK (R362). -/
def Dev.chWritten (d : Dev) (k : Nat) (late : Bool) : Dev :=
  let c := d.chan k
  let d1 := (d.setChan k { c with buf := c.buf.tail, made := 0, done := c.done + 1 }).bump .dmBytes 0 k 0 (dmSize c.desc)
  if c.done + 1 < dmTotal c.desc then d1
  else if late then ((d1.chIndex k c.done).setCd .dmChStatus_retryOk 1 k).chEnd k 3
  else d1.chEnd k 1

/-- The last access of a channel's failing record was late. -/
def Dev.chLate (d : Dev) (k : Nat) : Bool := ((d.chan k).fail.map (·.late)).getD false

/-- One write access to the device: where it failed, its error type.  A channel that the write itself has stopped issues
nothing further. -/
def State.chDevWrite (s : State) (k a : Nat) (b : List Byte) (inp : HostInput) : State × Nat :=
  let c := s.dev.chan k
  if inRegisters a then
    let p := splitBar (a + 4 * c.made)
    s.writeReg p.1 p.2.1 p.2.2 (leNat ((b.drop (4 * c.made)).take 4)) (chSource k) 0 inp c.fail.isNone
  else
    let w := bits a 31 28
    let sel := bits a 25 6
    let x := s.dev.wideWrite w sel (leNat b)
    if x.2 = 0 ∨ c.fail.isSome then ({ s with dev := x.1 }, x.2)
    else ({ s with dev := x.1.logError x.2 (barOffset 0 w 0x3FFF04) sel (chSource k) 0 }, x.2)

/-- A device write has been answered: with an error it is the channel's failure, else the element goes on. -/
def Dev.chAnswered (d : Dev) (k a type : Nat) (last : Bool) : Dev :=
  let c := d.chan k
  if !d.chRuns k then d
  else if type ≠ 0 then
    d.chFailed k { write := true, device := true, type := type, addr := a, late := last && c.done + 1 = dmTotal c.desc }
  else
    let late := d.chLate k
    let d1 := d.chRetried k
    if last then d1.chWritten k late else d1.setChan k { d1.chan k with made := c.made + 1 }

/-- The write access that a channel issues for the oldest element it has read. -/
def State.chWrite (s : State) (k : Nat) (inp : HostInput) : State :=
  let c := s.dev.chan k
  match c.buf with
  | [] => s
  | b :: _ =>
    let a := dmDstAt c.desc c.done
    if dmDstDev c.desc then
      let x := s.chDevWrite k a b inp
      let last := !inRegisters a || 4 * (c.made + 1) = dmSize c.desc
      { x.1 with dev := x.1.dev.chAnswered k (if inRegisters a then a + 4 * c.made else a) x.2 last }
    else
      let d1 : Dev := { s.dev with out := s.dev.out ++ [.hostWrite a b] }
      { s with dev := d1.chWritten k false }

/-- The elements read ahead of a failing read are written before it is repeated (R361), until a write fails. -/
def State.chFlush (s : State) (k : Nat) (inp : HostInput) : Nat → State
  | 0 => s
  | n + 1 =>
    let c := s.dev.chan k
    if c.buf.isEmpty || c.fail.isSome || !s.dev.chRuns k then s else (s.chWrite k inp).chFlush k inp n

/-! ### Reads -/

/-- A source element has been read. -/
def Dev.chGot (d : Dev) (k : Nat) (b : List Byte) : Dev :=
  let d1 := d.chRetried k
  let c := d1.chan k
  d1.setChan k { c with read := c.read + 1, part := [], buf := c.buf ++ [b] }

/-- A read of a source element has failed. -/
def State.chReadFails (s : State) (k : Nat) (device : Bool) (type addr : Nat) (inp : HostInput) : State :=
  let s1 := if (s.dev.chan k).fail.isSome then s else s.chFlush k inp 64
  let c := s1.dev.chan k
  if s1.dev.chRuns k && (c.fail.isNone || (s.dev.chan k).fail.isSome) then
    { s1 with dev := s1.dev.chFailed k { write := false, device := device, type := type, addr := addr } }
  else s1

/-- The read access that a channel issues for its next element; `data` is what host memory answers. -/
def State.chRead (s : State) (k : Nat) (data : List Byte) (inp : HostInput) : State :=
  let c := s.dev.chan k
  let e := dmSize c.desc
  let a := dmSrcAt c.desc c.read
  if dmSrcDev c.desc then
    if inRegisters a then
      let at_ := a + c.part.length
      let p := splitBar at_
      match s.dev.readReg p.1 p.2.1 p.2.2 with
      | (d1, .inl v) =>
        let b := c.part ++ numBytes 4 v
        if b.length = e then { s with dev := d1.chGot k b }
        else
          let d2 := d1.chRetried k
          { s with dev := d2.setChan k { d2.chan k with part := b } }
      | (d1, .inr t) => State.chReadFails { s with dev := d1 } k true t at_ inp
    else
      match s.dev.wideRead (bits a 31 28) (bits a 25 6) (a % 64) e with
      | (d1, .inl v) => { s with dev := d1.chGot k (numBytes e v) }
      | (d1, .inr t) => State.chReadFails { s with dev := d1 } k true t a inp
  else if data.length = e then
    let d1 : Dev := { s.dev with out := s.dev.out ++ [.hostRead a e] }
    { s with dev := d1.chGot k data }
  else s

/-! ### The commands -/

/-- DM_ACCESS_COMPLETE: the access in flight of a RUNNING channel ends, a device access with its answer.  `data` is the
element that a host read returns, `inp` what host memory holds for a request that a register write starts. -/
def execDmAccessComplete (k : Fin 16) (data : List Byte) (inp : HostInput) (s : State) : Host.Outcome State Fault Refusal :=
  let s1 := { s with dev := s.dev.quiet }
  .next (if s1.dev.chState k.val = 2 && s1.dev.chInFlight k.val then
      (if (s1.dev.chan k.val).reads then s1.chRead k.val data inp else s1.chWrite k.val inp)
    else s1)

/-- A host read of a channel fails with a type of DM_CH_STATUS.FAIL_TYPE. -/
def State.hostReadFails (s : State) (k type : Nat) (inp : HostInput) : State :=
  let d := s.dev
  if d.hostReading k then
    if d.chState k = 1 then
      { s with dev := d.chFailed k { write := false, device := false, type := type, addr := d.wide .dmDescAddr 0 k / 64 * 64 } }
    else s.chReadFails k false type (dmSrcAt (d.chan k).desc (d.chan k).read) inp
  else s

/-- DM_ACCESS_FAIL: a host read of a channel completes with Unsupported Request (0), Completer Abort (1) or poisoned (2).  A
device access that meets a bus error fails in DM_ACCESS_COMPLETE. -/
def execDmAccessFail (k : Fin 16) (how : Fin 3) (inp : HostInput) (s : State) : Host.Outcome State Fault Refusal :=
  .next (State.hostReadFails { s with dev := s.dev.quiet } k.val (0xA + how.val) inp)

/-- DM_HOST_READ_TIMEOUT: a host read of a channel has not completed within 50 ms. -/
def execDmHostReadTimeout (k : Fin 16) (inp : HostInput) (s : State) : Host.Outcome State Fault Refusal :=
  .next (State.hostReadFails { s with dev := s.dev.quiet } k.val 0xD inp)

/-! ### PERST_N and D3hot -/

/-- A register of the DMA engine. -/
def Reg.ofDma : Reg → Bool
  | .dmChCtl | .dmChStatus | .dmChIndex | .dmChIndex2 | .dmRxCtl | .dmTxCtl | .dmRxPtr | .dmTxPtr => true
  | _ => false

/-- A wide value of the DMA engine. -/
def Wide.ofDma : Wide → Bool
  | .dmDescAddr | .dmFailAddr | .dmBytes | .dmRxBase | .dmTxBase | .dmTxDiscard => true
  | _ => false

/-- A field that PERST_N returns to its Default: of the DMA engine, of the MSI-X structures, and ENABLE and the pointers of
the dailies delivery (R320, R383). -/
def Fld.perst (f : Fld) : Bool :=
  f.info.reg.ofDma || f.info.reg.msix || f = .obDCtl_enable || f = .obDWptr_wptr || f = .obDRptr_rptr

/-- PERST_N falls: the DMA engine and the MSI-X table are reset, and the link is down. -/
def Dev.perst (d : Dev) : Dev :=
  { d with
    sup := { d.sup with perstN := false, cfgReady := false, d3hot := false }
    flds := d.flds.filter (fun e => !e.1.f.perst)
    wides := d.wides.filter (fun e => !e.1.x.ofDma)
    dma := { d.dma with chans := Vector.replicate 16 {} } }

/-- PERST_N_ASSERT. -/
def execPerstNAssert (s : State) : Host.Outcome State Fault Refusal := onDev (fun d => d.perst) s

/-- PCIE_D3HOT_ENTER: every running channel ends with POWER_DOWN; the rings, MSI-X and the dailies delivery stop while the
function is in D3hot. -/
def execPcieD3hotEnter (s : State) : Host.Outcome State Fault Refusal :=
  onDev (fun d =>
    if d.sup.perstN && d.sup.cfgReady then
      let d0 : Dev := { d with sup := { d.sup with d3hot := true } }
      (List.range 16).foldl (fun (d : Dev) k => d.chHalt k 8) d0
    else d) s

/-- PCIE_D3HOT_EXIT: the function returns to D0, and the messages that waited leave. -/
def execPcieD3hotExit (s : State) : Host.Outcome State Fault Refusal :=
  onDev (fun d =>
    if d.sup.d3hot then
      let d0 : Dev := { d with sup := { d.sup with d3hot := false } }
      (List.range 32).foldl (fun (d : Dev) v => d.unmask v) d0
    else d) s

end Sys2Proof.Machine
end

