-- ==== Sys2Proof/Machine/TimedActions.lean ====
section
/-! DEFINITION. The clapper and steps of device time (R258, R261–R263, Table 12-1), and what timed actions do when their time
is reached (R271–R273, Table 12-6). -/

namespace Sys2Proof.Machine

/-! ### Timed actions -/

/-- The word a REG_WRITE writes: the bits in MASK take VALUE, and other bits of RW fields keep theirs. -/
def Dev.maskedWord (d : Dev) (r : Reg) (w i j mask value : Nat) : Nat :=
  let kept := r.bitsOf (fun f => f.info.acc = .rw || f.info.acc = .lk || f.info.acc = .wo)
  let old := d.rawWord r w i j &&& kept
  (old - (old &&& mask)) ||| (value &&& mask)

/-- A REG_WRITE action of an entry. -/
def State.taWrite (s : State) (index : Nat) (e : TaEntry) (inp : HostInput) : State :=
  let w := bits e.arg 25 22
  let off := bits e.arg 21 0
  match s.dev.target 0 w off false with
  | .error _ => (s.writeReg 0 w off (e.value &&& e.mask) 0x20 index inp true).1
  | .reg r i j =>
    (s.dev.writeWins w).foldl (fun (s : State) y =>
      (s.writeReg 0 y off (s.dev.maskedWord r y i j e.mask e.value) 0x20 index inp true).1) s

/-- What an action does (Table 12-6). -/
def State.taEffect (s : State) (index : Nat) (e : TaEntry) (inp : HostInput) : State :=
  match e.kind with
  | 3 =>
    if 128 ≤ e.arg then { s with dev := s.dev.fieldEnable (e.arg - 128) }
    else if s.dev.railOn (e.arg / 32) then { s with dev := s.dev.portEnable e.arg } else s
  | 4 =>
    if 128 ≤ e.arg then { s with dev := s.dev.fieldDisable (e.arg - 128) }
    else if s.dev.railOn (e.arg / 32) then { s with dev := s.dev.portDisable e.arg } else s
  | 5 => s.taWrite index e inp
  | 6 => { s with dev := if s.dev.tm.ppsMode = 2 then s.dev.ppsOut true else s.dev }
  | 7 => { s with dev := if s.dev.tm.ppsMode = 2 then s.dev.ppsOut false else s.dev }
  | _ => s

/-- The report of an action that runs late. -/
def Dev.taLate (d : Dev) (index : Nat) (e : TaEntry) : Dev :=
  let x := ofSigned 64 (diff64 (d.now e.isl) e.t)
  (((d.bump .tmTaLateCount 0 0 0 1).setWide .tmTaLastLateness 0 0 0 x).raise 6 0x0A05 [(8, index), (4, e.kind), (32, x)]).irq 4

/-- An action runs, and its entry is free. -/
def State.taPerform (s : State) (index : Nat) (e : TaEntry) (late : Bool) (inp : HostInput) : State :=
  let s1 := if late then { s with dev := s.dev.taLate index e } else s
  let s2 := s1.taEffect index e inp
  { s2 with dev := s2.dev.dropTimer index }

/-- Whether an action can run: its time is reached on its island or it is late, it has reached its die unless the CD runs it, and no
action of the same T and a lower index, itself not late, waits to run before it (R273). -/
def Dev.taDue (d : Dev) (index : Nat) (e : TaEntry) : Bool :=
  let reached : Bool := e.late || 0 ≤ diff64 (d.now e.isl) e.t
  3 ≤ e.kind && reached && (e.dispatched || 6 ≤ e.kind) &&
    !d.tm.ta.any (fun x => x.1 < index && 3 ≤ x.2.kind && x.2.t = e.t && !x.2.late)

/-- TA_RUN: the action of an entry takes effect; `inp` is what host memory holds for a request that a REG_WRITE starts. -/
def execTaRun (i : BitVec 8) (inp : HostInput) (s : State) : Host.Outcome State Fault Refusal :=
  let s1 := { s with dev := s.dev.quiet }
  .next (match aget s1.dev.tm.ta i.toNat with
    | some e => if s1.dev.boot.run && s1.dev.taDue i.toNat e then s1.taPerform i.toNat e e.late inp else s1
    | none => s1)

/-! ### Steps (R263, Table 12-1) -/

/-- A time entry put in its place: by T counted from an instant, then by index. -/
def taInsert (from_ : Nat) (x : Nat × TaEntry) : List (Nat × TaEntry) → List (Nat × TaEntry)
  | [] => [x]
  | y :: t =>
    let dx := diff64 x.2.t from_
    let dy := diff64 y.2.t from_
    if dx < dy ∨ (dx = dy ∧ x.1 < y.1) then x :: y :: t else y :: taInsert from_ x t

/-- The sealed takes that hold no timer entry, as entries of their own at their S: indices from 256 on, by their owner. -/
def Dev.untimed (d : Dev) : List (Nat × TaEntry) :=
  (d.tak.commits.filter (fun c => decide (c.step = .sealed) && c.entry.isNone)).map (fun c =>
    (256 + c.owner, { kind := 1, t := c.s / nsUnit }))

/-- The entries and the sealed takes in order of T, then of index. -/
def Dev.taOrder (d : Dev) (from_ : Nat) : List (Nat × TaEntry) :=
  (d.tm.ta ++ d.untimed).foldl (fun l x => taInsert from_ x l) []

/-- Whether a forward step of an island has skipped an instant of 64 bits. -/
def skippedBy (was now t : Nat) : Bool :=
  let b : Bool := diff64 was t < 0 ∧ 0 ≤ diff64 now t
  b

/-- A sealed take whose S the step has skipped becomes current at the step, marked LATE. -/
def Dev.takeSkipped (d : Dev) (c : Commit) : Dev :=
  let now := d.instant 4
  let c1 : Commit := { c with s := now, late := true }
  let d1 := d.setCommit c1
  (d1.dies.foldl (fun (d : Dev) n => d.takeOn n c.n) d1).takeSwitched c.n now

/-- A time entry, or a sealed take, that a forward step may have skipped. -/
def State.skipEntry (s : State) (was : Dev) (index : Nat) (e : TaEntry) (inp : HostInput) : State :=
  let d := s.dev
  match e.kind with
  | 1 =>
    match d.tak.commits.find? (fun c => decide (c.step = .sealed) &&
        (if index < 256 then c.entry = some index else c.entry = none && 256 + c.owner = index)) with
    | some c => if skippedBy (was.now 4) (d.now 4) (c.s / nsUnit) then { s with dev := d.takeSkipped c } else s
    | none => s
  | 2 => if skippedBy (was.now (e.arg / 32)) (d.now (e.arg / 32)) e.t then { s with dev := d.gateOperational e.arg true } else s
  | _ => if skippedBy (was.now e.isl) (d.now e.isl) e.t then s.taPerform index e true inp else s

/-- Actions of a time that a backward step returns to the future are late no more. -/
def Dev.taWait (d : Dev) : Dev :=
  let ta := d.tm.ta.map (fun x =>
    let passed : Bool := 0 < diff64 (d.now x.2.isl) x.2.t
    (x.1, { x.2 with late := x.2.late && passed }))
  { d with tm := { d.tm with ta := ta } }

/-- The running gate lists shown at their new positions. -/
def Dev.gatesMoved (d : Dev) : Dev :=
  d.net.gates.foldl (fun (d : Dev) e => if e.2.running && d.gating e.1 then d.gateShow e.1 else d) d

/-- The frames held remember the step, which their residence leaves out. -/
def Dev.framesMoved (d : Dev) (delta : Int) : Dev :=
  { d with net := { d.net with frames := d.net.frames.map (fun (f : Frame) => { f with moved := f.moved + delta }) } }

/-- What a step does beside the time itself. -/
def State.stepped (s : State) (was : Dev) (x : Step) (inp : HostInput) : State :=
  let d0 := ((s.dev.setCd .tmStatus_set 1).setCd .tmStatus_stepPending 0).bump .tmStepCount 0 0 0 1
  let d1 := if x.snap then d0.setCd .tmCtl_snap 0 else d0
  let d2 := d1.raise 6 0x0A01 [(64, ofSigned 64 (x.delta / nsUnit))]
  let d3 := (List.range 5).foldl (fun (d : Dev) n => if d.ticking n then d.endInterval n else d) d2
  let d4 := (List.range 128).foldl (fun (d : Dev) q => if d.liveDie (q / 32) && d.portExists q then d.bwStep q else d) d3
  let s1 := (d4.taOrder (was.now 4)).foldl (fun (s : State) e => s.skipEntry was e.1 e.2 inp) { s with dev := d4 }
  { s1 with dev := (s1.dev.taWait.framesMoved x.delta).gatesMoved }

/-! ### The clapper (R261) -/

/-- A signed phase error in 16 bits. -/
def phaseBits (e : Int) : Nat := if -32768 ≤ e ∧ e ≤ 32767 then ofSigned 16 e else (Config.phaseClip e).toNat

/-- What a die does on a pulse; `step` is whether it is a step pulse. -/
def Dev.clapDie (d : Dev) (step : Bool) (n : Nat) : Dev :=
  let x := d.isl n
  let e := instDiff x.t (d.instant 4) / 2 ^ 28
  let jump := { x.move (-(e * 2 ^ 28)) with slew := 0, slewTicks := 0 }
  let d0 := (d.setPd .tmDieStatus_phaseErr n (phaseBits e)).setPd .tmDieStatus_missed n 0
  if step ∨ d.pd .tmDieStatus_aligned n = 0 then (d0.setIsl n jump).setAligned n true
  else if 1024 < e ∨ e < -1024 then (d0.setIsl n jump).raise n 0x0A02 [(2, n), (16, phaseBits e)]
  else d0.setIsl n { x with slew := -(e * 2 ^ 12), slewTicks := 65536 }

/-- Whether what was written at a tick count of the CD is at least 20 µs old. -/
def Dev.aged (d : Dev) (at_ : Nat) : Bool := at_ + 10000 ≤ d.ticks 4

/-- A pending TM_INC takes effect on every island (R258). -/
def Dev.incApply (d : Dev) : Dev :=
  match d.tm.incPend with
  | some (v, at_) =>
    if d.aged at_ then
      let isl := d.tm.isl.map (fun x => { x with inc := v })
      { d with tm := { d.tm with isl := isl, incPend := none } }.setCd .tmStatus_incPending 0
    else d
  | none => d

/-- The step that this boundary applies. -/
def Dev.stepNow (d : Dev) : Option Step := if d.tmHeld then none else d.tm.step.filter (fun x => d.aged x.at_)

/-- The clapper pulse of a boundary to the dies that hear it. -/
def State.clap (s : State) (hear : List Nat) (inp : HostInput) : State :=
  let was := s.dev
  let step := was.stepNow
  let d0 := if was.tmHeld then was else was.incApply
  let d1 := match step with
    | some x => ({ d0 with tm := { d0.tm with step := none } } : Dev).setIsl 4 ((d0.isl 4).move x.delta)
    | none => d0
  let d2 := (hear.filter (fun n => d1.railOn n)).foldl (fun (d : Dev) n => d.clapDie step.isSome n) d1
  let s1 := match step with
    | some x => State.stepped { s with dev := d2 } was x inp
    | none => { s with dev := d2 }
  let b := if step.isSome then s1.dev.now 4 else was.now 4 / 2 ^ 20 * 2 ^ 20
  { s1 with dev := s1.dev.timeMsg b }

/-- CLAPPER_PULSE: the CD's time has passed a multiple of 2²⁰ ns.  Bit n of `hear` says whether PDn receives the pulse; `inp`
is what host memory holds for a request that a skipped action starts. -/
def execClapperPulse (hear : BitVec 4) (inp : HostInput) (s : State) : Host.Outcome State Fault Refusal :=
  let s1 := { s with dev := s.dev.quiet }
  .next (if s1.dev.boot.run && s1.dev.instant 4 % (2 ^ 20 * nsUnit) < (s1.dev.isl 4).inc then
      s1.clap ((List.range 4).filter (fun n => hear.getLsbD n)) inp
    else s1)

end Sys2Proof.Machine
end

