-- ==== Sys2Proof/Machine/Dispatch.lean ====
section
/-! DEFINITION. The meaning of each command: one arm for each constructor. -/

namespace Sys2Proof.Machine

/-- The effect of a command on everything but the queue. -/
def exec (i : Instr) (s : State) : Host.Outcome State Fault Refusal :=
  match i with
  | .vaux33Apply => Sys2Proof.Machine.execVaux33Apply s
  | .vaux33Loss => Sys2Proof.Machine.execVaux33Loss s
  | .vin12Rise => Sys2Proof.Machine.execVin12Rise s
  | .pwrGoodRelease straps => Sys2Proof.Machine.execPwrGoodRelease straps s
  | .vin12LowReset => Sys2Proof.Machine.execVin12LowReset s
  | .vin12Restart straps => Sys2Proof.Machine.execVin12Restart straps s
  | .vin12SagAlarm mv => Sys2Proof.Machine.execVin12SagAlarm mv s
  | .porstNLow => Sys2Proof.Machine.execPorstNLow s
  | .porstNGlitch ns => Sys2Proof.Machine.execPorstNGlitch ns s
  | .porstNRelease straps => Sys2Proof.Machine.execPorstNRelease straps s
  | .romPhaseComplete sfdp readA readB => Sys2Proof.Machine.execRomPhaseComplete sfdp readA readB s
  | .continue_ => Sys2Proof.Machine.execContinue s
  | .bistStart => Sys2Proof.Machine.execBistStart s
  | .bistEnd failedPd failedCd => Sys2Proof.Machine.execBistEnd failedPd failedCd s
  | .bankVerifyDone read => Sys2Proof.Machine.execBankVerifyDone read s
  | .diePowerUp => Sys2Proof.Machine.execDiePowerUp s
  | .storyboardLoadComplete => Sys2Proof.Machine.execStoryboardLoadComplete s
  | .perstNAssert => Sys2Proof.Machine.execPerstNAssert s
  | .pcieD3hotEnter => Sys2Proof.Machine.execPcieD3hotEnter s
  | .railFault b => Sys2Proof.Machine.execRailFault b s
  | .thermAlertAssert temp hottest => Sys2Proof.Machine.execThermAlertAssert temp hottest s
  | .thermAlertRelease temp hottest => Sys2Proof.Machine.execThermAlertRelease temp hottest s
  | .thermalShutdown die temp => Sys2Proof.Machine.execThermalShutdown die temp s
  | .cutawayBegin => Sys2Proof.Machine.execCutawayBegin s
  | .cutawayEnd => Sys2Proof.Machine.execCutawayEnd s
  | .cutComplete => Sys2Proof.Machine.execCutComplete s
  | .spillCut => Sys2Proof.Machine.execSpillCut s
  | .spillRelease => Sys2Proof.Machine.execSpillRelease s
  | .spillTest => Sys2Proof.Machine.execSpillTest s
  | .imWriteStart idx readable => Sys2Proof.Machine.execImWriteStart idx readable s
  | .imWriteAbort => Sys2Proof.Machine.execImWriteAbort s
  | .imFlashOpComplete r => Sys2Proof.Machine.execImFlashOpComplete r s
  | .laserForceOff v => Sys2Proof.Machine.execLaserForceOff v s
  | .laserPoll ackW ackE => Sys2Proof.Machine.execLaserPoll ackW ackE s
  | .fibreEnableUpdate => Sys2Proof.Machine.execFibreEnableUpdate s
  | .lsFaultFall w e => Sys2Proof.Machine.execLsFaultFall w e s
  | .groupLightReached g power => Sys2Proof.Machine.execGroupLightReached g power s
  | .groupLightLost g power => Sys2Proof.Machine.execGroupLightLost g power s
  | .groupUnlitTimeout g power => Sys2Proof.Machine.execGroupUnlitTimeout g power s
  | .groupRelit g power => Sys2Proof.Machine.execGroupRelit g power s
  | .portEnable p => Sys2Proof.Machine.execPortEnable p s
  | .portDisable p => Sys2Proof.Machine.execPortDisable p s
  | .portSignalDetect p => Sys2Proof.Machine.execPortSignalDetect p s
  | .portLocked p => Sys2Proof.Machine.execPortLocked p s
  | .portFaultClear p => Sys2Proof.Machine.execPortFaultClear p s
  | .upDebounceExpire p => Sys2Proof.Machine.execUpDebounceExpire p s
  | .downCause p cause => Sys2Proof.Machine.execDownCause p cause s
  | .holdoffExpire p cause => Sys2Proof.Machine.execHoldoffExpire p cause s
  | .downCauseClear p => Sys2Proof.Machine.execDownCauseClear p s
  | .fpPortEnable k => Sys2Proof.Machine.execFpPortEnable k s
  | .fpPortDisable k => Sys2Proof.Machine.execFpPortDisable k s
  | .fphyIntFall => Sys2Proof.Machine.execFphyIntFall s
  | .frameHeadArrival p head back slow read => Sys2Proof.Machine.execFrameHeadArrival p head back slow read s
  | .illegal n p e => Sys2Proof.Machine.execIllegal n p e s
  | .nop n p e => Sys2Proof.Machine.execNop n p e s
  | .add n p e rd ra rb => Sys2Proof.Machine.execAdd n p e rd ra rb s
  | .sub n p e rd ra rb => Sys2Proof.Machine.execSub n p e rd ra rb s
  | .and n p e rd ra rb => Sys2Proof.Machine.execAnd n p e rd ra rb s
  | .or n p e rd ra rb => Sys2Proof.Machine.execOr n p e rd ra rb s
  | .xor n p e rd ra rb => Sys2Proof.Machine.execXor n p e rd ra rb s
  | .shl n p e rd ra rb => Sys2Proof.Machine.execShl n p e rd ra rb s
  | .shr n p e rd ra rb => Sys2Proof.Machine.execShr n p e rd ra rb s
  | .addi n p e rd ra imm => Sys2Proof.Machine.execAddi n p e rd ra imm s
  | .andi n p e rd ra imm => Sys2Proof.Machine.execAndi n p e rd ra imm s
  | .ori n p e rd ra imm => Sys2Proof.Machine.execOri n p e rd ra imm s
  | .xori n p e rd ra imm => Sys2Proof.Machine.execXori n p e rd ra imm s
  | .movi n p e rd imm => Sys2Proof.Machine.execMovi n p e rd imm s
  | .movhi n p e rd imm => Sys2Proof.Machine.execMovhi n p e rd imm s
  | .shli n p e rd ra imm => Sys2Proof.Machine.execShli n p e rd ra imm s
  | .shri n p e rd ra imm => Sys2Proof.Machine.execShri n p e rd ra imm s
  | .ext n p e rd ra pos len1 => Sys2Proof.Machine.execExt n p e rd ra pos len1 s
  | .ins n p e rd ra pos len1 => Sys2Proof.Machine.execIns n p e rd ra pos len1 s
  | .hld n p e rd base rb size off => Sys2Proof.Machine.execHld n p e rd base rb size off s
  | .hst n p e rs base rb size off => Sys2Proof.Machine.execHst n p e rs base rb size off s
  | .insb n p e rs base rb size off => Sys2Proof.Machine.execInsb n p e rs base rb size off s
  | .delb n p e base rb n1 off => Sys2Proof.Machine.execDelb n p e base rb n1 off s
  | .cksum n p e mode k => Sys2Proof.Machine.execCksum n p e mode k s
  | .rtag n p e mode idx => Sys2Proof.Machine.execRtag n p e mode idx s
  | .mrd n p e rd idx => Sys2Proof.Machine.execMrd n p e rd idx s
  | .mwr n p e ra idx => Sys2Proof.Machine.execMwr n p e ra idx s
  | .settc n p e ra reg tc => Sys2Proof.Machine.execSettc n p e ra reg tc s
  | .lookup n p e => Sys2Proof.Machine.execLookup n p e s
  | .redir n p e ra reg port => Sys2Proof.Machine.execRedir n p e ra reg port s
  | .group n p e slot => Sys2Proof.Machine.execGroup n p e slot s
  | .drop n p e => Sys2Proof.Machine.execDrop n p e s
  | .tohost n p e copy code => Sys2Proof.Machine.execTohost n p e copy code s
  | .mirror n p e slot => Sys2Proof.Machine.execMirror n p e slot s
  | .meter n p e rd slot => Sys2Proof.Machine.execMeter n p e rd slot s
  | .count n p e ra slot => Sys2Proof.Machine.execCount n p e ra slot s
  | .beq n p e ra rb off => Sys2Proof.Machine.execBeq n p e ra rb off s
  | .bne n p e ra rb off => Sys2Proof.Machine.execBne n p e ra rb off s
  | .blt n p e ra rb off => Sys2Proof.Machine.execBlt n p e ra rb off s
  | .bge n p e ra rb off => Sys2Proof.Machine.execBge n p e ra rb off s
  | .beqi n p e ra imm off => Sys2Proof.Machine.execBeqi n p e ra imm off s
  | .bnei n p e ra imm off => Sys2Proof.Machine.execBnei n p e ra imm off s
  | .bbs n p e ra bit off => Sys2Proof.Machine.execBbs n p e ra bit off s
  | .bbc n p e ra bit off => Sys2Proof.Machine.execBbc n p e ra bit off s
  | .jmp n p e off => Sys2Proof.Machine.execJmp n p e off s
  | .jtab n p e ra top => Sys2Proof.Machine.execJtab n p e ra top s
  | .exit n p e => Sys2Proof.Machine.execExit n p e s
  | .actionHandoff p => Sys2Proof.Machine.execActionHandoff p s
  | .replicate n => Sys2Proof.Machine.execReplicate n s
  | .serviceChannelEntry p meets => Sys2Proof.Machine.execServiceChannelEntry p meets s
  | .fpBpRepeat k => Sys2Proof.Machine.execFpBpRepeat k s
  | .cellWritten p more => Sys2Proof.Machine.execCellWritten p more s
  | .frameTailEnd p rest fcsOk octets code falseCarrier => Sys2Proof.Machine.execFrameTailEnd p rest fcsOk octets code falseCarrier s
  | .pfcPauseExpire p c => Sys2Proof.Machine.execPfcPauseExpire p c s
  | .pfcHeld100ms p c => Sys2Proof.Machine.execPfcHeld100ms p c s
  | .pfcTransmit p => Sys2Proof.Machine.execPfcTransmit p s
  | .pfcRepeat p => Sys2Proof.Machine.execPfcRepeat p s
  | .oneSecondIntervalEnd n => Sys2Proof.Machine.execOneSecondIntervalEnd n s
  | .fpCollision p late => Sys2Proof.Machine.execFpCollision p late s
  | .fpBackoffExpire x => Sys2Proof.Machine.execFpBackoffExpire x s
  | .graphWordReload n addr => Sys2Proof.Machine.execGraphWordReload n addr s
  | .clWordRewrite b => Sys2Proof.Machine.execClWordRewrite b s
  | .programWordReload n addr => Sys2Proof.Machine.execProgramWordReload n addr s
  | .staticEntryRewrite n idx => Sys2Proof.Machine.execStaticEntryRewrite n idx s
  | .memoryScrubPass n found => Sys2Proof.Machine.execMemoryScrubPass n found s
  | .tableScrubPass n found => Sys2Proof.Machine.execTableScrubPass n found s
  | .cfgScrubPass w bad => Sys2Proof.Machine.execCfgScrubPass w bad s
  | .learnQueueApply n => Sys2Proof.Machine.execLearnQueueApply n s
  | .sweeperVisit n idx => Sys2Proof.Machine.execSweeperVisit n idx s
  | .flushNotice n p => Sys2Proof.Machine.execFlushNotice n p s
  | .fwFlushStart n port fid byPort byFid => Sys2Proof.Machine.execFwFlushStart n port fid byPort byFid s
  | .fwFlushComplete n => Sys2Proof.Machine.execFwFlushComplete n s
  | .fwPrpCtlWrite n slot mode lan pair seq => Sys2Proof.Machine.execFwPrpCtlWrite n slot mode lan pair seq s
  | .dupForget n src => Sys2Proof.Machine.execDupForget n src s
  | .streamReset n id => Sys2Proof.Machine.execStreamReset n id s
  | .cellTime n => Sys2Proof.Machine.execCellTime n s
  | .tokenExpire n o c => Sys2Proof.Machine.execTokenExpire n o c s
  | .headScan n => Sys2Proof.Machine.execHeadScan n s
  | .holdExpire q c => Sys2Proof.Machine.execHoldExpire q c s
  | .fabricCellReceive a b k crcOk => Sys2Proof.Machine.execFabricCellReceive a b k crcOk s
  | .fabricCellMissing a b => Sys2Proof.Machine.execFabricCellMissing a b s
  | .frameTransmitStart q carrier => Sys2Proof.Machine.execFrameTransmitStart q carrier s
  | .frameTransmitEnd q => Sys2Proof.Machine.execFrameTransmitEnd q s
  | .gateConfigChange q => Sys2Proof.Machine.execGateConfigChange q s
  | .gateListOperational q => Sys2Proof.Machine.execGateListOperational q s
  | .gateEntryAdvance q => Sys2Proof.Machine.execGateEntryAdvance q s
  | .gateEnWrite q en => Sys2Proof.Machine.execGateEnWrite q en s
  | .mirrorDeferRelease n m => Sys2Proof.Machine.execMirrorDeferRelease n m s
  | .deferralAgeScan n => Sys2Proof.Machine.execDeferralAgeScan n s
  | .tkOpen at_ timeout => Sys2Proof.Machine.execTkOpen at_ timeout s
  | .tkCommit at_ timeout => Sys2Proof.Machine.execTkCommit at_ timeout s
  | .tkAbort at_ timeout => Sys2Proof.Machine.execTkAbort at_ timeout s
  | .commitActivate => Sys2Proof.Machine.execCommitActivate s
  | .commitSeal => Sys2Proof.Machine.execCommitSeal s
  | .commitTimeout => Sys2Proof.Machine.execCommitTimeout s
  | .takeSwitch n => Sys2Proof.Machine.execTakeSwitch n s
  | .commitConfirm => Sys2Proof.Machine.execCommitConfirm s
  | .takeRetire t => Sys2Proof.Machine.execTakeRetire t s
  | .reclaimComplete t => Sys2Proof.Machine.execReclaimComplete t s
  | .clTreeRebuild n => Sys2Proof.Machine.execClTreeRebuild n s
  | .treeStageComplete n how pct => Sys2Proof.Machine.execTreeStageComplete n how pct s
  | .plTailWrite tail => Sys2Proof.Machine.execPlTailWrite tail s
  | .plCtlWrite enable log2 => Sys2Proof.Machine.execPlCtlWrite enable log2 s
  | .intentCreate ask result readable payload => Sys2Proof.Machine.execIntentCreate ask result readable payload s
  | .intentModify desc payload => Sys2Proof.Machine.execIntentModify desc payload s
  | .intentDelete desc payload => Sys2Proof.Machine.execIntentDelete desc payload s
  | .intentAdd ask result readable payload => Sys2Proof.Machine.execIntentAdd ask result readable payload s
  | .intentChange ask result readable payload => Sys2Proof.Machine.execIntentChange ask result readable payload s
  | .intentRemove desc readable payload => Sys2Proof.Machine.execIntentRemove desc readable payload s
  | .intentBind desc payload => Sys2Proof.Machine.execIntentBind desc payload s
  | .intentWhere desc readable payload => Sys2Proof.Machine.execIntentWhere desc readable payload s
  | .intentRoomTimeout => Sys2Proof.Machine.execIntentRoomTimeout s
  | .sequencerMove m => Sys2Proof.Machine.execSequencerMove m s
  | .copySlotMeasure n h => Sys2Proof.Machine.execCopySlotMeasure n h s
  | .timeTick n => Sys2Proof.Machine.execTimeTick n s
  | .clapperPulse hear inp => Sys2Proof.Machine.execClapperPulse hear inp s
  | .clapperMissed n => Sys2Proof.Machine.execClapperMissed n s
  | .tmIncWrite v => Sys2Proof.Machine.execTmIncWrite v s
  | .tmSetWrite v => Sys2Proof.Machine.execTmSetWrite v s
  | .tmAdjWrite v => Sys2Proof.Machine.execTmAdjWrite v s
  | .timeclkLoss => Sys2Proof.Machine.execTimeclkLoss s
  | .timeclkReturn => Sys2Proof.Machine.execTimeclkReturn s
  | .taArm index kind => Sys2Proof.Machine.execTaArm index kind s
  | .taCancel index kind => Sys2Proof.Machine.execTaCancel index kind s
  | .taDispatch idx => Sys2Proof.Machine.execTaDispatch idx s
  | .taRun idx inp => Sys2Proof.Machine.execTaRun idx inp s
  | .ppsOutSecond => Sys2Proof.Machine.execPpsOutSecond s
  | .ppsWidthEnd => Sys2Proof.Machine.execPpsWidthEnd s
  | .ppsInEdge => Sys2Proof.Machine.execPpsInEdge s
  | .tmSnap mode inEn width => Sys2Proof.Machine.execTmSnap mode inEn width s
  | .laneParkWindow a b => Sys2Proof.Machine.execLaneParkWindow a b s
  | .laneExitEnd a b k margin => Sys2Proof.Machine.execLaneExitEnd a b k margin s
  | .laneLongExitEnd a b k margin => Sys2Proof.Machine.execLaneLongExitEnd a b k margin s
  | .driftCheck n ms => Sys2Proof.Machine.execDriftCheck n ms s
  | .laneLockLost a b k => Sys2Proof.Machine.execLaneLockLost a b k s
  | .lanePeerNotice a b k => Sys2Proof.Machine.execLanePeerNotice a b k s
  | .laneDrainComplete a b k => Sys2Proof.Machine.execLaneDrainComplete a b k s
  | .laneCalibrationDone a b k marginA marginB => Sys2Proof.Machine.execLaneCalibrationDone a b k marginA marginB s
  | .laneQualifyDone a b k marginA marginB blockError => Sys2Proof.Machine.execLaneQualifyDone a b k marginA marginB blockError s
  | .fbLaneOut a b k out => Sys2Proof.Machine.execFbLaneOut a b k out s
  | .fbLaneCalibrate a b k => Sys2Proof.Machine.execFbLaneCalibrate a b k s
  | .lnTestStart l source loopback duration => Sys2Proof.Machine.execLnTestStart l source loopback duration s
  | .lnTestStop l bits errors syncs => Sys2Proof.Machine.execLnTestStop l bits errors syncs s
  | .lnTestClear l => Sys2Proof.Machine.execLnTestClear l s
  | .lnInject l kind len count looped => Sys2Proof.Machine.execLnInject l kind len count looped s
  | .lnTestDurationEnd l bits errors syncs => Sys2Proof.Machine.execLnTestDurationEnd l bits errors syncs s
  | .duoEval peer own => Sys2Proof.Machine.execDuoEval peer own s
  | .claimCheck edge => Sys2Proof.Machine.execClaimCheck edge s
  | .initTimeout => Sys2Proof.Machine.execInitTimeout s
  | .healthBeacon k => Sys2Proof.Machine.execHealthBeacon k s
  | .hwWdogExpire k => Sys2Proof.Machine.execHwWdogExpire k s
  | .swWdogExpire => Sys2Proof.Machine.execSwWdogExpire s
  | .duFeed => Sys2Proof.Machine.execDuFeed s
  | .duClaim => Sys2Proof.Machine.execDuClaim s
  | .duRelease => Sys2Proof.Machine.execDuRelease s
  | .duClearFault => Sys2Proof.Machine.execDuClearFault s
  | .heartbeatSend => Sys2Proof.Machine.execHeartbeatSend s
  | .heartbeatReceive lane seq crcOk role elig sees good cause take commits => Sys2Proof.Machine.execHeartbeatReceive lane seq crcOk role elig sees good cause take commits s
  | .timeMsgReceive lane seq crcOk t1 echo => Sys2Proof.Machine.execTimeMsgReceive lane seq crcOk t1 echo s
  | .takeMsgReceive lane seq crcOk take at_ count => Sys2Proof.Machine.execTakeMsgReceive lane seq crcOk take at_ count s
  | .takeRequestReceive lane seq crcOk => Sys2Proof.Machine.execTakeRequestReceive lane seq crcOk s
  | .releaseMsgReceive lane seq crcOk => Sys2Proof.Machine.execReleaseMsgReceive lane seq crcOk s
  | .ctLinkLost => Sys2Proof.Machine.execCtLinkLost s
  | .ctLinkUp k => Sys2Proof.Machine.execCtLinkUp k s
  | .registerWrite a data form inp => Sys2Proof.Machine.execRegisterWrite a data form inp s
  | .rcRead a form => Sys2Proof.Machine.execRcRead a form s
  | .wmbRead w => Sys2Proof.Machine.execWmbRead w s
  | .wmbWrite w => Sys2Proof.Machine.execWmbWrite w s
  | .wmbD3Read w => Sys2Proof.Machine.execWmbD3Read w s
  | .errlogClear => Sys2Proof.Machine.execErrlogClear s
  | .irqEnableWrite hi v => Sys2Proof.Machine.execIrqEnableWrite hi v s
  | .dmStart k irq limit => Sys2Proof.Machine.execDmStart k irq limit s
  | .dmAbort k irq limit => Sys2Proof.Machine.execDmAbort k irq limit s
  | .dmDescFetchDone k desc => Sys2Proof.Machine.execDmDescFetchDone k desc s
  | .dmAccessComplete k data inp => Sys2Proof.Machine.execDmAccessComplete k data inp s
  | .dmAccessFail k how inp => Sys2Proof.Machine.execDmAccessFail k how inp s
  | .dmRetry k => Sys2Proof.Machine.execDmRetry k s
  | .dmHostReadTimeout k inp => Sys2Proof.Machine.execDmHostReadTimeout k inp s
  | .dmRingCtlWrite c v => Sys2Proof.Machine.execDmRingCtlWrite c v s
  | .dmTxTailWrite c tail => Sys2Proof.Machine.execDmTxTailWrite c tail s
  | .dmTxFrame desc data meets => Sys2Proof.Machine.execDmTxFrame desc data meets s
  | .dmRxTailWrite tail => Sys2Proof.Machine.execDmRxTailWrite tail s
  | .dmRxRecord buf => Sys2Proof.Machine.execDmRxRecord buf s
  | .obSnap n slot => Sys2Proof.Machine.execObSnap n slot s
  | .bwWindowEnd q => Sys2Proof.Machine.execBwWindowEnd q s
  | .recordDeliver => Sys2Proof.Machine.execRecordDeliver s
  | .summaryRaise r => Sys2Proof.Machine.execSummaryRaise r s
  | .incidentEnd r => Sys2Proof.Machine.execIncidentEnd r s
  | .obTrigger r => Sys2Proof.Machine.execObTrigger r s
  | .ftbRelease r => Sys2Proof.Machine.execFtbRelease r s
  | .obFatal => Sys2Proof.Machine.execObFatal s
  | .obDRptrWrite v => Sys2Proof.Machine.execObDRptrWrite v s
  | .hostRingFull1ms => Sys2Proof.Machine.execHostRingFull1ms s
  | .scReadSlate => Sys2Proof.Machine.execScReadSlate s
  | .scQuote nonce => Sys2Proof.Machine.execScQuote nonce s
  | .scGetChallenge => Sys2Proof.Machine.execScGetChallenge s
  | .scKeyCommand k => Sys2Proof.Machine.execScKeyCommand k s
  | .scAdvanceRollback => Sys2Proof.Machine.execScAdvanceRollback s
  | .scApplyPatch p => Sys2Proof.Machine.execScApplyPatch p s
  | .scRequestDone otpOk => Sys2Proof.Machine.execScRequestDone otpOk s
  | .challengeExpire => Sys2Proof.Machine.execChallengeExpire s
  | .perstNDeassert => Sys2Proof.Machine.execPerstNDeassert s
  | .pcieD3hotExit => Sys2Proof.Machine.execPcieD3hotExit s
  | .lsFaultNRise => Sys2Proof.Machine.execLsFaultNRise s
  | .fphyIntNRise => Sys2Proof.Machine.execFphyIntNRise s
  | .lnCheckerLock x => Sys2Proof.Machine.execLnCheckerLock x s
  | .lnCheckerLockLost x => Sys2Proof.Machine.execLnCheckerLockLost x s
  | .ctLaneLockLost k => Sys2Proof.Machine.execCtLaneLockLost k s
  | .intentReclaimWait1ms => Sys2Proof.Machine.execIntentReclaimWait1ms s
  | .opticalPowerCalibration slot tx rx => Sys2Proof.Machine.execOpticalPowerCalibration slot tx rx s

end Sys2Proof.Machine
end

