-- ==== Sys2Proof/Safety.lean ====
section
/-! DEFINITION. What counts as a safe run, in the terms the claims use: nothing undoes the OTP (R396), its records are in
order, the queue is first in, first out, and the flash keeps the bank that image writes do not go to (R43); and what the
claims say of resets, boots, lights, lane tests and action engines;
and what of the device each command may change. -/

namespace Sys2Proof.Machine

/-! ### Non-volatile storage -/

/-- Every bit of a number is set in another. -/
def bitsKept (a b : Nat) : Prop := a &&& b = a

/-- What a key slot held it still holds: bits changed only from 0 to 1. -/
def KeySlot.kept (a b : KeySlot) : Prop :=
  bitsKept a.content b.content ∧ (a.begun = true → b.begun = true) ∧ (a.marker = true → b.marker = true) ∧
    bitsKept a.revoke b.revoke

/-- What the OTP held it still holds: the key slots keep their bits, and records are only added behind those there. -/
def Otp.kept (a b : Otp) : Prop :=
  (∀ j : Fin 4, KeySlot.kept (a.slots.get j) (b.slots.get j)) ∧ (∃ l, b.advances = a.advances ++ l) ∧
    (∃ l, b.patches = a.patches ++ l)

/-- A record of a key slot is complete only when it was begun (Table 19-2). -/
def Otp.sound (o : Otp) : Prop := ∀ j : Fin 4, (o.slots.get j).marker = true → (o.slots.get j).begun = true

/-- A command that may write the flash or the OTP: a reset that cuts an OTP write short, the steps of an image write or a
security request, and what carries a register write that may start one. -/
def Instr.touchesStore : Instr → Bool
  | .vaux33Loss | .vin12LowReset | .porstNLow | .scRequestDone _ | .imWriteStart _ _ | .imFlashOpComplete _
  | .registerWrite _ _ _ _ | .dmAccessComplete _ _ _ | .dmAccessFail _ _ _ | .dmHostReadTimeout _ _ | .taRun _ _
  | .clapperPulse _ _ => true
  | _ => false

/-! ### The host -/

/-- A command that is an access by the host to BAR0. -/
def Instr.hostAccess : Instr → Bool
  | .continue_ | .bistStart | .spillTest | .spillRelease | .imWriteStart _ _ | .imWriteAbort | .laserForceOff _
  | .portEnable _ | .portDisable _ | .fpPortEnable _ | .fpPortDisable _ | .fwFlushStart _ _ _ _ _
  | .fwPrpCtlWrite _ _ _ _ _ _ | .gateConfigChange _ | .gateEnWrite _ _ | .tkOpen _ _ | .tkCommit _ _ | .tkAbort _ _
  | .clTreeRebuild _ | .plTailWrite _ | .plCtlWrite _ _ | .tmIncWrite _ | .tmSetWrite _ | .tmAdjWrite _ | .taArm _ _
  | .taCancel _ _ | .tmSnap _ _ _ | .fbLaneOut _ _ _ _ | .fbLaneCalibrate _ _ _ | .lnTestStart _ _ _ _
  | .lnTestStop _ _ _ _ | .lnTestClear _ | .lnInject _ _ _ _ _ | .duFeed | .duClaim | .duRelease | .duClearFault
  | .registerWrite _ _ _ _ | .rcRead _ _ | .wmbRead _ | .wmbWrite _ | .wmbD3Read _ | .errlogClear | .irqEnableWrite _ _
  | .dmStart _ _ _ | .dmAbort _ _ _ | .dmRingCtlWrite _ _ | .dmTxTailWrite _ _ | .dmRxTailWrite _ | .obSnap _ _
  | .obTrigger _ | .ftbRelease _ | .obFatal | .obDRptrWrite _ | .scReadSlate | .scQuote _ | .scGetChallenge
  | .scKeyCommand _ | .scAdvanceRollback | .scApplyPatch _ => true
  | _ => false

/-- The state with its device replaced. -/
def State.put (s : State) (d : Dev) : State := { s with dev := d }

/-! ### Resets and boot -/

/-- A state that a reset of another leaves, with its supplies: the queue and the flash, the OTP where no security request
runs, and every other piece of state at its reset value, the count of draws apart. -/
structure State.resetTo (s t : State) (x : Supply) : Prop where
  queue : t.pending = s.pending
  flash : t.flash = s.flash
  otp : s.dev.sec.run = none → t.otp = s.otp
  dev : t.dev = { sup := { x with cfgReady := false, d3hot := false, thermShut := false, railFault := false },
                  net := { draws := t.dev.net.draws } }

/-- A state in which the boot of another, its supplies having become some, has begun with straps (R296, R324, R330, R331). -/
structure State.bootBegun (s t : State) (x : Supply) (straps : BitVec 8) : Prop where
  queue : t.pending = s.pending
  flash : t.flash = s.flash
  otp : t.otp = s.otp
  boot : t.dev.boot = { s.dev.boot with run := true }
  sup : t.dev.sup = { x with porstN := true, vinLow := false, cfgReady := x.perstN }
  strapUnit : t.dev.cd .btStraps_unit = (straps.getLsbD 0).toNat
  strapDuo : t.dev.cd .btStraps_duoEn = (straps.getLsbD 1).toNat
  strapRev : t.dev.cd .btStraps_pcieRev = (straps.getLsbD 2).toNat
  strapSize : t.dev.cd .btStraps_istoreSize = (straps.getLsbD 3).toNat
  strapSpill : t.dev.cd .btStraps_spillEn = (straps.getLsbD 4).toNat
  strapHold : t.dev.cd .btStraps_bootHold = (straps.getLsbD 5).toNat
  strapSpare : t.dev.cd .btStraps_spare = straps.toNat / 64
  cause : t.dev.cd .btResetCause_cause = x.cause
  duo : t.dev.cd .duStatus_duo = (straps.getLsbD 1).toNat
  unit : t.dev.cd .duStatus_unit = (straps.getLsbD 0).toNat
  role : t.dev.cd .duStatus_role = (straps.getLsbD 1).toNat
  banks : t.dev.cd .imBootStatus_aResult = 1 ∧ t.dev.cd .imBootStatus_bResult = 1
  rest : t.dev.tm = s.dev.tm ∧ t.dev.net = s.dev.net ∧ t.dev.fw = s.dev.fw ∧ t.dev.tak = s.dev.tak ∧ t.dev.plc = s.dev.plc ∧
    t.dev.fab = s.dev.fab ∧ t.dev.duo = s.dev.duo ∧ t.dev.dma = s.dev.dma ∧ t.dev.sec = s.dev.sec

/-- The result of a bank as IM_BOOT_STATUS reports it (R42). -/
def Dev.result (d : Dev) : Bank → Nat
  | .a => d.cd .imBootStatus_aResult
  | .b => d.cd .imBootStatus_bResult

/-! ### What a command may change -/

/-- The parts of a device beside its register fields, its wide values and what leaves it. -/
inductive Part where
  | sup | boot | safe | snaps | errlog | bkts | obs | tm | net | fw | tak | plc | fab | duo | dma | sec
  deriving DecidableEq, Repr

/-- A part of a device is what it was. -/
def Part.same (d t : Dev) : Part → Prop
  | .sup => t.sup = d.sup
  | .boot => t.boot = d.boot
  | .safe => t.safe = d.safe
  | .snaps => t.snaps = d.snaps
  | .errlog => t.errlog = d.errlog
  | .bkts => t.bkts = d.bkts
  | .obs => t.obs = d.obs
  | .tm => t.tm = d.tm
  | .net => t.net = d.net
  | .fw => t.fw = d.fw
  | .tak => t.tak = d.tak
  | .plc => t.plc = d.plc
  | .fab => t.fab = d.fab
  | .duo => t.duo = d.duo
  | .dma => t.dma = d.dma
  | .sec => t.sec = d.sec

/-- The register fields that an event or an interrupt cause may change. -/
@[simp] def evFld (f : Fld) : Prop :=
  f = .obRingStatus_incidentSticky ∨ f = .obRingStatus_lastCause ∨ f = .obPmcStatus_ovf ∨ f = .obPmcCtl_globalEn ∨
    f = .hiIrqCauseLo_cause ∨ f = .msixPba_pending

/-- The wide values that an event may change. -/
@[simp] def evWide (x : Wide) : Prop := x = .obRaised ∨ x = .obLoss ∨ x = .obFtbMissed ∨ x = .obPmc

/-- Of a device no other parts have changed, no other register fields (`none`: any field may have changed) and no other wide
values; the fields and values of events and interrupt causes apart. -/
structure Only (ps : List Part) (fs : Option (List Fld)) (xs : Option (List Wide)) (d t : Dev) : Prop where
  part : ∀ p, ps.contains p = false → p.same d t
  fld : ∀ l, fs = some l → ∀ f w i j, l.contains f = false → ¬ evFld f → t.fld f w i j = d.fld f w i j
  wide : ∀ l, xs = some l → ∀ x w i j, l.contains x = false → ¬ evWide x → t.wide x w i j = d.wide x w i j

/-- What of the device a command may change: parts, register fields and wide values. -/
structure Scope where
  parts : List Part
  flds : Option (List Fld)
  wides : Option (List Wide)
  deriving Repr

/-- Nothing outside a scope has changed. -/
def Scope.holds (x : Scope) (d t : Dev) : Prop := Only x.parts x.flds x.wides d t

/-- All of the device: a reset, and a command that carries a register write. -/
def Scope.all : Scope :=
  ⟨[.sup, .boot, .safe, .snaps, .errlog, .bkts, .obs, .tm, .net, .fw, .tak, .plc, .fab, .duo, .dma, .sec], none, none⟩

/-- What of the device each command may change. -/
def Instr.scope : Instr → Scope
  | .vaux33Apply | .vin12Rise | .perstNDeassert | .pcieD3hotExit =>
    ⟨[.sup], some [], some []⟩
  | .vaux33Loss | .vin12LowReset | .porstNLow | .clapperPulse .. | .taRun .. | .registerWrite .. | .wmbRead ..
  | .wmbWrite .. | .dmAccessComplete .. | .dmAccessFail .. | .dmHostReadTimeout .. =>
    Scope.all
  | .pwrGoodRelease .. | .vin12Restart .. | .porstNRelease .. =>
    ⟨[.sup, .boot, .bkts, .obs], some [.btResetCause_cause, .btStraps_bootHold, .btStraps_duoEn, .btStraps_istoreSize,
          .btStraps_pcieRev, .btStraps_spare, .btStraps_spillEn, .btStraps_unit, .duStatus_duo, .duStatus_role,
          .duStatus_unit, .imBootStatus_aResult, .imBootStatus_bResult, .scOtpStatus_advancesLeft,
          .scOtpStatus_broken, .scOtpStatus_patchLevel, .scOtpStatus_patchesLeft, .scOtpStatus_programmed,
          .scOtpStatus_revoked], some [.scKeyHash, .scRollback]⟩
  | .vin12SagAlarm .. =>
    ⟨[.bkts, .obs], some [.pwStatus_vin12LowSticky], some []⟩
  | .porstNGlitch .. | .summaryRaise .. | .incidentEnd .. | .hostRingFull1ms | .intentReclaimWait1ms =>
    ⟨[.bkts, .obs], some [], some []⟩
  | .romPhaseComplete .. =>
    ⟨[.boot, .bkts, .obs], some [.btSceneStatus_phase], some []⟩
  | .continue_ =>
    ⟨[.boot], some [.btBootCtl_continue, .btSceneStatus_phase], some []⟩
  | .bistStart =>
    ⟨[.errlog, .bkts, .obs], some [.dvBistCtl_code, .hiErrlogStatus_overflowSticky, .pwStatus_railOn], some
          [.hiErrDropped]⟩
  | .bistEnd .. =>
    ⟨[.boot, .bkts, .obs], some [.btBootCtl_continue, .btSceneStatus_phase, .dvBistCtl_code, .dvBistCtl_failedCd,
          .dvBistCtl_failedPd, .pwStatus_railOn], some []⟩
  | .bankVerifyDone .. =>
    ⟨[.boot, .bkts, .obs, .net], some [.btSceneStatus_phase, .imBootSeq_seq, .imBootStatus_aResult,
          .imBootStatus_bResult, .imBootStatus_bank, .imWriteStatus_target], some []⟩
  | .diePowerUp =>
    ⟨[.boot, .tm], some [.pwStatus_railOn], some []⟩
  | .storyboardLoadComplete =>
    ⟨[.boot, .bkts, .obs, .tm, .net, .fw, .tak, .plc], none, none⟩
  | .perstNAssert =>
    ⟨[.sup, .dma], none, none⟩
  | .pcieD3hotEnter =>
    ⟨[.sup, .bkts, .obs, .dma], some [.dmChCtl_abort, .dmChCtl_start, .dmChIndex2_i2, .dmChIndex_i0, .dmChIndex_i1,
          .dmChStatus_code, .dmChStatus_state], some []⟩
  | .railFault .. =>
    ⟨[.sup, .boot, .bkts, .obs, .tm, .net, .fw, .tak, .plc, .fab], some [.aeFaultLast_addr, .aeFaultLast_cause,
          .aeFaultLast_prog, .aeStatus_faultSticky, .aeStatus_paritySticky, .clInspectUse_nodePct,
          .fbLaneCtl_calibrate, .fbLaneStatus_lastCause, .fbLaneStatus_removals, .fbLaneStatus_state,
          .fbLaneStatus_txIdle, .fbLinkStatus_belowMinSticky, .fpPortStatus_bpActive, .fpPortStatus_exceededSticky,
          .fpPortStatus_up, .fwStatus_fillSticky, .lnTestStatus_code, .lnTestStatus_state, .obFatal_cause,
          .obFatal_fatalSticky, .opFibreStatus_dark, .ptMacThresh_exceededSticky, .ptPortStatus_downCount,
          .ptPortStatus_lastCause, .ptPortStatus_state, .pwStatus_railFaultSticky, .pwStatus_railOn,
          .swPortStatus_discarding, .swPortStatus_downBp, .swPortStatus_holding, .swPortStatus_xoff,
          .swStatus_globalXoff, .tmDieStatus_capOverflowSticky], none⟩
  | .thermAlertAssert .. =>
    ⟨[.bkts, .obs], some [.dvTherm_alertActive, .dvTherm_alertSticky, .dvTherm_hottest, .dvTherm_temp], some []⟩
  | .thermAlertRelease .. =>
    ⟨[.bkts, .obs], some [.dvTherm_alertActive, .dvTherm_hottest, .dvTherm_temp], some []⟩
  | .thermalShutdown .. =>
    ⟨[.sup, .boot, .bkts, .obs, .tm, .net, .fw, .tak, .plc, .fab], some [.aeFaultLast_addr, .aeFaultLast_cause,
          .aeFaultLast_prog, .aeStatus_faultSticky, .aeStatus_paritySticky, .clInspectUse_nodePct,
          .dvLaserCtl_lsEnState, .fbLaneCtl_calibrate, .fbLaneStatus_lastCause, .fbLaneStatus_removals,
          .fbLaneStatus_state, .fbLaneStatus_txIdle, .fbLinkStatus_belowMinSticky, .fpPortStatus_bpActive,
          .fpPortStatus_exceededSticky, .fpPortStatus_up, .fwStatus_fillSticky, .lnTestStatus_code,
          .lnTestStatus_state, .obFatal_cause, .obFatal_fatalSticky, .opFibreStatus_dark, .ptMacThresh_exceededSticky,
          .ptPortStatus_downCount, .ptPortStatus_lastCause, .ptPortStatus_state, .pwStatus_railOn,
          .swPortStatus_discarding, .swPortStatus_downBp, .swPortStatus_holding, .swPortStatus_xoff,
          .swStatus_globalXoff, .tmDieStatus_capOverflowSticky], none⟩
  | .cutawayBegin | .cutawayEnd =>
    ⟨[.boot, .bkts, .obs, .tm, .net, .plc], some [.aeFaultLast_addr, .aeFaultLast_cause, .aeFaultLast_prog,
          .aeStatus_faultSticky, .aeStatus_paritySticky, .btSceneStatus_cutting, .fpPortStatus_bpActive,
          .fpPortStatus_exceededSticky, .ptMacThresh_exceededSticky, .swPortStatus_downBp, .swPortStatus_xoff,
          .swStatus_globalXoff, .tmDieStatus_capOverflowSticky], none⟩
  | .cutComplete =>
    ⟨[.boot, .bkts, .obs, .tm, .net, .fw, .plc], some [.aeFaultLast_addr, .aeFaultLast_cause, .aeFaultLast_prog,
          .aeStatus_faultSticky, .aeStatus_paritySticky, .btSceneStatus_cutting, .btSceneStatus_scene,
          .btSceneStatus_spillSticky, .fpPortStatus_bpActive, .fpPortStatus_exceededSticky, .fpPortStatus_up,
          .fpStatus_phyInt, .fpStatus_phyIntSticky, .fwStatus_fillSticky, .imWriteCtl_abort, .imWriteCtl_start,
          .imWriteStatus_code, .imWriteStatus_state, .ptMacThresh_exceededSticky, .swPortStatus_discarding,
          .swPortStatus_downBp, .swPortStatus_holding, .swPortStatus_xoff, .swStatus_globalXoff,
          .tmDieStatus_capOverflowSticky], none⟩
  | .spillCut =>
    ⟨[.boot, .bkts, .obs, .tm, .net, .fw, .plc], some [.aeFaultLast_addr, .aeFaultLast_cause, .aeFaultLast_prog,
          .aeStatus_faultSticky, .aeStatus_paritySticky, .btSceneStatus_cutting, .btSceneStatus_spillSticky,
          .fpPortStatus_bpActive, .fpPortStatus_exceededSticky, .fpPortStatus_up, .fwStatus_fillSticky,
          .imWriteCtl_abort, .imWriteCtl_start, .imWriteStatus_code, .imWriteStatus_state,
          .ptMacThresh_exceededSticky, .swPortStatus_discarding, .swPortStatus_downBp, .swPortStatus_holding,
          .swPortStatus_xoff, .swStatus_globalXoff, .tmDieStatus_capOverflowSticky], none⟩
  | .spillRelease =>
    ⟨[.boot, .errlog, .bkts, .obs, .tm, .net, .plc], some [.aeFaultLast_addr, .aeFaultLast_cause, .aeFaultLast_prog,
          .aeStatus_faultSticky, .aeStatus_paritySticky, .btSceneStatus_cutting, .fpPortStatus_bpActive,
          .fpPortStatus_exceededSticky, .hiErrlogStatus_overflowSticky, .ptMacThresh_exceededSticky,
          .swPortStatus_downBp, .swPortStatus_xoff, .swStatus_globalXoff, .tmDieStatus_capOverflowSticky], none⟩
  | .spillTest =>
    ⟨[.boot, .errlog, .bkts, .obs, .tm, .net, .fw, .plc], some [.aeFaultLast_addr, .aeFaultLast_cause,
          .aeFaultLast_prog, .aeStatus_faultSticky, .aeStatus_paritySticky, .btSceneStatus_cutting,
          .btSceneStatus_spillSticky, .fpPortStatus_bpActive, .fpPortStatus_exceededSticky, .fpPortStatus_up,
          .fwStatus_fillSticky, .hiErrlogStatus_overflowSticky, .imWriteCtl_abort, .imWriteCtl_start,
          .imWriteStatus_code, .imWriteStatus_state, .ptMacThresh_exceededSticky, .swPortStatus_discarding,
          .swPortStatus_downBp, .swPortStatus_holding, .swPortStatus_xoff, .swStatus_globalXoff,
          .tmDieStatus_capOverflowSticky], none⟩
  | .imWriteStart .. | .imFlashOpComplete .. =>
    ⟨[.boot, .bkts, .obs], some [.imWriteCtl_abort, .imWriteCtl_start, .imWriteStatus_code, .imWriteStatus_progress,
          .imWriteStatus_state], some []⟩
  | .imWriteAbort =>
    ⟨[.boot, .errlog, .bkts, .obs], some [.hiErrlogStatus_overflowSticky, .imWriteCtl_abort], some [.hiErrDropped]⟩
  | .laserForceOff .. =>
    ⟨[.errlog, .bkts, .obs, .tm, .net, .fw, .plc], some [.aeFaultLast_addr, .aeFaultLast_cause, .aeFaultLast_prog,
          .aeStatus_faultSticky, .aeStatus_paritySticky, .dvLaserCtl_forceOff, .dvLaserCtl_lsEnState,
          .fpPortStatus_bpActive, .fpPortStatus_exceededSticky, .fwStatus_fillSticky, .hiErrlogStatus_overflowSticky,
          .opFibreStatus_dark, .ptMacThresh_exceededSticky, .ptPortStatus_downCount, .ptPortStatus_lastCause,
          .ptPortStatus_state, .swPortStatus_discarding, .swPortStatus_downBp, .swPortStatus_holding,
          .swPortStatus_xoff, .swStatus_globalXoff, .tmDieStatus_capOverflowSticky], none⟩
  | .laserPoll .. | .pfcHeld100ms .. | .oneSecondIntervalEnd .. | .tokenExpire .. =>
    ⟨[.bkts, .obs, .net], some [], some []⟩
  | .fibreEnableUpdate =>
    ⟨[.net], some [.opFibreStatus_dark, .opReach_lit], some []⟩
  | .lsFaultFall .. =>
    ⟨[.bkts, .obs], some [.dvLaserCtl_lsFault, .dvLaserCtl_lsFaultSticky], some []⟩
  | .groupLightReached .. | .groupRelit .. =>
    ⟨[.net], some [.opFibreStatus_dark, .opFibreStatus_inputPower, .ptPortStatus_state], some []⟩
  | .groupLightLost .. | .groupUnlitTimeout .. =>
    ⟨[.bkts, .obs, .tm, .net, .fw, .plc], some [.aeFaultLast_addr, .aeFaultLast_cause, .aeFaultLast_prog,
          .aeStatus_faultSticky, .aeStatus_paritySticky, .fpPortStatus_bpActive, .fpPortStatus_exceededSticky,
          .fwStatus_fillSticky, .opFibreStatus_dark, .opFibreStatus_darkSticky, .opFibreStatus_inputPower,
          .ptMacThresh_exceededSticky, .ptPortStatus_downCount, .ptPortStatus_lastCause, .ptPortStatus_state,
          .swPortStatus_discarding, .swPortStatus_downBp, .swPortStatus_holding, .swPortStatus_xoff,
          .swStatus_globalXoff, .tmDieStatus_capOverflowSticky], none⟩
  | .portEnable .. =>
    ⟨[.errlog, .bkts, .obs, .net], some [.hiErrlogStatus_overflowSticky, .lnTestStatus_code, .lnTestStatus_state,
          .ptPortCtl_enable, .ptPortStatus_state], some [.hiErrDropped, .lnBitErrors, .lnBits, .lnSyncErrors]⟩
  | .portDisable .. =>
    ⟨[.errlog, .bkts, .obs, .tm, .net, .fw, .plc], some [.aeFaultLast_addr, .aeFaultLast_cause, .aeFaultLast_prog,
          .aeStatus_faultSticky, .aeStatus_paritySticky, .fpPortStatus_bpActive, .fpPortStatus_exceededSticky,
          .fwStatus_fillSticky, .hiErrlogStatus_overflowSticky, .ptMacThresh_exceededSticky, .ptPortCtl_enable,
          .ptPortStatus_downCount, .ptPortStatus_lastCause, .ptPortStatus_state, .swPortStatus_discarding,
          .swPortStatus_downBp, .swPortStatus_holding, .swPortStatus_xoff, .swStatus_globalXoff,
          .tmDieStatus_capOverflowSticky], none⟩
  | .portSignalDetect .. | .portLocked .. | .portFaultClear .. =>
    ⟨[], some [.ptPortStatus_state], some []⟩
  | .upDebounceExpire .. =>
    ⟨[.bkts, .obs, .net, .fab], some [.duStatus_role, .ptPortStatus_state, .swPortStatus_discarding,
          .swPortStatus_downBp, .swPortStatus_holding, .swPortStatus_xoff], some [.swDownBp]⟩
  | .downCause .. | .holdoffExpire .. | .downCauseClear .. =>
    ⟨[.bkts, .obs, .tm, .net, .fw, .plc], some [.aeFaultLast_addr, .aeFaultLast_cause, .aeFaultLast_prog,
          .aeStatus_faultSticky, .aeStatus_paritySticky, .fpPortStatus_bpActive, .fpPortStatus_exceededSticky,
          .fwStatus_fillSticky, .ptMacThresh_exceededSticky, .ptPortStatus_downCount, .ptPortStatus_lastCause,
          .ptPortStatus_state, .swPortStatus_discarding, .swPortStatus_downBp, .swPortStatus_holding,
          .swPortStatus_xoff, .swStatus_globalXoff, .tmDieStatus_capOverflowSticky], none⟩
  | .fpPortEnable .. =>
    ⟨[.errlog, .bkts, .obs, .net], some [.fpPortCtl_enable, .fpPortStatus_up, .hiErrlogStatus_overflowSticky,
          .swPortStatus_discarding, .swPortStatus_downBp, .swPortStatus_holding, .swPortStatus_xoff], some
          [.hiErrDropped, .swDownBp]⟩
  | .fpPortDisable .. =>
    ⟨[.errlog, .bkts, .obs, .tm, .net, .fw, .plc], some [.fpPortCtl_enable, .fpPortStatus_up, .fwStatus_fillSticky,
          .hiErrlogStatus_overflowSticky, .swPortStatus_discarding, .swPortStatus_downBp, .swPortStatus_holding,
          .swPortStatus_xoff, .swStatus_globalXoff, .tmDieStatus_capOverflowSticky], none⟩
  | .fphyIntFall =>
    ⟨[.sup, .bkts, .obs], some [.fpStatus_phyInt, .fpStatus_phyIntSticky], some []⟩
  | .frameHeadArrival .. | .serviceChannelEntry .. =>
    ⟨[.bkts, .obs, .net, .plc], some [.aeFaultLast_addr, .aeFaultLast_cause, .aeFaultLast_prog, .aeStatus_faultSticky,
          .aeStatus_paritySticky, .aeStatus_rateSticky, .clInspectStatus_scanWaitSticky,
          .clInspectStatus_treeParitySticky, .clPipeStatus_paritySticky, .clPipeStatus_rateSticky,
          .fpPortStatus_bpActive, .psPortStatus_exceededSticky, .psPortStatus_lastReason,
          .psPortStatus_malformedSticky, .psStatus_graphParitySticky, .psStatus_noSessionSticky, .swPortStatus_downBp,
          .swPortStatus_xoff, .swStatus_globalXoff], none⟩
  | .illegal .. | .nop .. | .add .. | .sub .. | .and .. | .or .. | .xor .. | .shl .. | .shr .. | .addi ..
  | .andi .. | .ori .. | .xori .. | .movi .. | .movhi .. | .shli .. | .shri .. | .ext .. | .ins .. | .hld ..
  | .hst .. | .insb .. | .delb .. | .cksum .. | .rtag .. | .mrd .. | .mwr .. | .settc .. | .lookup ..
  | .redir .. | .group .. | .drop .. | .tohost .. | .mirror .. | .beq .. | .bne .. | .blt .. | .bge ..
  | .beqi .. | .bnei .. | .bbs .. | .bbc .. | .jmp .. | .jtab .. | .exit .. =>
    ⟨[.bkts, .obs, .net], some [.aeFaultLast_addr, .aeFaultLast_cause, .aeFaultLast_prog, .aeStatus_faultSticky,
          .aeStatus_paritySticky, .obSampleStatus_fullSticky], none⟩
  | .meter .. | .count .. =>
    ⟨[.bkts, .obs, .net, .plc], some [.aeFaultLast_addr, .aeFaultLast_cause, .aeFaultLast_prog, .aeStatus_faultSticky,
          .aeStatus_paritySticky, .obSampleStatus_fullSticky], none⟩
  | .actionHandoff .. =>
    ⟨[.bkts, .obs, .net, .fw, .plc], some [.fwStatus_paritySticky], none⟩
  | .replicate .. | .mirrorDeferRelease .. =>
    ⟨[.bkts, .obs, .tm, .net], some [.swPortStatus_downBp, .swPortStatus_xoff, .swStatus_globalXoff,
          .tmDieStatus_capOverflowSticky], none⟩
  | .fpBpRepeat .. | .pfcTransmit .. | .pfcRepeat .. =>
    ⟨[.net], some [], some [.obStat]⟩
  | .cellWritten .. =>
    ⟨[.bkts, .obs, .net, .plc], some [.aeFaultLast_addr, .aeFaultLast_cause, .aeFaultLast_prog, .aeStatus_faultSticky,
          .aeStatus_paritySticky, .aeStatus_rateSticky, .clInspectStatus_scanWaitSticky,
          .clInspectStatus_treeParitySticky, .clPipeStatus_paritySticky, .clPipeStatus_rateSticky,
          .fpPortStatus_bpActive, .psPortStatus_exceededSticky, .psPortStatus_lastReason,
          .psPortStatus_malformedSticky, .psStatus_graphParitySticky, .psStatus_noSessionSticky, .swPortStatus_downBp,
          .swPortStatus_overrunSticky, .swPortStatus_xoff, .swStatus_bufFullSticky, .swStatus_globalXoff,
          .swStatus_overrunSticky], none⟩
  | .frameTailEnd .. =>
    ⟨[.bkts, .obs, .tm, .net, .fw, .plc], some [.aeFaultLast_addr, .aeFaultLast_cause, .aeFaultLast_prog,
          .aeStatus_faultSticky, .aeStatus_paritySticky, .aeStatus_rateSticky, .clInspectStatus_scanWaitSticky,
          .clInspectStatus_treeParitySticky, .clPipeStatus_paritySticky, .clPipeStatus_rateSticky,
          .fpPortStatus_bpActive, .fpPortStatus_exceededSticky, .psPortStatus_exceededSticky,
          .psPortStatus_lastReason, .psPortStatus_malformedSticky, .psStatus_graphParitySticky,
          .psStatus_noSessionSticky, .ptMacThresh_exceededSticky, .swPortStatus_downBp, .swPortStatus_xoff,
          .swStatus_globalXoff, .tmDieStatus_capOverflowSticky], none⟩
  | .pfcPauseExpire .. | .graphWordReload .. | .clWordRewrite .. | .programWordReload ..
  | .staticEntryRewrite .. =>
    ⟨[.net], some [], some []⟩
  | .fpCollision .. =>
    ⟨[.bkts, .obs, .tm, .net, .plc], some [.fpPortStatus_exceededSticky, .ptMacThresh_exceededSticky,
          .swPortStatus_downBp, .swPortStatus_xoff, .swStatus_globalXoff, .tmDieStatus_capOverflowSticky], some
          [.obStat, .swDownBp, .tmCapOverflow]⟩
  | .fpBackoffExpire .. =>
    ⟨[.bkts, .obs, .net], some [], some [.tmPtpSkipped, .tmPtpUpdated]⟩
  | .memoryScrubPass .. =>
    ⟨[.bkts, .obs, .net], some [.aeStatus_paritySticky, .clInspectStatus_treeParitySticky,
          .clPipeStatus_paritySticky], some []⟩
  | .tableScrubPass .. =>
    ⟨[.bkts, .obs, .net, .fw], some [.fwStatus_paritySticky], some [.fwParity]⟩
  | .cfgScrubPass .. =>
    ⟨[.safe, .bkts, .obs, .tm, .net, .fw, .plc, .fab, .dma], some [.aeFaultLast_addr, .aeFaultLast_cause,
          .aeFaultLast_prog, .aeStatus_faultSticky, .aeStatus_paritySticky, .dmChCtl_abort, .dmChCtl_start,
          .dmChIndex2_i2, .dmChIndex_i0, .dmChIndex_i1, .dmChStatus_code, .dmChStatus_state, .dvLaserCtl_lsEnState,
          .egGateStatus_gates, .fbLaneCtl_calibrate, .fbLaneCtl_out, .fbLaneStatus_lastCause, .fbLaneStatus_removals,
          .fbLaneStatus_state, .fbLaneStatus_txIdle, .fbLinkStatus_belowMinSticky, .fpPortStatus_bpActive,
          .fpPortStatus_exceededSticky, .fpPortStatus_up, .fwPrpCtl_pairErr, .fwStatus_fillSticky,
          .hiParityStatus_sticky, .lnTestStatus_code, .lnTestStatus_state, .opFibreStatus_dark,
          .ptMacThresh_exceededSticky, .ptPortStatus_downCount, .ptPortStatus_lastCause, .ptPortStatus_state,
          .swPortStatus_discarding, .swPortStatus_downBp, .swPortStatus_holding, .swPortStatus_xoff,
          .swStatus_globalXoff, .tmDieStatus_capOverflowSticky], none⟩
  | .learnQueueApply .. =>
    ⟨[.bkts, .obs, .net, .fw], some [.fwStatus_fillSticky, .fwStatus_learnFailSticky], some [.fwAged, .fwLearnCount,
          .fwLearnFail, .fwMove]⟩
  | .sweeperVisit .. =>
    ⟨[.bkts, .obs, .net, .fw], some [.fwStatus_fillSticky], some [.fwAged]⟩
  | .flushNotice .. =>
    ⟨[.bkts, .obs, .fw], some [.fwStatus_fillSticky], some []⟩
  | .fwFlushStart .. =>
    ⟨[.safe, .errlog, .bkts, .obs, .fw], some [.fwFlush_byFid, .fwFlush_byPort, .fwFlush_fid, .fwFlush_port,
          .fwFlush_start, .fwStatus_fillSticky, .hiErrlogStatus_overflowSticky], some [.hiErrDropped]⟩
  | .fwFlushComplete .. =>
    ⟨[.bkts, .obs, .fw], some [.fwFlush_start], some []⟩
  | .fwPrpCtlWrite .. =>
    ⟨[.safe, .errlog, .bkts, .obs], some [.fwPrpCtl_lan, .fwPrpCtl_mode, .fwPrpCtl_pair, .fwPrpCtl_pairErr,
          .fwPrpCtl_seqIndex, .hiErrlogStatus_overflowSticky], some [.hiErrDropped]⟩
  | .dupForget .. =>
    ⟨[.fw], some [], some []⟩
  | .streamReset .. =>
    ⟨[.bkts, .obs, .fw], some [], some []⟩
  | .cellTime .. =>
    ⟨[.bkts, .obs, .tm, .net, .plc, .fab], some [.fbLaneStatus_txIdle, .swPortStatus_downBp, .swPortStatus_xoff,
          .swStatus_globalXoff, .tmDieStatus_capOverflowSticky], none⟩
  | .headScan .. =>
    ⟨[.bkts, .obs, .tm, .net, .plc], some [.swPortStatus_downBp, .swPortStatus_xoff, .swStatus_globalXoff,
          .tmDieStatus_capOverflowSticky], none⟩
  | .holdExpire .. =>
    ⟨[.bkts, .obs, .tm, .net, .plc], some [.swPortStatus_discarding, .swPortStatus_downBp, .swPortStatus_holding,
          .swPortStatus_xoff, .swStatus_globalXoff, .tmDieStatus_capOverflowSticky], none⟩
  | .fabricCellReceive .. =>
    ⟨[.bkts, .obs, .tm, .net, .plc, .fab], some [.fbLaneStatus_state, .fbLinkStatus_belowMinSticky,
          .swPortStatus_downBp, .swPortStatus_xoff, .swStatus_fabricErrSticky, .swStatus_globalXoff,
          .tmDieStatus_capOverflowSticky], some [.fbCellErrors, .swCtAbort, .swCtDiscard, .swDownBp,
          .swFabricCellError, .tmCapOverflow]⟩
  | .fabricCellMissing .. =>
    ⟨[.bkts, .obs, .tm, .net, .plc], some [.swPortStatus_downBp, .swPortStatus_xoff, .swStatus_fabricErrSticky,
          .swStatus_globalXoff, .tmDieStatus_capOverflowSticky], some [.swCtAbort, .swCtDiscard, .swDownBp,
          .swFabricCellError, .tmCapOverflow]⟩
  | .frameTransmitStart .. =>
    ⟨[.bkts, .obs, .tm, .net, .fw, .plc], some [.aeFaultLast_addr, .aeFaultLast_cause, .aeFaultLast_prog,
          .aeStatus_faultSticky, .aeStatus_paritySticky, .fpPortStatus_bpActive, .fpPortStatus_exceededSticky,
          .fwStatus_fillSticky, .fwStatus_paritySticky, .ptMacThresh_exceededSticky, .ptPortStatus_downCount,
          .ptPortStatus_lastCause, .ptPortStatus_state, .swPortStatus_discarding, .swPortStatus_downBp,
          .swPortStatus_holding, .swPortStatus_xoff, .swStatus_globalXoff, .tmDieStatus_capOverflowSticky], none⟩
  | .frameTransmitEnd .. =>
    ⟨[.bkts, .obs, .tm, .net, .fw, .plc, .dma], some [.aeFaultLast_addr, .aeFaultLast_cause, .aeFaultLast_prog,
          .aeStatus_faultSticky, .aeStatus_paritySticky, .fpPortStatus_bpActive, .fpPortStatus_exceededSticky,
          .fwStatus_fillSticky, .fwStatus_paritySticky, .ptMacThresh_exceededSticky, .ptPortStatus_downCount,
          .ptPortStatus_lastCause, .ptPortStatus_state, .swPortStatus_discarding, .swPortStatus_downBp,
          .swPortStatus_holding, .swPortStatus_xoff, .swStatus_globalXoff, .tmDieStatus_capOverflowSticky], none⟩
  | .gateConfigChange .. =>
    ⟨[.errlog, .bkts, .obs, .tm, .net], some [.egGateStatus_code, .hiErrlogStatus_overflowSticky], some
          [.egGateChange, .hiErrDropped]⟩
  | .gateListOperational .. =>
    ⟨[.bkts, .obs, .tm, .net], some [.egGateStatus_code, .egGateStatus_entry, .egGateStatus_gates,
          .egGateStatus_operList], some []⟩
  | .gateEntryAdvance .. =>
    ⟨[], some [.egGateStatus_entry, .egGateStatus_gates], some []⟩
  | .gateEnWrite .. =>
    ⟨[.errlog, .bkts, .obs, .net], some [.egGateCtl_gateEn, .egGateStatus_gates, .hiErrlogStatus_overflowSticky], some
          [.hiErrDropped]⟩
  | .deferralAgeScan .. =>
    ⟨[.bkts, .obs, .tm, .net, .plc], some [.swPortStatus_downBp, .swPortStatus_xoff, .swStatus_globalXoff,
          .tmDieStatus_capOverflowSticky], some [.miCounters, .swDownBp, .tmCapOverflow]⟩
  | .tkOpen .. =>
    ⟨[.safe, .errlog, .bkts, .obs], some [.hiErrlogStatus_overflowSticky, .tkCtl_at, .tkCtl_timeout,
          .tkStatus_batchOpen, .tkStatus_code], some [.hiErrDropped]⟩
  | .tkCommit .. =>
    ⟨[.safe, .errlog, .bkts, .obs, .tm, .tak], some [.hiErrlogStatus_overflowSticky, .tkCtl_at, .tkCtl_commit,
          .tkCtl_timeout, .tkStatus_batchOpen, .tkStatus_code, .tkStatus_late], some [.hiErrDropped]⟩
  | .tkAbort .. =>
    ⟨[.safe, .errlog, .bkts, .obs, .tm, .fw, .tak, .plc], some [.hiErrlogStatus_overflowSticky, .tkCtl_at,
          .tkCtl_commit, .tkCtl_timeout, .tkStatus_batchOpen, .tkStatus_code, .tkStatus_late], some [.hiErrDropped]⟩
  | .commitActivate =>
    ⟨[.tm, .tak], some [.tkCtl_commit, .tkStatus_batchOpen, .tkStatus_code, .tkStatus_late], some []⟩
  | .commitSeal =>
    ⟨[.fw, .tak, .plc, .duo], some [], some [.duCommitCount, .fwEvict]⟩
  | .commitTimeout =>
    ⟨[.bkts, .obs, .tm, .net, .fw, .tak, .plc], some [.clTreeCtl_rebuild, .fwStatus_fillSticky, .plHead_head,
          .plStatus_failSticky, .plStatus_lastCode, .tkCtl_commit, .tkStatus_batchOpen, .tkStatus_code,
          .tkStatus_late], some [.fwAged, .plDoneCount, .plFailCount]⟩
  | .takeSwitch .. =>
    ⟨[.bkts, .tm, .tak, .plc], some [.clInspectUse_nodePct], some [.tkSwitchTime]⟩
  | .commitConfirm =>
    ⟨[.bkts, .obs, .tm, .net, .fw, .tak, .plc], some [.fwStatus_fillSticky, .plHead_head, .plStatus_failSticky,
          .plStatus_lastCode, .tkCtl_commit, .tkStatus_batchOpen, .tkStatus_code, .tkStatus_late], some [.fwAged,
          .plDoneCount, .plFailCount, .plMoveCount, .tkCommitCount, .tkLateness]⟩
  | .takeRetire .. =>
    ⟨[.bkts, .obs, .tm, .net, .fw, .tak, .plc], some [.tkCtl_commit, .tkStatus_batchOpen, .tkStatus_code,
          .tkStatus_late], some []⟩
  | .reclaimComplete .. | .intentCreate .. | .intentModify .. | .intentDelete .. | .intentAdd ..
  | .intentChange .. | .intentRemove .. | .intentBind .. | .intentWhere .. | .intentRoomTimeout =>
    ⟨[.bkts, .obs, .tm, .net, .fw, .tak, .plc], some [.fwStatus_fillSticky, .plHead_head, .plStatus_failSticky,
          .plStatus_lastCode, .tkCtl_commit, .tkStatus_batchOpen, .tkStatus_code, .tkStatus_late], some [.fwAged,
          .plDoneCount, .plFailCount]⟩
  | .clTreeRebuild .. =>
    ⟨[.errlog, .bkts, .obs, .tak, .plc], some [.clTreeCtl_rebuild, .hiErrlogStatus_overflowSticky], some
          [.hiErrDropped]⟩
  | .treeStageComplete .. =>
    ⟨[.bkts, .obs, .tm, .net, .fw, .tak, .plc], some [.clInspectUse_nodePct, .clTreeCtl_rebuild, .fwStatus_fillSticky,
          .plHead_head, .plStatus_failSticky, .plStatus_lastCode, .tkCtl_commit, .tkStatus_batchOpen, .tkStatus_code,
          .tkStatus_late], some [.fwAged, .plDoneCount, .plFailCount]⟩
  | .plTailWrite .. =>
    ⟨[.safe, .errlog, .bkts, .obs], some [.hiErrlogStatus_overflowSticky, .plStatus_tailErrSticky, .plTail_tail], some
          [.hiErrDropped]⟩
  | .plCtlWrite .. =>
    ⟨[.safe, .errlog, .bkts, .obs], some [.hiErrlogStatus_overflowSticky, .plCtl_enable, .plCtl_ringLog2], some
          [.hiErrDropped]⟩
  | .sequencerMove .. | .copySlotMeasure .. =>
    ⟨[.tm, .net, .fw, .tak, .plc], some [.tkCtl_commit, .tkStatus_batchOpen, .tkStatus_code, .tkStatus_late], some []⟩
  | .timeTick .. =>
    ⟨[.bkts, .obs, .tm], some [], some [.obCycles]⟩
  | .clapperMissed .. =>
    ⟨[.bkts, .obs], some [.tmDieStatus_aligned, .tmDieStatus_missed, .tmStatus_aligned], some []⟩
  | .tmIncWrite .. =>
    ⟨[.bkts, .obs, .tm], some [.tmStatus_incPending, .tmStatus_steerIgnoredSticky], some [.tmInc]⟩
  | .tmSetWrite .. =>
    ⟨[.bkts, .obs, .tm], some [.tmStatus_steerIgnoredSticky, .tmStatus_stepPending], some [.tmSet]⟩
  | .tmAdjWrite .. =>
    ⟨[.bkts, .obs, .tm], some [.tmStatus_steerIgnoredSticky, .tmStatus_stepPending], some [.tmAdj]⟩
  | .timeclkLoss =>
    ⟨[.bkts, .obs, .tm], some [.tmStatus_timeclkLost, .tmStatus_timeclkLostSticky], some []⟩
  | .timeclkReturn =>
    ⟨[.bkts, .obs], some [.tmStatus_timeclkLost], some []⟩
  | .taArm .. | .taCancel .. =>
    ⟨[.safe, .errlog, .bkts, .obs, .tm], some [.hiErrlogStatus_overflowSticky, .tmTaCtl_index, .tmTaCtl_kind,
          .tmTaStatus_code, .tmTaStatus_index], some [.hiErrDropped]⟩
  | .taDispatch .. | .ppsOutSecond | .ppsWidthEnd =>
    ⟨[.tm], some [], some []⟩
  | .ppsInEdge =>
    ⟨[.tm], some [.tmStatus_stepPending], some [.tmPpsInCount, .tmPpsInIgnored, .tmPpsInStamp]⟩
  | .tmSnap .. =>
    ⟨[.safe, .errlog, .bkts, .obs], some [.hiErrlogStatus_overflowSticky, .tmCtl_ppsInEn, .tmCtl_ppsOutMode,
          .tmCtl_ppsWidth, .tmCtl_snap, .tmStatus_steerIgnoredSticky], some [.hiErrDropped]⟩
  | .laneParkWindow .. =>
    ⟨[.fab], some [.fbLaneStatus_txIdle], some []⟩
  | .laneExitEnd .. =>
    ⟨[.bkts, .obs, .net], some [.fbLaneStatus_txIdle, .fbLinkStatus_longExitSticky, .lnTestStatus_margin], some
          [.fbLongExits]⟩
  | .laneLongExitEnd .. | .laneCalibrationDone .. =>
    ⟨[.bkts, .obs, .net, .fab], some [.fbLaneCtl_calibrate, .fbLaneStatus_lastCause, .fbLaneStatus_removals,
          .fbLaneStatus_state, .fbLaneStatus_txIdle, .fbLinkStatus_belowMinSticky, .lnTestStatus_code,
          .lnTestStatus_margin, .lnTestStatus_state], some [.lnBitErrors, .lnBits, .lnSyncErrors]⟩
  | .driftCheck .. =>
    ⟨[.bkts, .obs, .fab], some [.fbLaneStatus_state, .fbLinkStatus_belowMinSticky, .lnTestStatus_baseline,
          .lnTestStatus_margin], some []⟩
  | .laneLockLost .. | .laneDrainComplete .. =>
    ⟨[.bkts, .obs, .net, .fab], some [.fbLaneCtl_calibrate, .fbLaneStatus_lastCause, .fbLaneStatus_removals,
          .fbLaneStatus_state, .fbLaneStatus_txIdle, .fbLinkStatus_belowMinSticky, .lnTestStatus_code,
          .lnTestStatus_state], some [.lnBitErrors, .lnBits, .lnSyncErrors]⟩
  | .lanePeerNotice .. =>
    ⟨[.bkts, .obs, .net, .fab], some [.fbLaneStatus_lastCause, .fbLaneStatus_removals, .fbLaneStatus_state,
          .fbLaneStatus_txIdle, .fbLinkStatus_belowMinSticky], some []⟩
  | .laneQualifyDone .. =>
    ⟨[.bkts, .obs, .net, .fab], some [.fbLaneCtl_calibrate, .fbLaneStatus_lastCause, .fbLaneStatus_removals,
          .fbLaneStatus_state, .fbLaneStatus_txIdle, .fbLinkStatus_belowMinSticky, .lnTestStatus_baseline,
          .lnTestStatus_code, .lnTestStatus_margin, .lnTestStatus_state], some [.lnBitErrors, .lnBits, .lnSyncErrors]⟩
  | .fbLaneOut .. =>
    ⟨[.errlog, .bkts, .obs, .net, .fab], some [.fbLaneCtl_calibrate, .fbLaneCtl_out, .fbLaneStatus_lastCause,
          .fbLaneStatus_removals, .fbLaneStatus_state, .fbLaneStatus_txIdle, .fbLinkStatus_belowMinSticky,
          .hiErrlogStatus_overflowSticky, .lnTestStatus_code, .lnTestStatus_state], some [.hiErrDropped, .lnBitErrors,
          .lnBits, .lnSyncErrors]⟩
  | .fbLaneCalibrate .. =>
    ⟨[.errlog, .bkts, .obs, .net, .fab], some [.fbLaneCtl_calibrate, .fbLaneStatus_lastCause, .fbLaneStatus_removals,
          .fbLaneStatus_state, .fbLaneStatus_txIdle, .fbLinkStatus_belowMinSticky, .hiErrlogStatus_overflowSticky,
          .lnTestStatus_code], some [.hiErrDropped]⟩
  | .lnTestStart .. =>
    ⟨[.safe, .errlog, .bkts, .obs, .net, .fab], some [.fbLaneStatus_lastCause, .fbLaneStatus_removals,
          .fbLaneStatus_state, .fbLaneStatus_txIdle, .fbLinkStatus_belowMinSticky, .hiErrlogStatus_overflowSticky,
          .lnTestCtl_duration, .lnTestCtl_loopback, .lnTestCtl_source, .lnTestStatus_code, .lnTestStatus_lock,
          .lnTestStatus_state], some [.hiErrDropped]⟩
  | .lnTestStop .. =>
    ⟨[.errlog, .bkts, .obs, .net, .fab], some [.fbLaneStatus_lastCause, .fbLaneStatus_removals, .fbLaneStatus_state,
          .fbLaneStatus_txIdle, .fbLinkStatus_belowMinSticky, .hiErrlogStatus_overflowSticky, .lnTestStatus_code,
          .lnTestStatus_state], some [.hiErrDropped, .lnBitErrors, .lnBits, .lnSyncErrors]⟩
  | .lnTestClear .. =>
    ⟨[.errlog, .bkts, .obs], some [.hiErrlogStatus_overflowSticky], some [.hiErrDropped, .lnBitErrors, .lnBits,
          .lnSyncErrors]⟩
  | .lnInject .. =>
    ⟨[.safe, .errlog, .bkts, .obs, .net], some [.hiErrlogStatus_overflowSticky, .lnInjCtl_count, .lnInjCtl_kind,
          .lnInjCtl_len, .lnTestStatus_code], some [.hiErrDropped, .lnBitErrors, .lnSyncErrors]⟩
  | .lnTestDurationEnd .. =>
    ⟨[.bkts, .obs, .net, .fab], some [.fbLaneStatus_lastCause, .fbLaneStatus_removals, .fbLaneStatus_state,
          .fbLaneStatus_txIdle, .fbLinkStatus_belowMinSticky, .lnTestStatus_code, .lnTestStatus_state], some
          [.lnBitErrors, .lnBits, .lnSyncErrors]⟩
  | .duoEval .. =>
    ⟨[.boot, .bkts, .obs, .tm, .net, .fw, .tak, .plc, .duo], some [.duCtl_claim, .duStatus_claimGood,
          .duStatus_contentionSticky, .duStatus_faultCause, .duStatus_interlockLostSticky, .duStatus_peerClaim,
          .duStatus_role, .duStatus_splitSticky, .duStatus_takeLag, .obFatal_cause, .obFatal_fatalSticky,
          .swPortStatus_downBp, .swPortStatus_xoff, .swStatus_globalXoff, .tmDieStatus_capOverflowSticky], none⟩
  | .claimCheck .. =>
    ⟨[.boot, .bkts, .obs, .tm, .net, .plc, .duo], some [.duStatus_faultCause, .duStatus_role,
          .duStatus_takeoverSticky, .obFatal_cause, .obFatal_fatalSticky, .swPortStatus_downBp, .swPortStatus_xoff,
          .swStatus_globalXoff, .tmDieStatus_capOverflowSticky], none⟩
  | .initTimeout =>
    ⟨[.bkts, .obs], some [.duStatus_role], some []⟩
  | .healthBeacon .. =>
    ⟨[.bkts, .obs, .duo], some [.duStatus_faultCause, .duStatus_role], some []⟩
  | .hwWdogExpire .. | .swWdogExpire =>
    ⟨[.boot, .bkts, .obs, .tm, .net, .plc, .duo], some [.duStatus_faultCause, .duStatus_role, .obFatal_cause,
          .obFatal_fatalSticky, .swPortStatus_downBp, .swPortStatus_xoff, .swStatus_globalXoff,
          .tmDieStatus_capOverflowSticky], none⟩
  | .duFeed | .duClearFault =>
    ⟨[.errlog, .bkts, .obs, .duo], some [.duStatus_faultCause, .duStatus_role, .hiErrlogStatus_overflowSticky], some
          [.hiErrDropped]⟩
  | .duClaim =>
    ⟨[.errlog, .bkts, .obs], some [.duCtl_claim, .hiErrlogStatus_overflowSticky], some [.hiErrDropped]⟩
  | .duRelease =>
    ⟨[.errlog, .bkts, .obs, .tm, .net, .plc, .duo], some [.duCtl_claim, .duStatus_role,
          .hiErrlogStatus_overflowSticky, .swPortStatus_downBp, .swPortStatus_xoff, .swStatus_globalXoff,
          .tmDieStatus_capOverflowSticky], none⟩
  | .heartbeatSend =>
    ⟨[.duo], some [], some []⟩
  | .heartbeatReceive .. =>
    ⟨[.duo], some [.duStatus_peerRole, .duStatus_peerSeesClaim], some [.duCtBadMsg]⟩
  | .timeMsgReceive .. =>
    ⟨[.tm, .duo], some [.duStatus_timeLocked, .tmStatus_incPending, .tmStatus_set, .tmStatus_stepPending], some
          [.duCtBadMsg, .duTimeOffset, .tmInc]⟩
  | .takeMsgReceive .. =>
    ⟨[.bkts, .obs, .net, .fw, .tak, .plc, .duo], some [.duStatus_takeLag], some [.duCommitCount, .duCtBadMsg,
          .duPeerCommitCount, .fwEvict]⟩
  | .takeRequestReceive .. =>
    ⟨[.tm, .tak, .duo], some [.tkCtl_commit, .tkStatus_batchOpen, .tkStatus_code, .tkStatus_late], some [.duCtBadMsg]⟩
  | .releaseMsgReceive .. =>
    ⟨[.duo], some [], some [.duCtBadMsg]⟩
  | .ctLinkLost =>
    ⟨[.bkts, .obs, .duo], some [.duStatus_ctLostSticky, .duStatus_ctUp, .duStatus_takeLag, .duStatus_timeLocked], some
          []⟩
  | .ctLinkUp .. =>
    ⟨[.bkts, .obs, .fab, .duo], some [.duStatus_ctLanes, .duStatus_ctUp, .duStatus_takeLag], some []⟩
  | .rcRead .. | .wmbD3Read .. =>
    ⟨[], none, some [.hiReadAbort]⟩
  | .errlogClear | .obTrigger .. | .ftbRelease .. =>
    ⟨[.errlog, .bkts, .obs], some [.hiErrlogStatus_overflowSticky], some [.hiErrDropped]⟩
  | .irqEnableWrite .. =>
    ⟨[.safe, .errlog, .bkts, .obs], some [.hiErrlogStatus_overflowSticky, .hiIrqEnableHi_enable,
          .hiIrqEnableLo_enable], some [.hiErrDropped]⟩
  | .dmStart .. =>
    ⟨[.safe, .errlog, .bkts, .obs, .dma], some [.dmChCtl_irq, .dmChCtl_retryLimit, .dmChCtl_start, .dmChIndex2_i2,
          .dmChIndex_i0, .dmChIndex_i1, .dmChStatus_code, .dmChStatus_failDevice, .dmChStatus_failType,
          .dmChStatus_failWrite, .dmChStatus_overlap, .dmChStatus_retries, .dmChStatus_retryOk, .dmChStatus_state,
          .hiErrlogStatus_overflowSticky], some [.hiErrDropped]⟩
  | .dmAbort .. =>
    ⟨[.safe, .errlog, .bkts, .obs, .dma], some [.dmChCtl_abort, .dmChCtl_irq, .dmChCtl_retryLimit, .dmChCtl_start,
          .dmChIndex2_i2, .dmChIndex_i0, .dmChIndex_i1, .dmChStatus_code, .dmChStatus_state,
          .hiErrlogStatus_overflowSticky], some [.hiErrDropped]⟩
  | .dmDescFetchDone .. =>
    ⟨[.bkts, .obs, .dma], some [.dmChCtl_abort, .dmChCtl_start, .dmChStatus_code, .dmChStatus_overlap,
          .dmChStatus_retries, .dmChStatus_state], some []⟩
  | .dmRetry .. =>
    ⟨[.dma], some [], some []⟩
  | .dmRingCtlWrite .. =>
    ⟨[.safe, .errlog, .bkts, .obs], some [.dmRxCtl_bufKib, .dmRxCtl_enable, .dmRxCtl_irqCh, .dmRxCtl_irqEn,
          .dmRxCtl_ringLog2, .dmTxCtl_enable, .dmTxCtl_irqCh, .dmTxCtl_irqEn, .dmTxCtl_ringLog2,
          .hiErrlogStatus_overflowSticky], some [.hiErrDropped]⟩
  | .dmTxTailWrite .. =>
    ⟨[.safe, .errlog, .bkts, .obs], some [.dmTxPtr_tail, .hiErrlogStatus_overflowSticky], some [.hiErrDropped]⟩
  | .dmTxFrame .. =>
    ⟨[.bkts, .obs, .net, .plc], some [.aeFaultLast_addr, .aeFaultLast_cause, .aeFaultLast_prog, .aeStatus_faultSticky,
          .aeStatus_paritySticky, .aeStatus_rateSticky, .clInspectStatus_scanWaitSticky,
          .clInspectStatus_treeParitySticky, .clPipeStatus_paritySticky, .clPipeStatus_rateSticky, .dmTxPtr_head,
          .psPortStatus_exceededSticky, .psPortStatus_lastReason, .psPortStatus_malformedSticky,
          .psStatus_graphParitySticky, .psStatus_noSessionSticky, .swPortStatus_downBp, .swPortStatus_xoff,
          .swStatus_globalXoff], none⟩
  | .dmRxTailWrite .. =>
    ⟨[.safe, .errlog, .bkts, .obs], some [.dmRxPtr_tail, .hiErrlogStatus_overflowSticky], some [.hiErrDropped]⟩
  | .dmRxRecord .. =>
    ⟨[.obs, .dma], some [.dmRxPtr_head], some [.obStat]⟩
  | .obSnap .. =>
    ⟨[.safe, .errlog, .bkts, .obs], some [.hiErrlogStatus_overflowSticky, .obSnapCtl_port], some [.hiErrDropped,
          .obSnap]⟩
  | .bwWindowEnd .. =>
    ⟨[.obs], some [], some [.obBw]⟩
  | .recordDeliver =>
    ⟨[.obs], some [.obDWptr_wptr], some [.obDDelivered, .obDLateOrder]⟩
  | .obFatal =>
    ⟨[.boot, .errlog, .bkts, .obs], some [.hiErrlogStatus_overflowSticky, .obFatal_cause, .obFatal_fatalSticky], some
          [.hiErrDropped]⟩
  | .obDRptrWrite .. =>
    ⟨[.safe, .errlog, .bkts, .obs], some [.hiErrlogStatus_overflowSticky, .obDRptr_rptr], some [.hiErrDropped]⟩
  | .scReadSlate | .scQuote .. | .scAdvanceRollback | .scApplyPatch .. =>
    ⟨[.errlog, .bkts, .obs, .sec], some [.hiErrlogStatus_overflowSticky, .scCmd_op, .scCmd_start,
          .scStatus_busySticky, .scStatus_state], some [.hiErrDropped]⟩
  | .scGetChallenge =>
    ⟨[.errlog, .bkts, .obs, .net, .sec], some [.hiErrlogStatus_overflowSticky, .scCmd_op, .scCmd_start,
          .scStatus_busySticky, .scStatus_state], some [.hiErrDropped, .scChallenge]⟩
  | .scKeyCommand .. =>
    ⟨[.errlog, .bkts, .obs, .sec], some [.hiErrlogStatus_overflowSticky, .scCmd_op, .scCmd_start,
          .scStatus_busySticky, .scStatus_state], some [.hiErrDropped, .scChallenge]⟩
  | .scRequestDone .. =>
    ⟨[.bkts, .obs, .net, .sec], some [.scCmd_start, .scOtpStatus_advancesLeft, .scOtpStatus_broken,
          .scOtpStatus_patchesLeft, .scOtpStatus_programmed, .scOtpStatus_revoked, .scStatus_code, .scStatus_state],
          some [.scChallenge, .scKeyHash, .scRefused, .scRollback]⟩
  | .challengeExpire =>
    ⟨[.sec], some [], some [.scChallenge]⟩
  | .lsFaultNRise =>
    ⟨[], some [.dvLaserCtl_lsFault], some []⟩
  | .fphyIntNRise =>
    ⟨[.sup], some [.fpStatus_phyInt], some []⟩
  | .lnCheckerLock .. =>
    ⟨[], some [.lnTestStatus_lock], some []⟩
  | .lnCheckerLockLost .. =>
    ⟨[], some [.lnTestStatus_lock, .lnTestStatus_lockLostSticky], some []⟩
  | .ctLaneLockLost .. =>
    ⟨[.duo], some [.duStatus_ctLanes], some []⟩
  | .opticalPowerCalibration .. =>
    ⟨[], some [.opLanePower_rxPower, .opLanePower_txPower], some []⟩

/-! ### Ports, lanes and light -/

/-- A group's light has become a value and its fibre's input power is reported; no other group's light has changed. -/
def Dev.lightSet (d t : Dev) (g : Fin 16) (power : BitVec 16) (v : Nat) : Prop :=
  t.light g = v ∧ t.fld .opFibreStatus_inputPower (5 + g / 8) (g % 8) = power.toNat ∧
    ∀ h : Fin 16, h ≠ g → t.light h = d.light h

/-- A lane's test is done with what its checker counted: bit errors of the raw patterns, invalid headers and block errors of
IDLE, pattern 5 (R287, R290). -/
def Dev.lnEnded (d t : Dev) (l : LaneId) (c : Checked) : Prop :=
  let p := LaneId.place l
  let idle := d.lnFld l .lnTestCtl_source = 5
  t.lnFld l .lnTestStatus_state = 4 ∧ t.lnFld l .lnTestStatus_code = 1 ∧
    t.wide .lnBits p.1 p.2.1 p.2.2 = (d.wide .lnBits p.1 p.2.1 p.2.2 + c.bits.toNat) % 2 ^ 64 ∧
    (idle → t.wide .lnBitErrors p.1 p.2.1 p.2.2 = d.wide .lnBitErrors p.1 p.2.1 p.2.2 ∧
      t.wide .lnSyncErrors p.1 p.2.1 p.2.2 = (d.wide .lnSyncErrors p.1 p.2.1 p.2.2 + c.syncs.toNat) % 2 ^ 64) ∧
    (¬ idle → t.wide .lnSyncErrors p.1 p.2.1 p.2.2 = d.wide .lnSyncErrors p.1 p.2.1 p.2.2 ∧
      t.wide .lnBitErrors p.1 p.2.1 p.2.2 = (d.wide .lnBitErrors p.1 p.2.1 p.2.2 + c.errors.toNat) % 2 ^ 64)

/-- A statistic of a port by its index in Table 18-1. -/
def Dev.portStat (d : Dev) (p idx : Nat) : Nat :=
  if p < 128 then d.wide .obStat (p / 32 + 1) (p % 32) idx else d.wide .obStat 0 (p - 128) idx

/-- The device with a word good and ready to be reported again. -/
def Dev.mended (d : Dev) (b : BadWord) : Dev :=
  { d.quiet with net := { d.net with bad := d.net.bad.filter (fun x => decide (x ≠ b))
                                     alarmed := d.net.alarmed.filter (fun x => decide (x ≠ b)) } }

/-! ### Action engines -/

/-- An engine's next word is w and may issue: the engine runs a program on a frame, no parity error is met, and the budget
holds its cost (R145, R160, R161). -/
structure Dev.issues (d : Dev) (n p e w cost : Nat) (g : Engine) (f : Frame) : Prop where
  engine : d.engine? n p e = some g
  frame : d.frame? g.frame = some f
  good : d.net.bad.contains (.prog n g.pc) = false
  word : storeWord d.boot.sb n g.pc = w
  room : g.slots + cost ≤ d.budget n

/-- An engine that has issued an instruction and goes on at a pc. -/
def Engine.issued (g : Engine) (cost pc : Nat) : Engine :=
  { g with pc := pc, slots := g.slots + cost, trail := g.trail ++ [(g.pc, cost, cost + g.curWait)], curWait := 0 }

/-- An engine that has issued an instruction which wrote a register. -/
def Engine.wrote (g : Engine) (cost : Nat) (rd : Fin 16) (v : Word) : Engine :=
  { Engine.issued g cost (g.pc + 1) with regs := g.regs.set rd v }

/-- Only an engine and its frame have changed. -/
structure Dev.ranOn (d t : Dev) (n p e : Nat) (g : Engine) (f : Frame) : Prop where
  engine : t.engine? n p e = some g
  frame : t.frame? f.id = some f
  otherEngines : ∀ x y z : Nat, (x, y, z) ≠ (n, p, e) → t.engine? x y z = d.engine? x y z
  otherFrames : ∀ i, i ≠ f.id → t.frame? i = d.frame? i
  rest : { d.quiet with net := { d.net with engines := t.net.engines, frames := t.net.frames } } = t

/-- The packets and bytes of an entry of a counter block's instance on a die. -/
def Dev.blockEntry (d : Dev) (h n i : Nat) : Nat × Nat :=
  match d.plc.cblks.find? (fun x => x.h = h && x.die = n) with
  | some x => (aget x.entries i).getD (0, 0)
  | none => (0, 0)

end Sys2Proof.Machine
end

