-- ==== Sys2Proof/Certificates/Slice0/Obligations.lean ====
section
/-! DEFINITION. What is claimed of the model, for the provers.  A command's statement has as its conclusion that exec answers
a next state, and says what that state holds. -/

open Sys2Proof Sys2Proof.Machine

/-! ### The whole block -/

/-- A step executes the command at the front of the queue on the rest of it; on an empty queue the block idles (the model's
choice, log entry 1). -/
def Obligations.StepRunsFront : Prop :=
  (∀ (c : Instr) (rest : List Instr) (s : State),
    step { s with pending := c :: rest } = exec c { s with pending := rest }) ∧
  ∀ s : State, s.pending = [] → step s = .next s

/-- Every command, with every operand and in every state, answers a next state, and leaves the queue as it found it. -/
def Obligations.EveryCommandAnswers : Prop :=
  ∀ (c : Instr) (s : State), ∃ t, exec c s = .next t ∧ t.pending = s.pending

/-- Bits of the OTP change only from 0 to 1, whatever the command, a reset in the middle of a write included (R396). -/
def Obligations.OtpBitsOnlyGrow : Prop :=
  ∀ (c : Instr) (s t : State), exec c s = .next t → Otp.kept s.otp t.otp

/-- Every step keeps the rule that a key slot's completion marker is set only where the record was begun (R396). -/
def Obligations.OtpMarkerNeedsBegun : Prop :=
  ∀ s t : State, Otp.sound s.otp → step s = .next t → Otp.sound t.otp

/-- The rule of OtpMarkerNeedsBegun holds at reset. -/
def Obligations.OtpSoundAtReset : Prop := Otp.sound State.reset.otp

/-- A command outside `Instr.touchesStore` leaves the image-store flash and the OTP unchanged. IM_WRITE_START and
IM_FLASH_OP_COMPLETE leave the bank that image writes do not go to as it was (R43). -/
def Obligations.StorageFrame : Prop :=
  (∀ (c : Instr) (s t : State), Instr.touchesStore c = false → exec c s = .next t → t.flash = s.flash ∧ t.otp = s.otp) ∧
  ((∀ (i : Image) (readable : Bool) (s t : State), exec (.imWriteStart i readable) s = .next t →
    Flash.bank t.flash (Bank.other s.dev.imageTarget) = Flash.bank s.flash (Bank.other s.dev.imageTarget)) ∧
  ∀ (r : FlashEnd) (s t : State), exec (.imFlashOpComplete r) s = .next t →
    Flash.bank t.flash (Bank.other s.dev.imageTarget) = Flash.bank s.flash (Bank.other s.dev.imageTarget))

/-- The frame of every command: what of the device is outside its scope (`Instr.scope`) is unchanged.  The table is the model's
reading of the effects that the spec gives each command. -/
def Obligations.CommandsKeepToTheirScope : Prop :=
  ∀ (c : Instr) (s : State), ∃ t, exec c s = .next t ∧ (Instr.scope c).holds s.dev t.dev

/-- While the host link is down, no access by the host has an effect (R319, R320, R338). -/
def Obligations.NoLinkNoEffect : Prop :=
  ∀ (c : Instr) (s : State), Instr.hostAccess c = true → s.dev.hostUp = false → exec c s = .next (s.put s.dev.quiet)

/-! ### Supplies, resets and boot -/

/-- VAUX33_APPLY, VAUX33_LOSS, VIN12_RISE and VIN12_LOW_RESET (R317, R318). VIN12_SAG_ALARM (R317) and PORST_N_GLITCH
(R319) on a running device. PORST_N_LOW (R319, R331). -/
def Obligations.SuppliesAndResets : Prop :=
  (∀ s : State,
    exec .vaux33Apply s = .next { s with dev := { s.dev.quiet with
      sup := { s.dev.sup with vaux33 := true, conv := s.dev.sup.conv || s.dev.sup.vin12 } } } ∧
    exec .vin12Rise s = .next { s with dev := { s.dev.quiet with
      sup := { s.dev.sup with vin12 := true, conv := s.dev.sup.conv || s.dev.sup.vaux33 } } } ∧
    (∃ t, exec .vaux33Loss s = .next t ∧ s.resetTo t { s.dev.sup with
      vaux33 := false, conv := false, pwrGood := false, vinLow := false, cause := 0 }) ∧
    ∃ t, exec .vin12LowReset s = .next t ∧ s.resetTo t { s.dev.sup with
      vin12 := false, conv := false, pwrGood := false, vinLow := true, cause := 2 }) ∧
  ((∀ (mv : BitVec 64) (s : State), s.dev.boot.run = true → mv.toNat < 11400 →
    exec (.vin12SagAlarm mv) s = .next { s with dev :=
      (s.dev.quiet.setFld .pwStatus_vin12LowSticky 7 0 0 1).raise 7 0x1003 [(64, mv.toNat)] }) ∧
  ∀ (ns : BitVec 32) (s : State), s.dev.boot.run = true → 1000 ≤ ns.toNat → ns.toNat < 10000 →
    exec (.porstNGlitch ns) s = .next { s with dev := s.dev.quiet.raise 6 0x1007 [(32, ns.toNat)] }) ∧
  (∀ s : State,
    (s.dev.boot.run = true → ∃ t, exec .porstNLow s = .next t ∧ s.resetTo t { s.dev.sup with
      porstN := false, cause := if s.dev.sup.thermShut then 3 else 1 }) ∧
    (s.dev.boot.run = false → exec .porstNLow s = .next { s with dev := { s.dev.quiet with
      sup := { s.dev.sup with porstN := false } } }))

/-- PORST_N_RELEASE, PWR_GOOD_RELEASE and VIN12_RESTART start the boot (R317, R319, R324, R330, R331). -/
def Obligations.BootBegins : Prop :=
  ∀ (straps : BitVec 8) (s : State),
    (s.dev.sup.porstN = false → s.dev.boot.run = false → s.dev.sup.vaux33 = true → s.dev.sup.pwrGood = true →
      s.dev.sup.vinLow = false → ∃ t, exec (.porstNRelease straps) s = .next t ∧ s.bootBegun t s.dev.sup straps) ∧
    (s.dev.sup.conv = true → s.dev.sup.pwrGood = false → s.dev.sup.porstN = true → s.dev.sup.vinLow = false →
      ∃ t, exec (.pwrGoodRelease straps) s = .next t ∧ s.bootBegun t { s.dev.sup with pwrGood := true } straps) ∧
    (s.dev.sup.vaux33 = true → s.dev.sup.vinLow = true → s.dev.sup.porstN = true →
      ∃ t, exec (.vin12Restart straps) s = .next t ∧
        s.bootBegun t { s.dev.sup with vin12 := true, conv := true, pwrGood := true } straps) ∧
    (s.dev.sup.porstN = false → s.dev.boot.run = false → s.dev.sup.pwrGood = false →
      exec (.porstNRelease straps) s = .next { s with dev := { s.dev.quiet with sup := { s.dev.sup with porstN := true } } })

/-- ROM_PHASE_COMPLETE and CONTINUE (R41, R325, R326). BIST_START and BIST_END (R325). -/
def Obligations.RomPhaseAndHold : Prop :=
  ((∀ (sfdp : Option Bool) (a b : Bool) (s : State), s.dev.boot.run = true → s.dev.cd .btSceneStatus_phase = 0 →
    s.dev.boot.applied = false →
    ∃ t, exec (.romPhaseComplete sfdp a b) s = .next t ∧ t.flash = s.flash ∧ t.otp = s.otp ∧
      t.dev.boot.flashOk = decide (sfdp = some (decide (s.dev.cd .btStraps_istoreSize = 1))) ∧
      (t.dev.boot.flashOk = true → (Bank.a ∈ t.dev.boot.readOk ↔ a = true) ∧ (Bank.b ∈ t.dev.boot.readOk ↔ b = true)) ∧
      (t.dev.boot.flashOk = false → t.dev.boot.readOk = []) ∧
      (if s.dev.cd .btStraps_bootHold = 1 then
        t.dev.cd .btSceneStatus_phase = 1 ∧ t.dev.boot.todo = s.dev.boot.todo ∧
          t.dev = (({ s.dev.quiet with boot := t.dev.boot }).setCd .btSceneStatus_phase 1).raise 6 0x0C0B
            [(8, s.dev.straps)]
      else t.dev.cd .btSceneStatus_phase = 2 ∧ t.dev.boot.todo = bankOrder s.flash t.dev.boot.readOk)) ∧
  ∀ s : State, s.dev.hostUp = true → s.dev.cd .btSceneStatus_phase = 1 →
    (s.dev.bist = false → exec .continue_ s = .next (s.put
      (({ s.dev.quiet with boot := { s.dev.boot with todo := bankOrder s.flash s.dev.boot.readOk } }).setCd
        .btSceneStatus_phase 2))) ∧
    (s.dev.bist = true → exec .continue_ s = .next (s.put (s.dev.quiet.setCd .btBootCtl_continue 1)))) ∧
  ((∀ s : State, s.dev.hostUp = true → s.dev.bist = false →
    exec .bistStart s = .next (s.put
      (if s.dev.cd .btSceneStatus_phase = 1 then
        (s.dev.quiet.setCd .dvBistCtl_code 1).setFld .pwStatus_railOn 7 0 0 15
      else s.dev.quiet.setCd .dvBistCtl_code 4))) ∧
  ∀ (pd : BitVec 4) (cd : Bool) (s : State), s.dev.bist = true →
    ∃ t, exec (.bistEnd pd cd) s = .next t ∧ t.flash = s.flash ∧ t.otp = s.otp ∧
      t.dev.cd .dvBistCtl_code = (if pd = 0 ∧ cd = false then 2 else 3) ∧
      t.dev.cd .dvBistCtl_failedPd = pd.toNat ∧ t.dev.cd .dvBistCtl_failedCd = (if cd then 1 else 0) ∧
      t.dev.fld .pwStatus_railOn 7 = 0 ∧
      (s.dev.cd .btBootCtl_continue = 1 → t.dev.cd .btBootCtl_continue = 0 ∧ t.dev.cd .btSceneStatus_phase = 2 ∧
        t.dev.boot.todo = bankOrder s.flash s.dev.boot.readOk) ∧
      (s.dev.cd .btBootCtl_continue = 0 → t.dev.cd .btSceneStatus_phase = s.dev.cd .btSceneStatus_phase ∧
        t.dev.boot = s.dev.boot))

/-- BANK_VERIFY_DONE (R31, R41, R42), with the tests of Table 2-8 as `bankResult` and the checks of R31 as `sbCheck`. -/
def Obligations.BankChosen : Prop :=
  ∀ (read : Bool) (s : State) (x : Bank) (rest : List Bank), s.dev.boot.todo = x :: rest →
    let b := Flash.bank s.flash x
    let code := bankResult s.otp (read && s.dev.boot.flashOk) b
    (∀ (h : ImgHeader) (y : List Byte × List Byte), code = 0 → b.hdr = some h → b.body = some y →
      sbCheck (boardOf h y.1) = 0 →
      ∃ t, exec (.bankVerifyDone read) s = .next t ∧ t.flash = s.flash ∧ t.otp = s.otp ∧
        t.dev.boot = { s.dev.boot with sb := boardOf h y.1, hdr := h, factory := false, todo := [],
                                       power := (List.range 6).filter (activeRail (boardOf h y.1).active) } ∧
        t.dev.result x = 0 ∧ t.dev.cd .imBootStatus_bank = Bank.num x ∧ t.dev.cd .imBootSeq_seq = h.sequence ∧
        t.dev.cd .imWriteStatus_target = Bank.num (Bank.other x) ∧ t.dev.cd .btSceneStatus_phase = 3) ∧
    ((code ≠ 0 ∨ ∃ h y, b.hdr = some h ∧ b.body = some y ∧ sbCheck (boardOf h y.1) ≠ 0) →
      ∃ t, exec (.bankVerifyDone read) s = .next t ∧ t.flash = s.flash ∧ t.otp = s.otp ∧
        t.dev.result x = (if code = 0 then 0xB else code) ∧
        (rest ≠ [] → t.dev.boot = { s.dev.boot with todo := rest } ∧
          t.dev.cd .btSceneStatus_phase = s.dev.cd .btSceneStatus_phase) ∧
        (rest = [] → t.dev.boot.factory = true ∧ t.dev.boot.sb = factoryBoard ∧ t.dev.boot.todo = [] ∧
          t.dev.boot.power = [0, 1, 2, 3, 4, 5] ∧
          t.dev.cd .imBootStatus_bank = 2 ∧ t.dev.cd .imBootSeq_seq = 0 ∧ t.dev.cd .imWriteStatus_target = 0 ∧
          t.dev.cd .btSceneStatus_phase = 3))

/-- DIE_POWER_UP (R33) and STORYBOARD_LOAD_COMPLETE (R36, R126). -/
def Obligations.DiesPoweredThenLoaded : Prop :=
  (∀ (s : State) (b : Nat) (rest : List Nat), s.dev.cd .btSceneStatus_phase = 3 → s.dev.sup.thermShut = false →
    s.dev.boot.power = b :: rest →
    exec .diePowerUp s = .next (s.put
      (let d := ({ s.dev.quiet with boot := { s.dev.boot with power := rest } }).setFld .pwStatus_railOn 7 0 0
        (s.dev.fld .pwStatus_railOn 7 ||| 2 ^ b)
       if b < 4 then d.setIsl b { inc := (s.dev.isl 4).inc } else d))) ∧
  ∀ s : State, s.dev.cd .btSceneStatus_phase = 3 → s.dev.sup.thermShut = false → s.dev.boot.power = [] →
    s.dev.boot.applied = false →
    ∃ t, exec .storyboardLoadComplete s = .next t ∧ t.flash = s.flash ∧ t.otp = s.otp ∧
      t.dev.boot.applied = true ∧ t.dev.tak.live = [0] ∧ t.dev.cd .btSceneStatus_phase = 4 ∧
      t.dev.boot.cutTo = some 2 ∧ t.dev.cd .btSceneStatus_cutting = 1

/-- PERST_N_ASSERT, PERST_N_DEASSERT, PCIE_D3HOT_ENTER and PCIE_D3HOT_EXIT (R320, R338, R363, R383).  That the receive queue
stays over PERST_N is the model's choice (log entry 38). -/
def Obligations.PcieResetAndD3hot : Prop :=
  ∀ s : State,
    (∃ t, exec .perstNAssert s = .next (s.put t) ∧
      t.sup = { s.dev.sup with perstN := false, cfgReady := false, d3hot := false } ∧
      (∀ k, t.chan k = {}) ∧ t.dma.rxq = s.dev.dma.rxq ∧
      (∀ f w i j, t.fld f w i j = if f.perst then FKey.dflt ⟨f, w, i, j⟩ else s.dev.fld f w i j) ∧
      (∀ x w i j, t.wide x w i j = if x.ofDma then WKey.dflt ⟨x, w, i, j⟩ else s.dev.wide x w i j) ∧
      { s.dev.quiet with sup := t.sup, flds := t.flds, wides := t.wides, dma := t.dma } = t) ∧
    (s.dev.sup.perstN = false → exec .perstNDeassert s = .next (s.put { s.dev.quiet with
      sup := { s.dev.sup with perstN := true, cfgReady := s.dev.sup.pwrGood && s.dev.boot.run } })) ∧
    (s.dev.sup.perstN = true → s.dev.sup.cfgReady = true →
      ∃ t, exec .pcieD3hotEnter s = .next (s.put t) ∧ t.sup = { s.dev.sup with d3hot := true } ∧
        (∀ k : Fin 16, t.chRuns k = false) ∧
        (∀ k : Fin 16, s.dev.chRuns k = true → t.cd .dmChStatus_code k = 8 ∧ t.cd .dmChStatus_state k = 4) ∧
        (∀ k : Fin 16, s.dev.chRuns k = false → t.chan k = s.dev.chan k)) ∧
    (s.dev.sup.d3hot = true →
      ∃ t, exec .pcieD3hotExit s = .next (s.put t) ∧ t.sup = { s.dev.sup with d3hot := false } ∧
        ∀ v : Fin 32, s.dev.sup.perstN = true → s.dev.cd .msixTable_dword (4 * v + 3) % 2 = 0 →
          bitAt (s.dev.cd .msixPba_pending (v / 32)) (v % 32) = 1 → Out.msix v ∈ t.out)

/-- RAIL_FAULT (R335) and THERMAL_SHUTDOWN (R332) as fatal incidents (R391). THERM_ALERT_ASSERT and
THERM_ALERT_RELEASE (R332). -/
def Obligations.PowerAndTemperature : Prop :=
  ((∀ (b : Fin 6) (s : State), s.dev.railOn b = true →
    ∃ t, exec (.railFault b) s = .next (s.put t) ∧ t.railOn b = false ∧ t.sup.railFault = true ∧
      bitAt (t.fld .pwStatus_railFaultSticky 7) b = 1 ∧ t.cd .obFatal_cause = 1 ∧ t.cd .obFatal_fatalSticky = 1) ∧
  ∀ (die : Fin 8) (temp : BitVec 8) (s : State), s.dev.boot.run = true → s.dev.sup.thermShut = false → 125 ≤ temp.toInt →
    ∃ t, exec (.thermalShutdown die temp) s = .next (s.put t) ∧ t.sup.thermShut = true ∧ (∀ b : Fin 6, t.railOn b = false) ∧
      t.cd .obFatal_cause = 2 ∧ t.cd .obFatal_fatalSticky = 1) ∧
  (∀ (temp : BitVec 8) (die : Fin 8) (s : State), s.dev.boot.run = true →
    ((s.dev.cfg .dvTherm_alert 0 : Int) ≤ temp.toInt → s.dev.cd .dvTherm_alertActive = 0 →
      exec (.thermAlertAssert temp die) s = .next (s.put
        ((((((s.dev.quiet.setCd .dvTherm_temp temp.toNat).setCd .dvTherm_hottest die).setCd .dvTherm_alertActive 1).setCd
          .dvTherm_alertSticky 1).raise 6 0x1001 [(8, temp.toNat), (3, die)]).irq 9))) ∧
    (temp.toInt ≤ (s.dev.cfg .dvTherm_alert 0 : Int) - 5 → s.dev.cd .dvTherm_alertActive = 1 →
      exec (.thermAlertRelease temp die) s = .next (s.put
        ((((s.dev.quiet.setCd .dvTherm_temp temp.toNat).setCd .dvTherm_hottest die).setCd .dvTherm_alertActive 0).raise 6
          0x1002 [(8, temp.toNat)]))))

/-! ### Scenes and the image store -/

/-- CUTAWAY_BEGIN, CUTAWAY_END, SPILL_CUT, SPILL_TEST, SPILL_RELEASE and CUT_COMPLETE (R87, R88, R323, R327, R328). -/
def Obligations.CutsBeginAndComplete : Prop :=
  ∀ s : State,
    (s.dev.inRun = true → s.dev.boot.spillDue = none → s.dev.boot.write.isSome = true ∨ s.dev.boot.eraseDebt = true →
      s.dev.imageHeld = false → s.dev.ranEnough = true →
      ∃ t, exec .cutawayBegin s = .next (s.put t) ∧ t.boot.cutTo = some 1 ∧ t.cd .btSceneStatus_cutting = 1 ∧
        t.wide .fpCutawayCount 0 = (s.dev.wide .fpCutawayCount 0 + 1) % 2 ^ Wide.fpCutawayCount.info.width ∧
        t.boot.cutAt = s.dev.ticks 4) ∧
    (s.dev.cd .btSceneStatus_scene = 1 → s.dev.cd .btSceneStatus_cutting = 0 →
      exec .cutawayEnd s = .next (s.put (({ s.dev.quiet with boot := { s.dev.boot with cutTo := some 2 } }).setCd
        .btSceneStatus_cutting 1))) ∧
    (∀ x, s.dev.boot.spillDue = some x → s.dev.cd .btSceneStatus_scene ≠ 0 →
      ∃ t, exec .spillCut s = .next (s.put t) ∧ t.boot.cutTo = some 3 ∧ t.cd .btSceneStatus_cutting = 1 ∧
        t.cd .btSceneStatus_spillSticky = 1 ∧ t.boot.spillDue = none ∧ t.boot.write = none) ∧
    (s.dev.hostUp = true → s.dev.cd .btStraps_spillEn = 1 → s.dev.toSpill = false → s.dev.boot.spillDue = none →
      ∃ t, exec .spillTest s = .next (s.put t) ∧
        (s.dev.cd .btSceneStatus_scene = 0 → t.boot.spillDue = some 1) ∧
        (s.dev.cd .btSceneStatus_scene ≠ 0 → t.boot.cutTo = some 3 ∧ t.cd .btSceneStatus_spillSticky = 1)) ∧
    (s.dev.hostUp = true → s.dev.spilling = true →
      ∃ t, exec .spillRelease s = .next (s.put t) ∧ t.boot.cutTo = some 2 ∧ t.cd .btSceneStatus_cutting = 1) ∧
    (∀ x, s.dev.boot.cutTo = some x → x ≠ 2 ∨ s.dev.boot.spillDue = none →
      ∃ t, exec .cutComplete s = .next (s.put t) ∧ t.cd .btSceneStatus_scene = x ∧ t.cd .btSceneStatus_cutting = 0 ∧
        t.boot.cutTo = none ∧ (x = 1 → s.dev.boot.write.isSome = true → t.boot.issued = true))

/-- IM_WRITE_START with no write running (R44), with steps 1 to 3 of Table 2-9 as `imgCheck`. IM_FLASH_OP_COMPLETE of
a running write, step by step (R44, R45, R46). -/
def Obligations.ImageWritesRun : Prop :=
  (∀ (i : Image) (readable : Bool) (s : State), s.dev.hostUp = true → s.dev.imageRuns = false → s.dev.boot.applied = true →
    ∃ t, exec (.imWriteStart i readable) s = .next t ∧ t.flash = s.flash ∧ t.otp = s.otp ∧
      (imgCheck s.otp s.dev i readable = 0 →
        t.dev.cd .imWriteStatus_state = 2 ∧ t.dev.cd .imWriteStatus_code = 0 ∧ t.dev.cd .imWriteStatus_progress = 0 ∧
        t.dev.boot.write = some
          { img := i, todo := imgSectors i, erased := (Flash.bank s.flash s.dev.imageTarget).hdr.isNone } ∧
        t.dev.boot.eraseDebt = false) ∧
      (imgCheck s.otp s.dev i readable ≠ 0 →
        t.dev.cd .imWriteStatus_state = 6 ∧
        t.dev.cd .imWriteStatus_code = imgCheck s.otp s.dev i readable ∧ t.dev.boot.write = none)) ∧
  ((∀ (w : ImgWrite) (s : State), s.dev.boot.issued = true → s.dev.boot.write = some w →
    let target := s.dev.imageTarget
    let bank := Flash.bank s.flash target
    let after := fun (x : Option ImgWrite) => ({ s.dev.boot with issued := s.dev.flashScene, write := x } : Boot)
    (w.failing = none → w.abort = false → s.dev.cd .imWriteStatus_state = 2 →
      ∃ t, exec (.imFlashOpComplete .ok) s = .next t ∧ t.otp = s.otp ∧
        t.flash = Flash.setBank s.flash target { bank with hdr := none, body := none } ∧
        (1 < w.todo → t.dev.cd .imWriteStatus_state = 2 ∧
          t.dev.boot = after (some { w with erased := true, todo := w.todo - 1 })) ∧
        (w.todo ≤ 1 → t.dev.cd .imWriteStatus_state = 3 ∧
          t.dev.boot = after (some { w with erased := true, todo := imgSectors w.img + 1 }))) ∧
    (w.failing = none → w.abort = false → s.dev.cd .imWriteStatus_state = 3 →
      ∃ t, exec (.imFlashOpComplete .ok) s = .next t ∧ t.otp = s.otp ∧
        (1 < w.todo → t.dev.cd .imWriteStatus_state = 3 ∧ t.dev.boot = after (some { w with todo := w.todo - 1 }) ∧
          t.flash = (if w.todo = 2 then
            Flash.setBank s.flash target { bank with body := some (imgBody w.img, imgSig w.img) } else s.flash)) ∧
        (w.todo ≤ 1 → t.dev.cd .imWriteStatus_state = 4 ∧
          t.dev.boot = after (some { w with headerDone := true, todo := 1 }) ∧
          t.flash = Flash.setBank s.flash target { bank with hdr := some (imgHdr w.img) })) ∧
    (w.failing = none → w.abort = false → s.dev.cd .imWriteStatus_state = 4 → bankResult s.otp true bank = 0 →
      ∃ t, exec (.imFlashOpComplete .ok) s = .next t ∧ t.flash = s.flash ∧ t.otp = s.otp ∧
        t.dev.cd .imWriteStatus_state = 5 ∧ t.dev.boot = after none) ∧
    (w.failing = none →
      let code := if s.dev.cd .imWriteStatus_state = 4 then 8 else 7
      (w.owes = false → ∃ t, exec (.imFlashOpComplete .flashError) s = .next t ∧ t.flash = s.flash ∧ t.otp = s.otp ∧
        t.dev.cd .imWriteStatus_state = 6 ∧ t.dev.cd .imWriteStatus_code = code ∧ t.dev.boot = after none) ∧
      (w.owes = true → exec (.imFlashOpComplete .flashError) s = .next (s.put { s.dev.quiet with
        boot := after (some { w with failing := some code, abort := false }) }))) ∧
    ∀ c r, w.failing = some c →
      ∃ t, exec (.imFlashOpComplete r) s = .next t ∧ t.otp = s.otp ∧ t.dev.cd .imWriteStatus_state = 6 ∧
        t.dev.cd .imWriteStatus_code = c ∧ t.dev.boot = after none ∧
        t.flash = Flash.setBank s.flash target { bank with hdr := none }) ∧
  ∀ (r : FlashEnd) (s : State), s.dev.boot.issued = true → s.dev.boot.write = none → s.dev.boot.eraseDebt = true →
    let target := s.dev.imageTarget
    exec (.imFlashOpComplete r) s = .next { s with
      flash := Flash.setBank s.flash target { Flash.bank s.flash target with hdr := none }
      dev := { s.dev.quiet with boot := { s.dev.boot with issued := s.dev.flashScene, eraseDebt := false } } })

/-- START while a write runs raises 0x0C09 and does nothing else; ABORT is kept until the flash operation in progress ends
(R46). -/
def Obligations.StartDuringWriteIgnored : Prop :=
  (∀ (i : Image) (readable : Bool) (s : State), s.dev.hostUp = true → s.dev.imageRuns = true →
    exec (.imWriteStart i readable) s = .next (s.put (s.dev.quiet.raise 6 0x0C09 [(3, s.dev.cd .imWriteStatus_state)]))) ∧
  ∀ (w : ImgWrite) (s : State), s.dev.boot.write = some w → w.failing = none →
    (s.dev.hostUp = true →
      exec .imWriteAbort s = .next (s.put (({ s.dev.quiet with boot := { s.dev.boot with
        write := some { w with abort := true } } }).setCd .imWriteCtl_abort 1))) ∧
    (w.abort = true → s.dev.boot.issued = true →
      let state := s.dev.cd .imWriteStatus_state
      (state = 2 ∧ w.headerDone = false ∨ state = 3 ∧ 1 < w.todo ∧ w.owes = false →
        ∃ t, exec (.imFlashOpComplete .ok) s = .next t ∧ t.dev.cd .imWriteStatus_state = 6 ∧
          t.dev.cd .imWriteStatus_code = 9 ∧ t.dev.boot.write = none) ∧
      (state = 3 ∧ w.todo ≤ 1 ∨ state = 4 ∧ w.headerDone = true →
        ∃ t, exec (.imFlashOpComplete .ok) s = .next t ∧ ∃ y, t.dev.boot.write = some y ∧ y.failing = some 9))

/-! ### Light and links -/

/-- LASER_FORCE_OFF, LASER_POLL, FIBRE_ENABLE_UPDATE, LS_FAULT_FALL and LS_FAULT_N_RISE (R58, R59, R60, R62).
GROUP_LIGHT_REACHED, GROUP_LIGHT_LOST, GROUP_UNLIT_TIMEOUT and GROUP_RELIT (R61). -/
def Obligations.LightFollowsItsRules : Prop :=
  ((∀ (v : Bool) (s : State), s.dev.hostUp = true →
    ∃ t, exec (.laserForceOff v) s = .next (s.put t) ∧ t.cd .dvLaserCtl_forceOff = (if v then 1 else 0) ∧
      (v = true → s.dev.inSafe .dvLaserCtl 0 = false → s.dev.cd .dvLaserCtl_lsEnState ≤ 1 →
        t.cd .dvLaserCtl_lsEnState = 0)) ∧
  (∀ (w e : Bool) (s : State), s.dev.live = true →
    ∃ t, exec (.laserPoll w e) s = .next (s.put t) ∧ ∀ k ∈ s.dev.sources, aget t.net.polls k =
      some (if (if k = 0 then w else e) then 0 else min 3 ((aget s.dev.net.polls k).getD 0 + 1))) ∧
  (∀ (w e : Bool) (s : State), s.dev.live = true → s.dev.boot.sb.active = 1 →
    exec (.laserPoll w e) s = .next (s.put
      (let n := if w then 0 else min 3 ((aget s.dev.net.polls 0).getD 0 + 1)
       let d := { s.dev.quiet.i2cPoll with net := { s.dev.net with polls := aset s.dev.net.polls 0 n } }
       if n = 3 ∧ (aget s.dev.net.polls 0).getD 0 = 2 then d.raise 6 0x0105 [(1, 0), (7, s.dev.sourceAddr 0)]
       else d))) ∧
  (∀ s : State, s.dev.live = true → ∃ t, exec .fibreEnableUpdate s = .next (s.put t) ∧
    ∀ k ∈ s.dev.sources, Out.i2c (s.dev.sourceAddr k) 0x20 (fibreMask (fun f => s.dev.groupUsed (8 * k + f))) ∈ t.out ∧
      t.fld .opReach_lit (5 + k) = fibreMask (fun f => s.dev.groupUsed (8 * k + f)) ∧
      ∀ f : Fin 8, s.dev.groupUsed (8 * k + f) = false → t.light (8 * k + f) = 0) ∧
  (∀ (w e : Option (Byte × Byte)) (s : State), s.dev.live = true →
    let word : Option (Byte × Byte) → List (Nat × Nat) := fun x =>
      [(8, (x.map (·.1.toNat)).getD 0xFF), (8, (x.map (·.2.toNat)).getD 0xFF)]
    exec (.lsFaultFall w e) s = .next (s.put
      (((s.dev.quiet.i2cPoll.setCd .dvLaserCtl_lsFault 1).setCd .dvLaserCtl_lsFaultSticky 1).raise 6 0x0104
        (word w ++ word (if 2 ≤ s.dev.boot.sb.active then e else none))))) ∧
  ∀ s : State, s.dev.live = true → exec .lsFaultNRise s = .next (s.put (s.dev.quiet.setCd .dvLaserCtl_lsFault 0))) ∧
  (∀ (g : Fin 16) (power : BitVec 16) (s : State), s.dev.live = true → s.dev.railOn (4 + g / 8) = true →
    s.dev.cd .dvLaserCtl_lsEnState = 1 →
    (s.dev.light g = 1 → s.dev.litAt g ≤ power.toInt →
      ∃ t, exec (.groupLightReached g power) s = .next (s.put t) ∧ s.dev.lightSet t g power 2) ∧
    (s.dev.light g = 2 → power.toInt < s.dev.darkBelow g →
      ∃ t, exec (.groupLightLost g power) s = .next (s.put t) ∧ s.dev.lightSet t g power 3 ∧
      t.fld .opFibreStatus_darkSticky (5 + g / 8) (g % 8) = 1) ∧
    (s.dev.light g = 1 → power.toInt < s.dev.litAt g →
      ∃ t, exec (.groupUnlitTimeout g power) s = .next (s.put t) ∧ s.dev.lightSet t g power 3 ∧
      t.fld .opFibreStatus_darkSticky (5 + g / 8) (g % 8) = 1) ∧
    (s.dev.light g = 3 → s.dev.litAt g ≤ power.toInt →
      ∃ t, exec (.groupRelit g power) s = .next (s.put t) ∧ s.dev.lightSet t g power 2))

/-- PORT_SIGNAL_DETECT, PORT_LOCKED, PORT_FAULT_CLEAR, UP_DEBOUNCE_EXPIRE, DOWN_CAUSE, HOLDOFF_EXPIRE and DOWN_CAUSE_CLEAR
(R63, R64, R67). -/
def Obligations.LinkStatesAdvance : Prop :=
  ∀ (p : LinePort) (s : State),
    (s.dev.live = true → s.dev.portEnabled p = true →
      (s.dev.linkState p = 2 → exec (.portSignalDetect p) s = .next (s.put (s.dev.quiet.setLink p 3))) ∧
      (s.dev.linkState p = 3 → exec (.portLocked p) s = .next (s.put (s.dev.quiet.setLink p 4))) ∧
      (s.dev.linkState p = 4 → exec (.portFaultClear p) s = .next (s.put (s.dev.quiet.setLink p 5))) ∧
      (s.dev.linkState p = 5 → ∃ t, exec (.upDebounceExpire p) s = .next (s.put t) ∧ t.linkState p = 6 ∧
        aget t.net.upSince p = some (s.dev.ticks (p / 32)) ∧
        (s.dev.cd .duStatus_role = 1 → s.dev.boot.applied = true → t.cd .duStatus_role = 2))) ∧
    (∀ c : Fin 9, 1 ≤ c.val → c.val ≤ 6 →
      (s.dev.live = true → s.dev.portEnabled p = true → s.dev.linkState p = 6 →
        s.dev.cfg .ptPortCtl_downHoldoff (p / 32 + 1) (p % 32) ≠ 0 →
        ∃ t, exec (.downCause p c) s = .next (s.put t) ∧ t.linkState p = 7) ∧
      (s.dev.linkState p = 7 → ∃ t, exec (.holdoffExpire p c) s = .next (s.put t) ∧
        t.linkState p = causeTarget (s.dev.causeNow p c) ∧
        t.pd .ptPortStatus_lastCause (p / 32) (p % 32) = s.dev.causeNow p c ∧
        t.pd .ptPortStatus_downCount (p / 32) (p % 32) =
          min 0xFFFF (s.dev.pd .ptPortStatus_downCount (p / 32) (p % 32) + 1))) ∧
    (s.dev.linkState p = 7 →
      (s.dev.portEnabled p = true → ∃ t, exec (.downCauseClear p) s = .next (s.put t) ∧ t.linkState p = 6 ∧
        ∀ q : LinePort, q ≠ p → t.linkState q = s.dev.linkState q) ∧
      (s.dev.portEnabled p = false → (s.dev.sending p).isNone = true →
        ∃ t, exec (.downCauseClear p) s = .next (s.put t) ∧ t.linkState p = 0))

/-- PORT_ENABLE, PORT_DISABLE, FP_PORT_ENABLE, FP_PORT_DISABLE, FPHY_INT_FALL and FPHY_INT_N_RISE (R67, R82, R290). -/
def Obligations.PortsEnabledAndDisabled : Prop :=
  (∀ (p : LinePort) (s : State), s.dev.hostUp = true → s.dev.railOn (p / 32) = true → s.dev.portExists p = true →
    (s.dev.live = true → s.dev.boot.factory = false → s.dev.portSafe p = false → s.dev.linkState p = 0 →
      ∃ t, exec (.portEnable p) s = .next (s.put t) ∧ t.pd .ptPortCtl_enable (p / 32) (p % 32) = 1 ∧
        t.linkState p = (if s.dev.groupLit (p / 8) then 2 else 1)) ∧
    ((s.dev.sending p).isNone = true → ∃ t, exec (.portDisable p) s = .next (s.put t) ∧
      t.pd .ptPortCtl_enable (p / 32) (p % 32) = 0 ∧ t.linkState p = 0)) ∧
  (∀ (k : FieldPort) (s : State), s.dev.hostUp = true →
    (s.dev.live = true → s.dev.boot.factory = false → s.dev.inRun = true → s.dev.inSafe .fpPortCtl 0 k = false →
      ∃ t, exec (.fpPortEnable k) s = .next (s.put t) ∧ t.cd .fpPortCtl_enable k = 1 ∧ t.cd .fpPortStatus_up k = 1) ∧
    (s.dev.cd .fpPortStatus_up k ≤ 1 →
      ∃ t, exec (.fpPortDisable k) s = .next (s.put t) ∧ t.cd .fpPortCtl_enable k = 0 ∧ t.cd .fpPortStatus_up k = 0)) ∧
  ∀ s : State,
    let ball := fun (low : Bool) => ({ s.dev.quiet with sup := { s.dev.sup with phyInt := low } } : Dev)
    (s.dev.live = true → s.dev.inRun = true →
      exec .fphyIntFall s = .next (s.put ((((ball true).setCd .fpStatus_phyInt 1).setCd .fpStatus_phyIntSticky 1).raise 6
        0x0203 [])) ∧
      exec .fphyIntNRise s = .next (s.put ((ball false).setCd .fpStatus_phyInt 0))) ∧
    (s.dev.inRun = false → exec .fphyIntFall s = .next (s.put (ball true)) ∧
      exec .fphyIntNRise s = .next (s.put (ball false)))

/-! ### Lane tests -/

/-- LN_TEST_START, LN_TEST_STOP, LN_TEST_CLEAR, LN_TEST_DURATION_END, LN_CHECKER_LOCK, LN_CHECKER_LOCK_LOST and
OPTICAL_POWER_CALIBRATION (R287, R288, R290, R291). LN_INJECT on a looped lane (R289).  That the errors count at once
is the model's choice (log entry 34). -/
def Obligations.LaneTestsRun : Prop :=
  ((∀ (i : LinePort) (src : Fin 8) (lb : Fin 4) (dur : BitVec 16) (s : State), s.dev.hostUp = true →
    s.dev.railOn (i / 32) = true → s.dev.inSafe .lnTestCtl (i / 32 + 1) (i % 32) = false →
    let l := LaneId.line i
    let d := s.dev.quiet.lnFields l src lb dur.toNat
    (s.dev.lnFld l .lnTestStatus_state ∈ [1, 2, 3] →
      exec (.lnTestStart l src lb dur) s = .next (s.put (d.lnSet l .lnTestStatus_code 2))) ∧
    (s.dev.lnFld l .lnTestStatus_state ∉ [1, 2, 3] →
      sbSlot s.dev.boot.sb i = .unused ∨ s.dev.linkState (s.dev.slotPort i) = 0 →
      exec (.lnTestStart l src lb dur) s = .next (s.put (((d.lnSet l .lnTestStatus_state 2).lnSet l .lnTestStatus_code
        0).lnSet l .lnTestStatus_lock 0)))) ∧
  (∀ (l : LaneId) (bits errs syncs : Counts) (rx : List Bool) (errors : Fin 65) (s : State), s.dev.laneThere l = true →
    s.dev.lnFld l .lnTestStatus_state = 2 →
    let place := LaneId.place l
    let ends := fun (t : Dev) => match l with
      | .fabric a b k => t.lnFld l .lnTestStatus_state = 3 ∧ t.laneState a b k = 2
      | _ => s.dev.lnEnded t l ⟨bits.near, errs.near, syncs.near⟩
    (s.dev.hostUp = true → s.dev.winPowered place.1 = true →
      ∃ t, exec (.lnTestStop l bits errs syncs) s = .next (s.put t) ∧ ends t) ∧
    (s.dev.lnFld l .lnTestCtl_duration ≠ 0 →
      ∃ t, exec (.lnTestDurationEnd l bits errs syncs) s = .next (s.put t) ∧ ends t) ∧
    (checkerLocks (s.dev.lnFld l .lnTestCtl_source) (s.dev.wide .lnUserPattern place.1 place.2.1 place.2.2) rx = true →
      exec (.lnCheckerLock (l, rx)) s = .next (s.put (s.dev.quiet.lnSet l .lnTestStatus_lock 1))) ∧
    (s.dev.lnFld l .lnTestStatus_lock = 1 → 16 ≤ errors.val → exec (.lnCheckerLockLost (l, errors)) s = .next (s.put
      ((s.dev.quiet.lnSet l .lnTestStatus_lock 0).lnSet l .lnTestStatus_lockLostSticky 1)))) ∧
  (∀ (l : LaneId) (s : State), s.dev.hostUp = true → s.dev.laneThere l = true → s.dev.winPowered (LaneId.place l).1 = true →
    ∃ t, exec (.lnTestClear l) s = .next (s.put t) ∧ { s.dev.quiet with wides := t.wides } = t ∧
      ∀ x w i j, t.wide x w i j =
        if x ∈ [Wide.lnBits, .lnBitErrors, .lnSyncErrors] ∧ (w, i, j) = LaneId.place l then 0 else s.dev.wide x w i j) ∧
  ∀ (i : LinePort) (tx rx : BitVec 16) (s : State), s.dev.live = true → s.dev.railOn (4 + i / 64) = true →
    s.dev.slotOn i = true →
    exec (.opticalPowerCalibration i tx rx) s = .next (s.put
      ((s.dev.quiet.setFld .opLanePower_txPower (5 + i / 64) (i % 64) 0 tx.toNat).setFld .opLanePower_rxPower (5 + i / 64)
        (i % 64) 0 rx.toNat))) ∧
  (∀ (l : LaneId) (len : BitVec 7) (count : BitVec 16) (looped : Bool) (s : State), s.dev.hostUp = true →
    s.dev.laneThere l = true → s.dev.winPowered (LaneId.place l).1 = true →
    s.dev.inSafe .lnInjCtl (LaneId.place l).1 (LaneId.place l).2.1 (LaneId.place l).2.2 = false →
    s.dev.lnFld l .lnTestStatus_state = 2 → s.dev.lnFld l .lnTestCtl_loopback ≠ 0 → s.dev.lnFld l .lnTestCtl_source ≠ 5 →
    (∃ t, exec (.lnInject l 0 len count looped) s = .next (s.put t) ∧
      t.lnFld l .lnInjCtl_count = (if count = 0 then 1 else count.toNat) ∧ t.lnFld l .lnInjCtl_kind = 0 ∧
      t.lnFld l .lnInjCtl_len = clamp 2 64 len.toNat ∧
      t.wide .lnBitErrors (LaneId.place l).1 (LaneId.place l).2.1 (LaneId.place l).2.2 =
        (s.dev.wide .lnBitErrors (LaneId.place l).1 (LaneId.place l).2.1 (LaneId.place l).2.2 +
          (if count = 0 then 1 else count.toNat)) % 2 ^ 64) ∧
    ∃ t, exec (.lnInject l 2 len count looped) s = .next (s.put t) ∧ t.lnFld l .lnTestStatus_code = 5 ∧ t.wides = s.dev.wides)

/-! ### Reception -/

/-- FRAME_HEAD_ARRIVAL (R18, R129, R264) and FRAME_TAIL_END (R71, R19), with the precedence of Table 4-1 as `macVerdict`. -/
def Obligations.FramesArrive : Prop :=
  (∀ (p : Port) (head : List Byte) (back : Nat) (slow : Fin 8) (s : State), p.val < 128 →
    s.dev.liveDie (dieOf p) = true → s.dev.portExists p = true → s.dev.portUp p = true → s.dev.arriving p = none →
    (∀ f ∈ s.dev.net.frames, f.id < s.dev.net.nextId) →
    let stamp := stampAt (s.dev.instant (dieOf p)) (s.dev.rxOffset p - back)
    ∃ t, exec (.frameHeadArrival p head back slow []) s = .next (s.put t) ∧
      t.net.nextId = s.dev.net.nextId + 1 ∧ ∃ f, t.frame? s.dev.net.nextId = some f ∧ f.port = p.val ∧
        f.bytes = head.take (s.dev.maxlenOf p + 1) ∧ f.die = dieOf p ∧ f.take = s.dev.takeAt (dieOf p) stamp ∧
        f.whole = false ∧ f.stamp = stamp) ∧
  ∀ (p : Port) (rest : Arrived) (fcsOk octets fc : Bool) (code : Coding) (s : State) (f : Frame),
    p.val < 132 → s.dev.arriving p = some f → (∀ g ∈ s.dev.net.frames, g.id = f.id → g = f) →
    (∀ g ∈ s.dev.net.frames, g.port = p.val → g.waiting = false) →
    let r := f.receive rest.bytes
    let len := r.bytes.length + r.excess + 4
    ∃ t, exec (.frameTailEnd p rest fcsOk octets code fc) s = .next (s.put t) ∧
      (∀ k, macVerdict r (p < 128) len fcsOk (octets || p < 128) code.errors (validPfc r) = some k →
        t.frame? f.id = none ∧ t.portStat p (0x0F + k) = (s.dev.portStat p (0x0F + k) + 1) % 2 ^ 64) ∧
      (macVerdict r (p < 128) len fcsOk (octets || p < 128) code.errors (validPfc r) = none →
        r.control = false → ∀ g, t.frame? f.id = some g → g.whole = true)

/-- CELL_WRITTEN (R200, R201, R202), SERVICE_CHANNEL_ENTRY (R129) and FP_BP_REPEAT (R85). -/
def Obligations.ServiceAndCells : Prop :=
  (∀ (p : Port) (read : List BadWord) (s : State) (f : Frame), s.dev.frame? f.id = some f →
    (∀ g ∈ s.dev.net.frames, g.port = p.val → g.waiting = false) →
    (s.dev.nextCell p = some f →
      (f.admitted = true → ∃ t, exec (.cellWritten p ⟨[], read⟩) s = .next (s.put t) ∧ ∃ g, t.frame? f.id = some g ∧
        g.cells = f.cells + 1 ∧ g.admitted = true) ∧
      (f.admitted = false → f.port < 128 → admitCells f ≤ s.dev.cellsFree f.die →
        s.dev.headroomDraw f.die (inputOf f.port) f.work.tc ≤ s.dev.cfg .swPortCtl_headroom (f.die + 1) (idxOf f.port) →
        ∃ t, exec (.cellWritten p ⟨[], read⟩) s = .next (s.put t) ∧ ∃ g, t.frame? f.id = some g ∧
          g.cells = f.cells + 1 ∧ g.admitted = true ∧ g.reserved = admitCells f - 1) ∧
      (f.admitted = false → f.port < 128 → s.dev.cellsFree f.die < admitCells f → f.whole = true →
        ∃ t, exec (.cellWritten p ⟨[], read⟩) s = .next (s.put t) ∧
          t.wide .swBufferFull (f.die + 1) =
            (s.dev.wide .swBufferFull (f.die + 1) + 1) % 2 ^ Wide.swBufferFull.info.width ∧
          ∀ g, t.frame? f.id = some g → g.noRoom = true ∧ g.todo = [])) ∧
    ∀ more : List Byte, more ≠ [] → s.dev.arriving p = some f → f.known = false →
      f.stage ∉ [Stage.cd, .arriving, .parsed, .looked, .ready] →
      ∃ t, exec (.cellWritten p ⟨more, read⟩) s = .next (s.put t) ∧ ∃ g, t.frame? f.id = some g ∧
        g.bytes = f.bytes ++ more.take (f.maxlen + 1 - f.bytes.length)) ∧
  (∀ (p : Port) (slow : Fin 8) (read : List BadWord) (s : State) (f : Frame),
    s.dev.net.frames.find? (fun f => f.port = p.val && f.stage = .cd) = some f → s.dev.frame? f.id = some f →
    (s.dev.serviceOpen = true → s.dev.liveDie 0 = true → f.control = false → f.noRoom = false →
      14 ≤ f.bytes.length ∨ f.whole = true → admitCells f ≤ s.dev.cellsFree 0 →
      ∃ t, exec (.serviceChannelEntry p ⟨slow, read⟩) s = .next (s.put t) ∧
        t = ((s.dev.quiet.noteBad read).startWalk (s.dev.serviceFrame f slow) read).bpTest p ∧
        (s.dev.serviceFrame f slow).take = s.dev.takeOf 0 ∧ (s.dev.serviceFrame f slow).admitted = true ∧
        ∀ g, t.frame? f.id = some g → g.stage ≠ .cd ∧ g.take = s.dev.takeOf 0) ∧
    (s.dev.serviceOpen = false → exec (.serviceChannelEntry p ⟨slow, read⟩) s = .next (s.put s.dev.quiet))) ∧
  ∀ (k : FieldPort) (s : State), s.dev.cd .fpPortStatus_bpActive k = 1 →
    (s.dev.fullDuplex (128 + k) = true → s.dev.canSend (128 + k) = true →
      ∃ t, exec (.fpBpRepeat k) s = .next (s.put t) ∧
        t.out = [.pfc (128 + k) (s.dev.wide .fpMacAddr 0 k) 0xFF (List.replicate 8 0xFFFF)]) ∧
    (s.dev.fullDuplex (128 + k) = false → exec (.fpBpRepeat k) s = .next (s.put s.dev.quiet))

/-- PFC_PAUSE_EXPIRE, PFC_HELD_100MS, PFC_TRANSMIT and PFC_REPEAT (R78, R79). ONE_SECOND_INTERVAL_END (R80, R104). -/
def Obligations.PauseAndIntervals : Prop :=
  ((∀ (p : Port) (c : Tc) (s : State), (s.dev.tx p).held.contains c.val = true →
    (∃ t, exec (.pfcPauseExpire p c) s = .next (s.put (s.dev.quiet.setTx p t)) ∧
      t = { s.dev.tx p with held := t.held, heldSaid := t.heldSaid } ∧
      (∀ k, k ∈ t.held ↔ k ∈ (s.dev.tx p).held ∧ k ≠ c.val) ∧
      (∀ k, k ∈ t.heldSaid ↔ k ∈ (s.dev.tx p).heldSaid ∧ k ≠ c.val)) ∧
    ((s.dev.tx p).heldSaid.contains c.val = false → exec (.pfcHeld100ms p c) s = .next (s.put
      ((s.dev.quiet.setTx p { s.dev.tx p with heldSaid := c.val :: (s.dev.tx p).heldSaid }).raise (macDie p) 0x0202
        [(8, p.val), (3, c.val)])))) ∧
  (∀ (p : Port) (s : State), p.val < 132 → s.dev.canSend p = true → s.dev.pfcToSend p ≠ [] →
    let due := s.dev.pfcToSend p
    ∃ t v times, exec (.pfcTransmit p) s = .next (s.put t) ∧ t.out = [.pfc p (s.dev.macAddr p) v times] ∧
      (t.tx p).pfcDue = [] ∧ t.portStat p 0x25 = (s.dev.portStat p 0x25 + 1) % 2 ^ 64 ∧
      (∀ c : Tc, times[c.val]? = some (if (c.val, 1) ∈ due then s.dev.quanta p else 0) ∧
        ((c.val, 1) ∈ due → c.val ∈ (t.tx p).pfcSent)) ∧
      ((∀ c : Tc, (c.val, 1) ∉ due ∨ (c.val, 0) ∉ due) →
        ∀ c : Tc, bitAt v c = if (c.val, 1) ∈ due ∨ (c.val, 0) ∈ due then 1 else 0)) ∧
  ∀ (p : LinePort) (s : State), s.dev.canSend p = true → s.dev.xoffClasses p ≠ [] →
    ∃ t v times, exec (.pfcRepeat p) s = .next (s.put t) ∧ t.out = [.pfc p (s.dev.macAddr p) v times] ∧
      ∀ c : Tc, c.val ∈ s.dev.xoffClasses p → times[c.val]? = some (s.dev.quanta p)) ∧
  (∀ (n : Isl) (s : State), ∃ t, exec (.oneSecondIntervalEnd n) s = .next (s.put t) ∧
    t.net = { s.dev.net with
      dropSum := s.dev.net.dropSum.filter (fun e => macIsl e.1 ≠ n)
      malSum := s.dev.net.malSum.filter (fun e => dieOf e.1 ≠ n) } ∧
    (∀ e ∈ t.obs.once, min e.1 4 ≠ n.val) ∧
    ∀ e ∈ s.dev.obs.once, min e.1 4 ≠ n.val → e ∈ t.obs.once)

/-- GRAPH_WORD_RELOAD, CL_WORD_REWRITE, PROGRAM_WORD_RELOAD and STATIC_ENTRY_REWRITE (R105, R118, R164, R183).
MEMORY_SCRUB_PASS, TABLE_SCRUB_PASS and CFG_SCRUB_PASS (R118, R164, R183, R350). -/
def Obligations.ScrubsAndRepairs : Prop :=
  (∀ s : State,
    (∀ (n : Die) (a : Nat), exec (.graphWordReload n a) s = .next (s.put (s.dev.mended (.graph n a)))) ∧
    (∀ (n p a : Nat), exec (.clWordRewrite (.cam n p a)) s = .next (s.put (s.dev.mended (.cam n p a)))) ∧
    (∀ (n a : Nat), exec (.clWordRewrite (.tree n a)) s = .next (s.put (s.dev.mended (.tree n a)))) ∧
    (∀ (n a : Nat), exec (.clWordRewrite (.pattern n a)) s = .next (s.put (s.dev.mended (.pattern n a)))) ∧
    (∀ (n : Die) (a : Nat), exec (.programWordReload n a) s = .next (s.put (s.dev.mended (.prog n a)))) ∧
    ∀ (n : Die) (i : Nat) (e : AddrEnt), s.dev.entAt n i = some e → e.static = true →
      exec (.staticEntryRewrite n i) s = .next (s.put (s.dev.mended (.addr n i)))) ∧
  ((∀ (n : Die) (a : Nat) (s : State), ∃ t, exec (.memoryScrubPass n [.prog n a]) s = .next (s.put t) ∧
    BadWord.prog n a ∈ t.net.bad ∧ t.pd .aeStatus_paritySticky n = 1) ∧
  (∀ (n : Die) (a : Nat) (s : State), s.dev.net.alarmed.contains (.addr n a) = false →
    ∃ t, exec (.tableScrubPass n [.addr n a]) s = .next (s.put t) ∧ t.badEnt n a = true ∧
      t.pd .fwStatus_paritySticky n = 1 ∧
      t.wide .fwParity (n + 1) = (s.dev.wide .fwParity (n + 1) + 1) % 2 ^ Wide.fwParity.info.width) ∧
  ∀ (w : Fin 8) (o : BitVec 22) (r : Reg) (i j : Nat) (s : State), s.dev.boot.run = true → s.dev.winPowered w = true →
    regAt w o.toNat = some (r, i, j) → r.guarded = true → s.dev.ghost r w i = false → s.dev.inSafe r w i j = false →
    ∃ t, exec (.cfgScrubPass w [o]) s = .next (s.put t) ∧ t.inSafe r w i j = true ∧
      bitAt (t.cd .hiParityStatus_sticky) w = 1 ∧
      t.wide .hiParityCount 0 = (s.dev.wide .hiParityCount 0 + 1) % 2 ^ Wide.hiParityCount.info.width)

/-! ### Action engines -/

/-- The register instructions of Table 7-4 (R145, R149): `wrote` is the engine with rd written, the pc at the next word and
the slots counted, `ranOn` that nothing but that engine has changed. -/
def Obligations.RegisterInstructions : Prop :=
  ∀ (n : Die) (p : Fin 4) (e rd ra rb : Fin 16) (g : Engine) (f : Frame) (s : State),
    let a : Word := g.regs[ra]
    let b : Word := g.regs[rb]
    let old : Word := g.regs[rd]
    let does := fun (i : Instr) (w : Nat) (v : Word) =>
      s.dev.issues n p e w 1 g f → ∃ t, exec i s = .next (s.put t) ∧ s.dev.ranOn t n p e (g.wrote 1 rd v) f
    does (.add n p e rd ra rb) (encR 0x02 rd ra rb) (a + b) ∧
    does (.sub n p e rd ra rb) (encR 0x03 rd ra rb) (a - b) ∧
    does (.and n p e rd ra rb) (encR 0x04 rd ra rb) (a &&& b) ∧
    does (.or n p e rd ra rb) (encR 0x05 rd ra rb) (a ||| b) ∧
    does (.xor n p e rd ra rb) (encR 0x06 rd ra rb) (a ^^^ b) ∧
    does (.shl n p e rd ra rb) (encR 0x07 rd ra rb) (BitVec.ofNat 32 (a.toNat * 2 ^ (b.toNat % 32))) ∧
    does (.shr n p e rd ra rb) (encR 0x08 rd ra rb) (BitVec.ofNat 32 (a.toNat / 2 ^ (b.toNat % 32))) ∧
    (∀ imm : BitVec 18,
      does (.addi n p e rd ra imm) (encI 0x09 rd ra imm.toNat) (BitVec.ofInt 32 (a.toNat + imm.toInt)) ∧
      does (.andi n p e rd ra imm) (encI 0x0A rd ra imm.toNat) (a &&& BitVec.ofNat 32 imm.toNat) ∧
      does (.ori n p e rd ra imm) (encI 0x0B rd ra imm.toNat) (a ||| BitVec.ofNat 32 imm.toNat) ∧
      does (.xori n p e rd ra imm) (encI 0x0C rd ra imm.toNat) (a ^^^ BitVec.ofNat 32 imm.toNat) ∧
      does (.movi n p e rd imm) (encI 0x0D rd 0 imm.toNat) (BitVec.ofInt 32 imm.toInt)) ∧
    (∀ imm : BitVec 16, does (.movhi n p e rd imm) (encI 0x0E rd 0 imm.toNat)
      (BitVec.ofNat 32 (imm.toNat * 2 ^ 16 + old.toNat % 2 ^ 16))) ∧
    (∀ imm : BitVec 5,
      does (.shli n p e rd ra imm) (encI 0x0F rd ra imm.toNat) (BitVec.ofNat 32 (a.toNat * 2 ^ imm.toNat)) ∧
      does (.shri n p e rd ra imm) (encI 0x10 rd ra imm.toNat) (BitVec.ofNat 32 (a.toNat / 2 ^ imm.toNat))) ∧
    (∀ pos len1 : BitVec 5,
      does (.ext n p e rd ra pos len1) (encS 0x11 rd ra pos.toNat len1.toNat)
        (BitVec.ofNat 32 (a.toNat / 2 ^ pos.toNat % 2 ^ (len1.toNat + 1))) ∧
      (s.dev.issues n p e (encS 0x12 rd ra pos.toNat len1.toNat) 1 g f →
        ∃ t v, exec (.ins n p e rd ra pos len1) s = .next (s.put t) ∧ s.dev.ranOn t n p e (g.wrote 1 rd v) f ∧
          ∀ k : Nat, k < 32 → v.getLsbD k =
            if pos.toNat ≤ k ∧ k ≤ pos.toNat + len1.toNat then a.getLsbD (k - pos.toNat) else old.getLsbD k)) ∧
    (s.dev.issues n p e (encR 0x01 0 0 0) 1 g f →
      ∃ t, exec (.nop n p e) s = .next (s.put t) ∧ s.dev.ranOn t n p e (g.issued 1 (g.pc + 1)) f)

/-- The branches of Table 7-4 (R145, R149). -/
def Obligations.BranchesGoForward : Prop :=
  ∀ (n : Die) (p : Fin 4) (e ra rb : Fin 16) (g : Engine) (f : Frame) (s : State),
    let a : Nat := (g.regs[ra]).toNat
    let b : Nat := (g.regs[rb]).toNat
    let goes := fun (i : Instr) (w off : Nat) (c : Bool) =>
      s.dev.issues n p e w 1 g f → ∃ t, exec i s = .next (s.put t) ∧
        s.dev.ranOn t n p e (g.issued 1 (if c then g.pc + 1 + off else g.pc + 1)) f
    (∀ off : BitVec 14,
      goes (.beq n p e ra rb off) (encB 0x30 ra rb off.toNat) off.toNat (a = b) ∧
      goes (.bne n p e ra rb off) (encB 0x31 ra rb off.toNat) off.toNat (a ≠ b) ∧
      goes (.blt n p e ra rb off) (encB 0x32 ra rb off.toNat) off.toNat (a < b) ∧
      goes (.bge n p e ra rb off) (encB 0x33 ra rb off.toNat) off.toNat (b ≤ a) ∧
      goes (.jmp n p e off) (0x38 * 2 ^ 26 + off.toNat) off.toNat true) ∧
    (∀ (imm : BitVec 14) (off : Byte),
      goes (.beqi n p e ra imm off) (encBI 0x34 ra imm.toNat off.toNat) off.toNat (a = imm.toNat) ∧
      goes (.bnei n p e ra imm off) (encBI 0x35 ra imm.toNat off.toNat) off.toNat (a ≠ imm.toNat)) ∧
    (∀ (bit : BitVec 5) (off : Byte),
      goes (.bbs n p e ra bit off) (encBB 0x36 ra bit.toNat off.toNat) off.toNat (bitAt a bit.toNat = 1) ∧
      goes (.bbc n p e ra bit off) (encBB 0x37 ra bit.toNat off.toNat) off.toNat (bitAt a bit.toNat = 0)) ∧
    ∀ top : Byte, goes (.jtab n p e ra top) (0x39 * 2 ^ 26 + ra * 2 ^ 22 + top.toNat * 2 ^ 14) (min a top.toNat) true

/-- HLD, HST, INSB, DELB and CKSUM (R146, R153, R154).  That a UDP checksum that comes out 0 is stored as 0xFFFF is the
model's choice (log entry 74). -/
def Obligations.HeaderAccess : Prop :=
  ∀ (n : Die) (p : Fin 4) (e r base rb : Fin 16) (size : Fin 3) (off : BitVec 9) (g : Engine) (f : Frame) (s : State)
    (a : Nat), accessAt g f base rb off.toNat = some a →
    (∀ v, s.dev.issues n p e (encH 0x18 r base rb size off.toNat) 1 g f → a + sizeBytes size - 1 ≤ f.work.lastOff →
      winRead f.work f.whole a (sizeBytes size) = some v →
      ∃ t, exec (.hld n p e r base rb size off) s = .next (s.put t) ∧
        s.dev.ranOn t n p e (g.wrote 1 r (BitVec.ofNat 32 v)) f) ∧
    (s.dev.issues n p e (encH 0x19 r base rb size off.toNat) 1 g f → a + sizeBytes size - 1 ≤ f.work.lastOff →
      a + sizeBytes size ≤ f.work.win.length →
      ∃ t w, exec (.hst n p e r base rb size off) s = .next (s.put t) ∧
        s.dev.ranOn t n p e (g.issued 1 (g.pc + 1)) { f with work := { f.work with win := w } } ∧
        w.length = f.work.win.length ∧ (∀ k, k < a ∨ a + sizeBytes size ≤ k → w[k]? = f.work.win[k]?) ∧
        beNat ((w.drop a).take (sizeBytes size)) = (g.regs[r]).toNat % 256 ^ sizeBytes size) ∧
    (s.dev.issues n p e (encH 0x1A r base rb size off.toNat) 2 g f → a ≤ f.work.payload →
      f.work.growth + sizeBytes size ≤ 32 →
      ∃ t, exec (.insb n p e r base rb size off) s = .next (s.put t) ∧
        let b := toBytes (beBytes (sizeBytes size) ((g.regs[r]).toNat % 256 ^ sizeBytes size))
        s.dev.ranOn t n p e (g.issued 2 (g.pc + 1)) { f with work := f.work.insert a b }) ∧
    (∀ n1 : BitVec 5, s.dev.issues n p e (encD 0x1B base rb n1.toNat off.toNat) 2 g f →
      a + (n1.toNat + 1) ≤ f.work.payload →
      ∃ t, exec (.delb n p e base rb n1 off) s = .next (s.put t) ∧
        s.dev.ranOn t n p e (g.issued 2 (g.pc + 1)) { f with work := f.work.delete a (n1.toNat + 1) }) ∧
    (∀ (k : Fin 16) (h h0 : Hdr), s.dev.issues n p e (0x1C * 2 ^ 26 + k * 2 ^ 18) 2 g f →
      f.work.stack[k.val]? = some h → f.init.stack[k.val]? = some h0 → hdrClass s.dev.boot.sb.graph h = .ipv4 →
      ∃ t, exec (.cksum n p e 0 k) s = .next (s.put t) ∧
        let hdr := patch ((f.work.win.drop h.cur).take (at0 f.work.win h.cur % 16 * 4)) 10 [0, 0]
        let win := patch f.work.win (h.cur + 10) (toBytes (beBytes 2 (inetChecksum hdr)))
        s.dev.ranOn t n p e (g.issued 2 (g.pc + 1)) { f with work := { f.work with win := win } }) ∧
    ∀ (k : Fin 16) (o : Nat) (h h0 ip ip0 : Hdr) (v4 w4 : Bool),
      s.dev.issues n p e (0x1C * 2 ^ 26 + 2 ^ 24 + k * 2 ^ 18) 2 g f →
      f.work.stack[k.val]? = some h → f.init.stack[k.val]? = some h0 →
      (hdrClass s.dev.boot.sb.graph h = .udp ∧ o = 6 ∨ hdrClass s.dev.boot.sb.graph h = .tcp ∧ o = 16) →
      enclosingIp s.dev.boot.sb.graph f.work.stack k = some (ip, v4) →
      enclosingIp s.dev.boot.sb.graph f.init.stack k = some (ip0, w4) →
      ∃ t, exec (.cksum n p e 1 k) s = .next (s.put t) ∧
        let old := word0 f.init.win (h0.cur + o)
        let new := checksumUpdate old (coveredSum f.init h0 o ip0 v4) (coveredSum f.work h o ip v4)
        let stored := if old = 0 ∧ v4 = true ∧ o = 6 then 0 else if o = 6 ∧ new = 0 then 0xFFFF else new
        s.dev.ranOn t n p e (g.issued 2 (g.pc + 1))
          { f with work := { f.work with win := patch f.work.win (h.cur + o) (toBytes (beBytes 2 stored)) } }

/-- MRD, MWR, SETTC, LOOKUP, REDIR, GROUP, DROP, TOHOST, MIRROR and RTAG (R147, R151, R155, R157, R158, R219). -/
def Obligations.MetadataAndDirectives : Prop :=
  ∀ (n : Die) (p : Fin 4) (e ra : Fin 16) (g : Engine) (f : Frame) (s : State),
    let sets := fun (i : Instr) (w : Nat) (k : Work) => s.dev.issues n p e w 1 g f →
      ∃ t, exec i s = .next (s.put t) ∧ s.dev.ranOn t n p e (g.issued 1 (g.pc + 1)) { f with work := k }
    (∀ i : Byte, s.dev.issues n p e (encM 0x1E ra 0 i.toNat) 1 g f →
      ∃ t, exec (.mrd n p e ra i) s = .next (s.put t) ∧
        s.dev.ranOn t n p e (g.wrote 1 ra (BitVec.ofNat 32 (metaRead g f i.toNat))) f) ∧
    (∀ i : Byte, sets (.mwr n p e ra i) (encM 0x1F 0 ra i.toNat) (metaWrite f.work i.toNat (g.regs[ra]).toNat)) ∧
    (∀ (reg : Bool) (tc : Tc), sets (.settc n p e ra reg tc) (0x20 * 2 ^ 26 + ra * 2 ^ 18 + b2n reg * 2 ^ 3 + tc)
      { f.work with tc := if reg then (g.regs[ra]).toNat % 8 else tc, tcSet := true }) ∧
    sets (.lookup n p e) (0x21 * 2 ^ 26) { f.work with dir := .lookup } ∧
    sets (.drop n p e) (0x24 * 2 ^ 26) { f.work with dir := .drop } ∧
    (∀ code : Byte, sets (.tohost n p e false code) (0x25 * 2 ^ 26 + code.toNat) { f.work with dir := .host code.toNat } ∧
      sets (.tohost n p e true code) (0x25 * 2 ^ 26 + 2 ^ 8 + code.toNat) { f.work with hostReq := some code.toNat }) ∧
    (∀ (reg : Bool) (port : Byte),
      let q := if reg then (g.regs[ra]).toNat % 256 else port.toNat
      (q = 132 → sets (.redir n p e ra reg port) (0x22 * 2 ^ 26 + ra * 2 ^ 18 + b2n reg * 2 ^ 12 + port.toNat)
        { f.work with dir := .host 0 }) ∧
      (q ≠ 132 → s.dev.portExists q = true → s.dev.railOn (dieOf q) = true →
        sets (.redir n p e ra reg port) (0x22 * 2 ^ 26 + ra * 2 ^ 18 + b2n reg * 2 ^ 12 + port.toNat)
          { f.work with dir := .port q })) ∧
    (∀ (slot : BitVec 12) (o : ObjVer), s.dev.bound slot.toNat f.take = some o →
      (∀ k ms, o.data = .mcast k ms → sets (.group n p e slot) (encM 0x23 0 0 slot.toNat) { f.work with dir := .group o.h }) ∧
      (∀ r, o.data = .mirror r → f.work.mirrors.contains o.num = false → f.work.mirrors.length < 4 →
        sets (.mirror n p e slot) (encM 0x26 0 0 slot.toNat) { f.work with mirrors := f.work.mirrors ++ [o.num] }) ∧
      (∀ r, o.data = .mirror r → f.work.mirrors.contains o.num = true →
        sets (.mirror n p e slot) (encM 0x26 0 0 slot.toNat) f.work)) ∧
    ∀ (mode : Fin 4) (i : BitVec 12),
      let w := 0x1D * 2 ^ 26 + mode * 2 ^ 24 + i.toNat
      let k := f.work.untag
      (mode ≠ 2 → sets (.rtag n p e mode i) w { k with rtag := some (mode, i.toNat) }) ∧
      (mode = 2 → k.growth + 6 ≤ 32 → sets (.rtag n p e mode i) w
        (let a := hsrPlace s.dev.boot.sb.graph k.stack
         { k.insert a [0x89, 0x2F, 0, 0, 0, 0] with rtag := some (2, i.toNat), tagAt := some a }))

/-- METER (R150, R232, R234) and COUNT (R156). EXIT (R140, R159) and ILLEGAL (R149, R161, R163). -/
def Obligations.MetersCountersAndEnds : Prop :=
  (∀ (n : Die) (p : Fin 4) (e r : Fin 16) (slot : BitVec 12) (g : Engine) (f : Frame) (o : ObjVer) (s : State),
    s.dev.bound slot.toNat f.take = some o →
    (∀ m, o.data = .meter m → s.dev.issues n p e (encM 0x27 r 0 slot.toNat) 4 g f →
      let b := max 1 ((chargeLen f : Int) + m.lenAdj).toNat
      let pre := (g.regs[r]).toNat
      let tc := s.dev.bucket (.meterC f.die o.h)
      let tp := s.dev.bucket (.meterP f.die o.h)
      let units : Int := (b * byteUnits : Nat)
      let colour := if (m.aware = true ∧ 2 ≤ pre) ∨ tp < units then 2
        else if (m.aware = true ∧ pre = 1) ∨ tc < units then 1 else 0
      ∃ t, exec (.meter n p e r slot) s = .next (s.put t) ∧
        t.engine? n p e = some (g.wrote 4 r (BitVec.ofNat 32 colour)) ∧
        t.frame? f.id = some { f with charges := f.charges ++ [(o.h, colour)] } ∧
        t.bucket (.meterC f.die o.h) = (if colour = 0 then tc - units else tc) ∧
        t.bucket (.meterP f.die o.h) = (if colour = 2 then tp else tp - units) ∧
        t.plc.meters = countColour s.dev.plc.meters o.h f.die colour b ∧
        { s.dev.quiet with bkts := t.bkts, plc := { s.dev.plc with meters := t.plc.meters },
                           net := { s.dev.net with engines := t.net.engines, frames := t.net.frames } } = t ∧
        ∀ x y z : Nat, (x, y, z) ≠ (n.val, p.val, e.val) → t.engine? x y z = s.dev.engine? x y z) ∧
    ∀ k, o.data = .cblock k → s.dev.issues n p e (encM 0x28 0 r slot.toNat) 1 g f → (g.regs[r]).toNat < k →
      ∃ t, exec (.count n p e r slot) s = .next (s.put t) ∧ t.engine? n p e = some (g.issued 1 (g.pc + 1)) ∧
        t.blockEntry o.h f.die (g.regs[r]).toNat =
          (((s.dev.blockEntry o.h f.die (g.regs[r]).toNat).1 + 1) % 2 ^ 64,
           ((s.dev.blockEntry o.h f.die (g.regs[r]).toNat).2 + if f.whole then f.bytes.length + 4 else 0) % 2 ^ 64) ∧
        t.frame? f.id = some (if f.whole then f else { f with counts := f.counts ++ [(o.h, f.die, (g.regs[r]).toNat)] }) ∧
        { s.dev.quiet with plc := { s.dev.plc with cblks := t.plc.cblks },
                           net := { s.dev.net with engines := t.net.engines, frames := t.net.frames } } = t ∧
        ∀ x y z : Nat, (x, y, z) ≠ (n.val, p.val, e.val) → t.engine? x y z = s.dev.engine? x y z) ∧
  (∀ (n : Die) (p : Fin 4) (e : Fin 16) (g : Engine) (f : Frame) (s : State),
    (s.dev.issues n p e (0x3E * 2 ^ 26) 1 g f →
      ∃ t f', exec (.exit n p e) s = .next (s.put t) ∧ t.frame? f.id = some f' ∧ f'.stage = .ended ∧
        (f'.work.dir = f.work.dir ∨ f.port = 132 ∧ (∃ c, f.work.dir = .host c) ∧ f'.work.dir = .drop) ∧
        ((∀ x ∈ s.dev.net.frames, x.stage ≠ .ready) → t.engine? n p e = none ∧
          ∀ q, f.prog = some q → f.work.dir = .drop → f.silent = false → f.whole = true →
            t.wide .aeDropCount (f.die + 1) q = (s.dev.wide .aeDropCount (f.die + 1) q + 1) % 2 ^ Wide.aeDropCount.info.width)) ∧
    ∀ w, opOf w = 0 ∨ opOf w = 0x3F ∨ (0x13 ≤ opOf w ∧ opOf w ≤ 0x17) ∨ (0x29 ≤ opOf w ∧ opOf w ≤ 0x2F) ∨
        (0x3A ≤ opOf w ∧ opOf w ≤ 0x3D) → s.dev.issues n p e w 1 g f →
      ∃ t f', exec (.illegal n p e) s = .next (s.put t) ∧ t.frame? f.id = some f' ∧ f'.stage = .ended ∧
        t.wide .aeCauseCount (f.die + 1) 1 =
          (s.dev.wide .aeCauseCount (f.die + 1) 1 + 1) % 2 ^ Wide.aeCauseCount.info.width ∧
        t.pd .aeStatus_faultSticky f.die = 1 ∧
        ((∀ x ∈ s.dev.net.frames, x.stage ≠ .ready) → t.engine? n p e = none ∧ t.pd .aeFaultLast_cause f.die = 1 ∧
          t.pd .aeFaultLast_addr f.die = g.pc ∧ t.pd .aeFaultLast_prog f.die = g.prog))

/-! ### Switch core and transmission -/

/-- ACTION_HANDOFF (R141) and REPLICATE (R208). -/
def Obligations.HandedOnAndReplicated : Prop :=
  (∀ (p : Port) (s : State) (f : Frame), s.dev.nextHandoff p = some f →
    ∃ t g, exec (.actionHandoff p) s = .next (s.put t) ∧ t.frame? f.id = some g ∧ g.stage = .handed ∧
      ∀ x ∈ s.dev.net.frames, x.id ≠ f.id → x ∈ t.net.frames) ∧
  ∀ (n : Die) (s : State) (f : Frame) (fs : List Frame) (r : CopyReq) (rest : List CopyReq), s.dev.liveDie n = true →
    s.dev.toReplicate n = f :: fs → s.dev.frame? f.id = some f → f.todo = r :: rest → r.kind = .fwd → r.port < 132 →
    r.slot < 33 → s.dev.standsBy = false → s.dev.outBit .swPortStatus_discarding r.port r.tc = false →
    ∃ t c, exec (.replicate n) s = .next (s.put t) ∧ c ∈ t.net.copies ∧ c.id = s.dev.net.nextCopy ∧ c.frame = f.id ∧
      c.port = r.port ∧ c.tc = r.tc ∧ c.slot = r.slot ∧ c.deferred = false ∧
      c.sf = s.dev.storeForward f r.port r.tc ∧ ∀ x ∈ s.dev.net.copies, x ∈ t.net.copies

/-- CELL_TIME with nothing to send (R204, R205), TOKEN_EXPIRE (R204), HEAD_SCAN (R209, R210) and HOLD_EXPIRE (R212).
CELL_TIME with one copy and one token (R204, R205, R220). -/
def Obligations.QueuesAreTended : Prop :=
  ((∀ (n : Die) (s : State), s.dev.liveDie n = true → s.dev.net.copies = [] →
    exec (.cellTime n) s = .next (s.put { s.dev.quiet with net := { s.dev.net with
      tokens := s.dev.net.tokens.map (fun k => if k.holder = n.val then { k with age := k.age + 1 } else k)
      cellNo := aset s.dev.net.cellNo n.val ((aget s.dev.net.cellNo n.val).getD 0 + 1) } })) ∧
  (∀ (n : Die) (o : Fin 129) (c : Tc) (s : State) (k : Token), k ∈ s.dev.net.tokens → k.slot = o → k.tc = c →
    k.holder = n → 4 ≤ k.age →
    ∃ t x a b, exec (.tokenExpire n o c) s = .next (s.put t) ∧ s.dev.net.tokens = a ++ x :: b ∧ x.slot = o.val ∧ x.tc = c.val ∧
      x.holder = n.val ∧ 4 ≤ x.age ∧ t.net = { s.dev.net with tokens := a ++ b }) ∧
  (∀ (n : Die) (s : State), s.dev.liveDie n = true →
    ((∀ c ∈ s.dev.heads n, ∀ f, s.dev.frame? c.frame = some f → c.tx = true ∨ s.dev.tooOld n c.tc f = false) →
      exec (.headScan n) s = .next (s.put s.dev.quiet)) ∧
    ∀ c f, s.dev.heads n = [c] → s.dev.frame? c.frame = some f → c.tx = false → s.dev.tooOld n c.tc f = true →
      copyMade f c = true →
      ∃ t, exec (.headScan n) s = .next (s.put t) ∧ (∀ x ∈ t.net.copies, x.id ≠ c.id) ∧
        t.wide .swAgeDiscard (n + 1) c.port c.tc =
          (s.dev.wide .swAgeDiscard (n + 1) c.port c.tc + 1) % 2 ^ Wide.swAgeDiscard.info.width) ∧
  ∀ (q : Port) (c : Tc) (s : State), s.dev.outBit .swPortStatus_holding q c = true →
    ∃ t, exec (.holdExpire q c) s = .next (s.put t) ∧ t.outBit .swPortStatus_holding q c = false ∧
      t.outBit .swPortStatus_discarding q c = true ∧
      ∀ x ∈ t.net.copies, x.port = q → x.tc = c → x.deferred = true ∨ x.tx = true) ∧
  (∀ (n : Die) (s : State) (x : Copy) (f : Frame) (k : Token), s.dev.liveDie n = true → s.dev.net.copies = [x] →
    s.dev.net.tokens = [k] → k.holder = n → k.tc = x.tc → x.tc < 8 → k.age < 4 → slotDie k.slot = n →
    s.dev.portOfSlot k.slot = outOf x.port → s.dev.frame? x.frame = some f → f.die = n → s.dev.tooOld n x.tc f = false →
    s.dev.ready n x.slot x.port x.tc = some x → (∃ i ∈ s.dev.inSlots n, s.dev.voqSlot n i = x.slot) →
    ∃ t y, exec (.cellTime n) s = .next (s.put t) ∧ t.net.copies = [y] ∧ y.id = x.id ∧ y.sent = x.sent + 1 ∧
      y.got = x.got ++ [(x.sent, k.slot)])

/-- FABRIC_CELL_RECEIVE and FABRIC_CELL_MISSING (R214, R215, R280, R285). -/
def Obligations.FabricCellsArrive : Prop :=
  (∀ (a b : Die) (k : Fin 48) (s : State) (x : Flight) (xs : List Flight) (c : Copy), s.dev.link a b = true →
    s.dev.laneState b a k ≤ 1 → s.dev.onLane a b k = x :: xs → s.dev.net.copies.find? (fun c => c.id = x.copy) = some c →
    (∃ t, exec (.fabricCellReceive a b k true) s = .next (s.put t) ∧
      t.net.flights = dropFirst (fun y => y = x) s.dev.net.flights ∧ t.net.frames = s.dev.net.frames ∧
      t.net.copies.map (fun y => { y with qseq := 0 }) = s.dev.net.copies.map (fun y =>
        if y.id = c.id then { c with got := c.got ++ [(x.cell, x.slot)], qseq := 0 } else { y with qseq := 0 }) ∧
      ∀ f, s.dev.net.copies = [c] → s.dev.frame? c.frame = some f → c.sent ≠ 0 → c.qseq = 0 → x.cell = 0 →
        t.net.copies = [{ c with got := c.got ++ [(0, x.slot)], qseq := s.dev.net.nextSeq }]) ∧
    ∀ f, s.dev.frame? c.frame = some f →
      ∃ t, exec (.fabricCellReceive a b k false) s = .next (s.put t) ∧ (∀ y ∈ t.net.copies, y.id ≠ x.copy) ∧
        t.wide .swFabricCellError (b + 1) =
          (s.dev.wide .swFabricCellError (b + 1) + 1) % 2 ^ Wide.swFabricCellError.info.width ∧
        t.wide .fbCellErrors (b + 1) k a =
          (s.dev.wide .fbCellErrors (b + 1) k a + 1) % 2 ^ Wide.fbCellErrors.info.width ∧
        t.pd .swStatus_fabricErrSticky b = 1) ∧
  ∀ (a b : Die) (s : State) (x : Flight) (c : Copy), x ∈ s.dev.net.missing → x.src = a → x.dst = b →
    c ∈ s.dev.net.copies → c.id = x.copy → (∃ g ∈ c.got, x.cell < g.1) →
    ∃ t y, exec (.fabricCellMissing a b) s = .next (s.put t) ∧ y ∈ s.dev.net.missing ∧ y.src = a ∧ y.dst = b ∧
      y ∉ t.net.missing ∧ t.pd .swStatus_fabricErrSticky b = 1 ∧
      t.wide .swFabricCellError (b + 1) =
        (s.dev.wide .swFabricCellError (b + 1) + 1) % 2 ^ Wide.swFabricCellError.info.width

/-- While a port is sending, no other frame begins at it (R23). -/
def Obligations.FramesAreNotPreempted : Prop :=
  ∀ (q : Port) (carrier : Bool) (s : State), (s.dev.tx q).busy = true → (s.dev.sending q).isSome = true →
    exec (.frameTransmitStart q carrier) s = .next (s.put s.dev.quiet)

/-- FRAME_TRANSMIT_START (R222), FRAME_TRANSMIT_END (R75, R130, R207, R367, R371), FP_COLLISION and FP_BACKOFF_EXPIRE (R83).
That a cut-through copy over the limit ends in error is the model's choice (log entry 89). -/
def Obligations.FramesLeaveTheirPort : Prop :=
  (∀ (q : Port) (carrier : Bool) (s : State) (c : Copy) (f : Frame), (q.val < 128 → s.dev.portEnabled q = true) →
    s.dev.canStart q = true → (carrier && s.dev.halfDuplex q) = false →
    s.dev.net.copies = [c] → s.dev.egressHead q c.tc = some c → c.tc < 8 → s.dev.strict q c.tc = true →
    s.dev.eligible q c.tc = true → s.dev.frame? c.frame = some f → s.dev.gating q = false →
    s.dev.tooOld (dieOf q) c.tc f = false → s.dev.streamOf f c = none →
    copyWhole f c = true → s.dev.sentLen f c ≤ s.dev.egressLimit f c →
    ∃ t y, exec (.frameTransmitStart q carrier) s = .next (s.put t) ∧ (t.tx q).busy = true ∧ t.net.copies = [y] ∧
      y.id = c.id ∧ y.tx = true ∧ y.departed = s.dev.departure q) ∧
  (∀ (q : Port) (s : State) (c : Copy) (f : Frame), s.dev.sending q = some c → s.dev.frame? c.frame = some f →
    c.waiting = false → (q.val < 128 → s.dev.portEnabled q = true) →
    let b := if q.val = 132 then s.dev.finalBytes f c else padTo60 (s.dev.finalBytes f c)
    (copyWhole f c = true → copyCells f c ≤ c.front → max 64 (b.length + 4) ≤ s.dev.egressLimit f c →
      ∃ t, exec (.frameTransmitEnd q) s = .next (s.put t) ∧ (∀ x ∈ t.net.copies, x.id ≠ c.id) ∧ (t.tx q).busy = false ∧
        (q.val < 132 → t.out.getLast? = some (sentWhole q b) ∧
          t.portStat q 0x21 = (s.dev.portStat q 0x21 + 1) % 2 ^ 64) ∧
        (q.val = 132 → t.dma.rxq = s.dev.dma.rxq ++ [rxItem f c b])) ∧
    (copyWhole f c = true → copyCells f c ≤ c.front → s.dev.egressLimit f c < max 64 (b.length + 4) →
      ∃ t, exec (.frameTransmitEnd q) s = .next (s.put t) ∧ (∀ x ∈ t.net.copies, x.id ≠ c.id) ∧ (t.tx q).busy = false ∧
        t.out.getLast? = some (sentBad q c.out) ∧ t.portStat q 0x30 = (s.dev.portStat q 0x30 + 1) % 2 ^ 64) ∧
    (copyWhole f c = false ∨ c.front < copyCells f c →
      ∃ t, exec (.frameTransmitEnd q) s = .next (s.put t) ∧ (∀ x ∈ t.net.copies, x.id ≠ c.id) ∧
        t.wide .swCtUnderrun (dieOf q + 1) =
          (s.dev.wide .swCtUnderrun (dieOf q + 1) + 1) % 2 ^ Wide.swCtUnderrun.info.width)) ∧
  ∀ (p : FieldPort) (s : State) (c : Copy), s.dev.sending (128 + p) = some c → s.dev.halfDuplex (128 + p) = true →
    let n := c.attempts + 1
    (c.waiting = false → n < 16 → exec (.fpCollision p false) s = .next (s.put
      (({ s.dev.quiet with out := [.jam (128 + p)], net := { s.dev.net with draws := s.dev.net.draws + 1 } } : Dev).setCopy
        { c with attempts := n, waiting := true, backoff := Config.draw s.dev.net.draws % 2 ^ min n 10 }))) ∧
    (∀ late, c.waiting = false → late = true ∨ 16 ≤ n →
      ∃ t, exec (.fpCollision p late) s = .next (s.put t) ∧ (∀ x ∈ t.net.copies, x.id ≠ c.id) ∧
        (t.tx (128 + p)).busy = false ∧ Out.jam (128 + p) ∈ t.out ∧
        t.portStat (128 + p) (if late then 0x32 else 0x33) =
          (s.dev.portStat (128 + p) (if late then 0x32 else 0x33) + 1) % 2 ^ 64) ∧
    (∀ f, s.dev.frame? c.frame = some f → c.waiting = true →
      (∃ t y, exec (.fpBackoffExpire (p, false)) s = .next (s.put t) ∧ y ∈ t.net.copies ∧ y.id = c.id ∧ y.waiting = false ∧
        y.tx = true ∧ y.attempts = c.attempts ∧ y.departed = s.dev.departure c.port) ∧
      exec (.fpBackoffExpire (p, true)) s = .next (s.put s.dev.quiet))

/-- GATE_CONFIG_CHANGE, GATE_LIST_OPERATIONAL, GATE_ENTRY_ADVANCE and GATE_EN_WRITE (R226–R229). -/
def Obligations.GatesFollowTheirLists : Prop :=
  ∀ (q : LinePort) (s : State),
    let n := q.val / 32
    let i := q.val % 32
    let g := s.dev.gate q
    (s.dev.hostUp = true → s.dev.railOn n = true → g.pending = none →
      (∀ k, s.dev.badList q = false → s.dev.freeTimer = some k →
        let t := changeTime (s.dev.wide .egGateBase (n + 1) i)
          (max 1 (bits (s.dev.wide .egGateCycle (n + 1) i) 31 0)) (s.dev.now n)
        exec (.gateConfigChange q) s = .next (s.put ((((s.dev.quiet.bookTimer k { kind := 2, t := t, arg := q.val }).setGate q
          { g with pending := some (t, k) }).setWide .egGateChange (n + 1) i 0 t).setPd .egGateStatus_code n 2 i))) ∧
      (s.dev.badList q = true → exec (.gateConfigChange q) s = .next (s.put
        ((s.dev.quiet.setPd .egGateStatus_code n 4 i).raise n 0x0802 [(8, q.val), (3, 4)]))) ∧
      (s.dev.badList q = false → s.dev.freeTimer = none → exec (.gateConfigChange q) s = .next (s.put
        ((s.dev.quiet.setPd .egGateStatus_code n 3 i).raise n 0x0802 [(8, q.val), (3, 3)])))) ∧
    (∀ at_ k, g.pending = some (at_, k) → 0 ≤ diff64 (s.dev.now n) at_ →
      ∃ t, exec (.gateListOperational q) s = .next (s.put t) ∧ t.pd .egGateStatus_operList n i = s.dev.adminList q ∧
        t.pd .egGateStatus_code n i = 1 ∧ aget t.tm.ta k = none ∧ (t.gate q).pending = none ∧ (t.gate q).start = at_ ∧
        (t.gate q).running = s.dev.gating q ∧ ∀ p, p ≠ q.val → t.gate p = s.dev.gate p) ∧
    (g.running = true → s.dev.gating q = true →
      ∃ t k, exec (.gateEntryAdvance q) s = .next (s.put t) ∧ k = segAt (s.dev.operSegs q) (s.dev.gatePos q (s.dev.now n)) 0 ∧
        t.pd .egGateStatus_entry n i = k ∧ t.pd .egGateStatus_gates n i = (((s.dev.operSegs q)[k]?).map (·.1)).getD 0 ∧
        { s.dev.quiet with flds := t.flds } = t) ∧
    (s.dev.hostUp = true → s.dev.railOn n = true →
      (s.dev.pd .egGateCtl_gateEn n i ≠ 1 →
        ∃ t, exec (.gateEnWrite q true) s = .next (s.put t) ∧ t.pd .egGateCtl_gateEn n i = 1 ∧
          t.pd .egGateStatus_gates n i = s.dev.cfg .egGateCtl_adminGates (n + 1) i ∧ t.gate q = { g with running := false }) ∧
      ∃ t, exec (.gateEnWrite q false) s = .next (s.put t) ∧ t.pd .egGateCtl_gateEn n i = 0 ∧
        t.pd .egGateStatus_gates n i = 0xFF ∧ t.gate q = { g with running := false })

/-- MIRROR_DEFER_RELEASE and DEFERRAL_AGE_SCAN (R240). -/
def Obligations.DeferredMirrorsGo : Prop :=
  ∀ (n : Die) (m : Fin 16) (s : State) (c : Copy) (f : Frame), s.dev.frame? c.frame = some f →
    (∀ cs, s.dev.deferrals n m = c :: cs → c.port < 132 → s.dev.standsBy = false →
      s.dev.outBit .swPortStatus_discarding c.port c.tc = false → (∀ x ∈ s.dev.net.copies, x.id < s.dev.net.nextCopy) →
      s.dev.voqCells n c.slot c.port c.tc < s.dev.voqLimit n c.tc →
      ∃ t y, exec (.mirrorDeferRelease n m) s = .next (s.put t) ∧ y ∈ t.net.copies ∧ y.id = s.dev.net.nextCopy ∧
        y.frame = c.frame ∧ y.port = c.port ∧ y.tc = c.tc ∧ y.deferred = false ∧ ∀ x ∈ t.net.copies, x.id ≠ c.id) ∧
    (∀ r, s.dev.deferrals n m = [c] → (∀ k, k < 16 → k ≠ m.val → s.dev.deferrals n k = []) →
      s.dev.mirror? f.take m = some r → ageBad (s.dev.ageOf n f) r.age = true →
      ∃ t, exec (.deferralAgeScan n) s = .next (s.put t) ∧ (∀ x ∈ t.net.copies, x.id ≠ c.id) ∧
        t.wide .miCounters (n + 1) m 2 = (s.dev.wide .miCounters (n + 1) m 2 + 1) % 2 ^ Wide.miCounters.info.width)

/-! ### Forwarding tables -/

/-- LEARN_QUEUE_APPLY, SWEEPER_VISIT, FLUSH_NOTICE, FW_FLUSH_START, FW_FLUSH_COMPLETE, FW_PRP_CTL_WRITE, DUP_FORGET and
STREAM_RESET (R176, R178–R180, R182, R188, R191, R193). -/
def Obligations.EntriesAreLearnedAndSwept : Prop :=
  ∀ (n : Die) (s : State),
    (∀ r rest, (s.dev.fwOf n).queue = r :: rest → s.dev.hasStatic n (fwKey r.fid r.mac) = false →
      ∃ t, exec (.learnQueueApply n) s = .next (s.put t) ∧ (t.fwOf n).queue = rest ∧
        (∀ i, s.dev.learnedEnt n (fwKey r.fid r.mac) = none →
          (slotsOf (nBuckets s.dev.boot.sb.profile) (fwKey r.fid r.mac)).find? (s.dev.freeSlot n) = some i →
          t.entAt n i = some { mac := r.mac, fid := r.fid, dest := .port r.port, hit := true, sticky := r.sticky,
                               egressLearned := r.egress } ∧
          t.wide .fwLearnCount (n + 1) = (s.dev.wide .fwLearnCount (n + 1) + 1) % 2 ^ Wide.fwLearnCount.info.width) ∧
        (∀ i e, s.dev.learnedEnt n (fwKey r.fid r.mac) = some (i, e) →
          (e.port = r.port → t.entAt n i = some { e with hit := true, strike := false }) ∧
          (e.port ≠ r.port → e.sticky = false → t.entAt n i = some
              { mac := r.mac, fid := r.fid, dest := .port r.port, hit := true, sticky := r.sticky, egressLearned := r.egress } ∧
            t.wide .fwMove (n + 1) = (s.dev.wide .fwMove (n + 1) + 1) % 2 ^ Wide.fwMove.info.width))) ∧
    (∀ i e, s.dev.liveDie n = true → i = (s.dev.fwOf n).sweepAt → s.dev.entAt n i = some e → s.dev.badEnt n i = false →
      ∃ t, exec (.sweeperVisit n i) s = .next (s.put t) ∧ t.entAt n i =
        (if e.static then some e else if e.hit then some { e with hit := false }
         else if e.strike then none else some { e with strike := true }) ∧
        (t.fwOf n).sweepAt = (i + 1) % (4 * nBuckets s.dev.boot.sb.profile) ∧
        (e.static = false → e.hit = false → e.strike = true →
          t.wide .fwAged (n + 1) = (s.dev.wide .fwAged (n + 1) + 1) % 2 ^ Wide.fwAged.info.width)) ∧
    (∀ i, i ≠ (s.dev.fwOf n).sweepAt → exec (.sweeperVisit n i) s = .next (s.put s.dev.quiet)) ∧
    (∀ p : Nat, (s.dev.fwOf n).notices.contains p = true → ∃ t, exec (.flushNotice n p) s = .next (s.put t) ∧
      (t.fwOf n).notices = (s.dev.fwOf n).notices.erase p ∧
      (t.fwOf n).table = (s.dev.fwOf n).table.filter (fun e => e.2.static || decide (e.2.port ≠ p))) ∧
    (∀ (port : BitVec 8) (fid : BitVec 14) (byPort byFid : Bool), s.dev.hostUp = true → s.dev.railOn n = true →
      s.dev.pd .fwFlush_start n ≠ 1 →
      ∃ t k, exec (.fwFlushStart n port fid byPort byFid) s = .next (s.put t) ∧ t.pd .fwFlush_start n = 1 ∧
        (t.fwOf n).table = (s.dev.fwOf n).table.filter (fun e => e.2.static ||
          (byPort && decide (e.2.port ≠ port.toNat)) || (byFid && decide (e.2.fid ≠ fid.toNat))) ∧
        k = (s.dev.fwOf n).table.length - (t.fwOf n).table.length ∧
        (t.fwOf n).flushing = some (if byPort then port.toNat else 0xFF, if byFid then fid.toNat else 0x3FFF, k)) ∧
    (∀ p x k, (s.dev.fwOf n).flushing = some (p, x, k) → exec (.fwFlushComplete n) s = .next (s.put
      (((s.dev.quiet.setFw n { s.dev.fwOf n with flushing := none }).setPd .fwFlush_start n 0).raise n 0x0607
        [(8, p), (14, x), (23, k)]))) ∧
    (∀ (slot : Fin 32) (mode lan : Fin 4) (pair : Fin 32) (seq : BitVec 12), s.dev.hostUp = true → s.dev.railOn n = true →
      ∃ t, exec (.fwPrpCtlWrite n slot mode lan pair seq) s = .next (s.put t) ∧
        t.pd .fwPrpCtl_mode n slot = (if mode = 3 then 0 else mode.val) ∧ t.pd .fwPrpCtl_lan n slot = lan.val % 2 ∧
        t.pd .fwPrpCtl_pair n slot = pair ∧ t.pd .fwPrpCtl_seqIndex n slot = seq.toNat ∧
        t.pd .fwPrpCtl_pairErr n slot = (if t.pairs (32 * n + slot) then 0 else 1)) ∧
    (∀ src : Nat, exec (.dupForget n src) s = .next (s.put (s.dev.quiet.setFw n { s.dev.fwOf n with
      dup := (s.dev.fwOf n).dup.filter (fun e => decide (e.key ≠ src)) }))) ∧
    ∀ (id : Nat) (e : DupEnt), aget (s.dev.fwOf n).recov id = some e → exec (.streamReset n id) s = .next (s.put
      ((s.dev.quiet.setFw n { s.dev.fwOf n with recov := adel (s.dev.fwOf n).recov id }).raise n 0x060B [(14, id)]))

/-! ### Takes and placement -/

/-- TK_OPEN, TK_COMMIT, TK_ABORT (R135, R136) and COMMIT_TIMEOUT of a batch (R133); R134 for NO_TIMER. -/
def Obligations.BatchesOpenCommitAbort : Prop :=
  ∀ (at_ : Bool) (to_ : BitVec 16) (s : State),
    let d := s.dev.quiet.tkFields at_ to_.toNat
    (s.dev.hostUp = true → s.dev.inSafe .tkCtl 0 = false →
      (s.dev.cd .tkStatus_batchOpen = 0 →
        exec (.tkOpen at_ to_) s = .next (s.put (d.setCd .tkStatus_batchOpen 1)) ∧
        exec (.tkCommit at_ to_) s = .next (s.put ((d.setCd .tkStatus_code 5).irq 3)) ∧
        exec (.tkAbort at_ to_) s = .next (s.put ((d.setCd .tkStatus_code 5).irq 3))) ∧
      (s.dev.cd .tkStatus_batchOpen = 1 →
        exec (.tkOpen at_ to_) s = .next (s.put ((d.setCd .tkStatus_code 6).irq 3)) ∧
        (s.dev.tak.committing = true → exec (.tkCommit at_ to_) s = .next (s.put ((d.setCd .tkStatus_code 8).irq 3))) ∧
        (s.dev.tak.committing = false → at_ = true → s.dev.freeTimer = none →
          exec (.tkCommit at_ to_) s = .next (s.put ((d.setCd .tkStatus_code 7).irq 3))) ∧
        (s.dev.tak.committing = false → s.dev.tak.commits = [] → s.dev.follows = false → at_ = false →
          (s.dev.emptyCommit 1 = true → s.dev.queued = 0 →
            ∃ t, exec (.tkCommit at_ to_) s = .next (s.put t) ∧ t.cd .tkStatus_code = 2 ∧ t.cd .tkStatus_batchOpen = 0 ∧
              t.tak.commits = [] ∧ t.tak.committing = false) ∧
          (s.dev.emptyCommit 1 = false →
            ∃ t c, exec (.tkCommit at_ to_) s = .next (s.put t) ∧ t.tak.commits = [c] ∧ c.batch = true ∧ c.owner = 1 ∧
              c.timed = none ∧ c.ahead = s.dev.queued ∧ t.tak.committing = true ∧ t.cd .tkCtl_commit = 1 ∧
              c.step = if s.dev.queued = 0 then .active else .queued)) ∧
        (∀ k, s.dev.tak.committing = false → s.dev.tak.commits = [] → s.dev.freeTimer = some k → at_ = true →
          diff64 (s.dev.now 4 + 100000) (s.dev.wide .tkAtTime 0) < 0 →
          ∃ t c, exec (.tkCommit at_ to_) s = .next (s.put t) ∧ t.tak.commits = [c] ∧ c.step = .queued ∧
            c.timed = some (s.dev.wide .tkAtTime 0) ∧ c.entry = some k ∧
            aget t.tm.ta k = some { kind := 1, t := s.dev.wide .tkAtTime 0 }) ∧
        ((∀ c ∈ s.dev.tak.commits, c.batch = true → c.step = .queued ∨ c.step = .active) →
          ∃ t, exec (.tkAbort at_ to_) s = .next (s.put t) ∧ t.cd .tkStatus_code = 4 ∧ t.cd .tkStatus_batchOpen = 0 ∧
            t.tak.committing = false ∧ t.pendingOf 1 = 0))) ∧
    (∀ c, s.dev.commitNow = some c → c.step = .active → c.batch = true → s.dev.canSeal c = false →
      ∃ t, exec .commitTimeout s = .next (s.put t) ∧ t.cd .tkStatus_code = 3 ∧
        t.cd .tkStatus_batchOpen = s.dev.cd .tkStatus_batchOpen ∧ (∀ x ∈ t.tak.commits, x.owner ≠ c.owner) ∧
        t.tak.committing = false)

/-- COMMIT_ACTIVATE, COMMIT_SEAL, TAKE_SWITCH, COMMIT_CONFIRM (R132), TAKE_RETIRE and RECLAIM_COMPLETE (R131). -/
def Obligations.TakesAreSealedAndSwitched : Prop :=
  ∀ (s : State) (c : Commit),
    (s.dev.commitNow = none → s.dev.follows = false → s.dev.tak.commits.find? s.dev.commitReady = some c →
      c.batch = false ∨ s.dev.emptyCommit c.owner = false →
      exec .commitActivate s = .next (s.put (s.dev.quiet.setCommit { c with step := .active, n := (s.dev.curTake + 1) % 16 }))) ∧
    (s.dev.commitNow = some c → c.step = .active → s.dev.canSeal c = true →
      ∃ t y, exec .commitSeal s = .next (s.put t) ∧ y ∈ t.tak.commits ∧ y.owner = c.owner ∧ y.step = .sealed ∧ y.n = c.n ∧
        (c.timed = none → y.s = s.dev.instant 4 + 2048 * nsUnit ∧ y.late = false) ∧
        ∀ v ∈ t.versions, v.pending = true → v.owner ≠ c.owner) ∧
    (∀ n : Die, s.dev.tak.commits.find? (fun c => decide (c.step = .sealed)) = some c → s.dev.railOn n = true →
      0 ≤ instDiff (s.dev.instant n) c.s → s.dev.takeOf n ≠ c.n →
      ∃ t, exec (.takeSwitch n) s = .next (s.put t) ∧ t.takeOf n = c.n ∧
        (∀ m : Die, m ≠ n → t.takeOf m = s.dev.takeOf m) ∧
        ((∀ m ∈ s.dev.dies, m ≠ n.val → s.dev.takeOf m = c.n) → t.curTake = c.n)) ∧
    (s.dev.tak.commits.find? (fun c => decide (c.step = .switched)) = some c →
      ∃ t, exec .commitConfirm s = .next (s.put t) ∧
        t.wide .tkCommitCount 0 = (s.dev.wide .tkCommitCount 0 + 1) % 2 ^ Wide.tkCommitCount.info.width ∧
        ∀ x ∈ t.tak.commits, x.step = .switched → x.n ≠ c.n) ∧
    ∀ k : Fin 16,
      (k.val ∈ s.dev.tak.live.dropLast → (∀ n ∈ s.dev.dies, s.dev.inflight n k = 0) → s.dev.plc.again = [] →
        ∃ t, exec (.takeRetire k) s = .next (s.put t) ∧ t.tak.live = s.dev.tak.live.filter (fun x => decide (x ≠ k.val)) ∧
          t.tak.reclaim = s.dev.tak.reclaim ++ [k.val]) ∧
      (k.val ∈ s.dev.tak.reclaim → s.dev.plc.wait = none → (∀ o ∈ s.dev.plc.outq, o.redo = false) →
        ∃ t, exec (.reclaimComplete k) s = .next (s.put t) ∧
          t.tak.reclaim = s.dev.tak.reclaim.filter (fun x => decide (x ≠ k.val)) ∧
          ∀ v ∈ t.versions, ∀ u, v.until_ = some u → takeNewer u s.dev.oldest = true)

/-- What a version applies to, and what sealing a commit in take N makes of versions added and ended by it (R128). -/
def Obligations.VersionsOfATake : Prop :=
  (∀ (v : Ver) (t : Nat), v.pending = false →
    (v.applies t = true ↔ (v.from_ = none ∨ ∃ f, v.from_ = some f ∧ takeNewer f t = false) ∧
      (v.until_ = none ∨ ∃ u, v.until_ = some u ∧ takeNewer u t = true))) ∧
  (∀ (k n : Nat) (w : Ver), Ver.seal k n (Ver.begin_ k) = some w → w.from_ = some n ∧ w.until_ = none ∧ w.pending = false) ∧
  ∀ (k n : Nat) (v w : Ver), v.pending = false → v.until_ = none → Ver.seal k n (v.endBy k) = some w →
    w.until_ = some n ∧ w.from_ = v.from_ ∧ w.pending = false

/-- CL_TREE_REBUILD and TREE_STAGE_COMPLETE (R121), PL_TAIL_WRITE and PL_CTL_WRITE (R246, R419). -/
def Obligations.TreesAndTheIntentRing : Prop :=
  ∀ s : State,
    (∀ n : Die, s.dev.hostUp = true → s.dev.railOn n = true → (∀ j ∈ s.dev.plc.jobs, j.die ≠ n.val) →
      ∃ t j, exec (.clTreeRebuild n) s = .next (s.put t) ∧ j ∈ t.plc.jobs ∧ j.die = n ∧ j.full = true ∧
        t.pd .clTreeCtl_rebuild n = 1) ∧
    (∀ (n : Die) (j : TreeJob) (pct : Fin 101), s.dev.plc.jobs = [j] → j.die = n → s.dev.plc.outq = [] → j.also = [] →
      (j.full = true → j.software = true → s.dev.otherUsed false n = false → s.dev.tak.commits = [] →
        ∃ t c, exec (.treeStageComplete n .staged pct) s = .next (s.put t) ∧ t.plc.jobs = [] ∧
          t.pd .clTreeCtl_rebuild n = 0 ∧ t.tak.commits = [c] ∧ c.owner = j.owner ∧ (j.owner, n.val, pct.val) ∈ t.plc.built) ∧
      (j.full = false → ∃ t, exec (.treeStageComplete n .lacksNodes pct) s = .next (s.put t) ∧
        t.plc.jobs = [{ j with full := true }]) ∧
      ∃ t, exec (.treeStageComplete n .noFit pct) s = .next (s.put t) ∧ t.plc.jobs = [] ∧
        (j.full = true → t.pd .clTreeCtl_rebuild n = 0) ∧ t.pendingOf j.owner = 0) ∧
    (∀ v : BitVec 12, s.dev.hostUp = true → s.dev.inSafe .plTail 0 = false →
      let size := s.dev.ringSize
      let back := (v.toNat % size + size - s.dev.cd .plHead_head % size) % size < s.dev.queued
      (¬back → exec (.plTailWrite v) s = .next (s.put (s.dev.quiet.setCd .plTail_tail (v.toNat % size)))) ∧
      (back → exec (.plTailWrite v) s = .next (s.put
        ((s.dev.quiet.setCd .plStatus_tailErrSticky 1).raise 6 0x0905 [(12, s.dev.cd .plHead_head), (12, v.toNat)])))) ∧
    ∀ (enable : Bool) (log2 : Fin 16), s.dev.hostUp = true → s.dev.inSafe .plCtl 0 = false →
      ∃ t, exec (.plCtlWrite enable log2) s = .next (s.put t) ∧ t.cd .plCtl_enable = (if enable then 1 else 0) ∧
        t.cd .plCtl_ringLog2 = (if s.dev.cd .plCtl_enable = 0 ∧ s.dev.plBusy = false then clamp 4 12 log2
          else s.dev.cd .plCtl_ringLog2) ∧ { s.dev.quiet with flds := t.flds } = t

/-- INTENT_CREATE, INTENT_MODIFY, INTENT_DELETE, INTENT_ADD, INTENT_CHANGE, INTENT_REMOVE, INTENT_BIND and INTENT_WHERE (R243,
R244, R246–R248, R253). -/
def Obligations.IntentsAreStaged : Prop :=
  ∀ (h : IntentHead) (s : State), s.dev.mayRun = true → s.dev.plc.lost = false → s.dev.plc.outq = [] →
    let begun := fun v : Ver => v.pending = true ∧ v.owner = 1
    let spells := fun (op : Nat) (desc : List Byte) (payload : Option (List Byte)) (b : IntentBody) =>
      desc.length = 64 ∧ h.op = op ∧ s.dev.intentOf desc payload = ⟨h, b⟩ ∧ s.dev.checkIntent ⟨h, b⟩ = none
    let stages := fun (i : List Byte → List Byte → Bool → List Byte → Instr) (op : Nat) (b : IntentBody) (p : Dev → Prop) =>
      ∀ ask result readable bytes, spells op (ask ++ result) (payloadOf readable bytes) b →
      h.batch = true → s.dev.cd .tkStatus_batchOpen = 1 →
      (∀ j ∈ s.dev.plc.jobs, j.owner ≠ s.dev.tak.nextOwner ∧ s.dev.tak.nextOwner ∉ j.also) →
      (∃ e, s.dev.quiet.freshOwner.2.stage ⟨h, b⟩ s.dev.tak.nextOwner = .ok e []) →
      ∃ t, exec (i ask result readable bytes) s = .next (s.put t) ∧ t.cd .plStatus_lastCode = 2 ∧ t.plc.outq = [] ∧
        t.cd .plHead_head = (s.dev.cd .plHead_head % s.dev.ringSize + 1) % s.dev.ringSize ∧
        t.wide .plDoneCount 0 = (s.dev.wide .plDoneCount 0 + 1) % 2 ^ Wide.plDoneCount.info.width ∧ p t
    (∀ x rs ps, stages Instr.intentCreate 1 (.create x rs ps) (fun t =>
      ∃ o ∈ t.plc.objs, o.h = h.handle ∧ o.data = dataStore x ∧ begun o.v)) ∧
    (∀ x, stages (fun a r ok b => .intentModify (a ++ r) (payloadOf ok b)) 2 (.modify x) (fun t =>
      ∃ o ∈ t.plc.objs, o.h = h.handle ∧ o.data = dataStore x ∧ begun o.v)) ∧
    (∀ k, stages (fun a r ok b => .intentDelete (a ++ r) (payloadOf ok b)) 3 (.delete k) (fun t =>
      ∀ o ∈ t.plc.objs, o.h = h.handle → o.v.latest = false)) ∧
    (∀ k rs ps, stages Instr.intentAdd 4 (.add k rs ps) (fun t =>
      (k ≠ 3 → ∀ r ∈ rs, ∃ v ∈ t.plc.rules, v.g = h.handle ∧ v.r = r ∧ begun v.v) ∧
      (k = 3 → ∀ r ∈ ps, ∃ v ∈ t.plc.pats, v.g = h.handle ∧ v.r = r ∧ begun v.v))) ∧
    (∀ k rs ps, stages Instr.intentChange 5 (.change k rs ps) (fun t =>
      (k ≠ 3 → ∀ r ∈ rs, ∃ v ∈ t.plc.rules, v.g = h.handle ∧ v.r = r ∧ begun v.v) ∧
      (k = 3 → ∀ r ∈ ps, ∃ v ∈ t.plc.pats, v.g = h.handle ∧ v.r = r ∧ begun v.v))) ∧
    (∀ k ids, stages (fun a r => .intentRemove (a ++ r)) 6 (.remove k ids) (fun t =>
      (k ≠ 3 → ∀ v ∈ t.plc.rules, v.g = h.handle → v.r.id ∈ ids → v.v.latest = false) ∧
      (k = 3 → ∀ v ∈ t.plc.pats, v.g = h.handle → v.r.id ∈ ids → v.v.latest = false))) ∧
    (∀ slot, stages (fun a r ok b => .intentBind (a ++ r) (payloadOf ok b)) 7 (.bind slot) (fun t =>
      ∃ b ∈ t.plc.binds, b.slot = slot ∧ b.h = h.handle ∧ begun b.v)) ∧
    ∀ room addr desc readable bytes, spells 8 desc (payloadOf readable bytes) (.ask room addr) →
      ∃ t, exec (.intentWhere desc readable bytes) s = .next (s.put t) ∧ t.cd .plStatus_lastCode = 1 ∧ t.plc.outq = [] ∧
        ((s.dev.whereAll h.handle).take room ≠ [] →
          Out.hostWrite (addr % 2 ^ 64) (toBytes (((s.dev.whereAll h.handle).take room).flatMap answerBytes)) ∈ t.out)

/-- Failing intents of every OP (R247, R248), INTENT_ROOM_TIMEOUT and INTENT_RECLAIM_WAIT_1MS (R249), SEQUENCER_MOVE and
COPY_SLOT_MEASURE (R251, R252). -/
def Obligations.IntentsFailAndMovesRun : Prop :=
  (∀ (h : IntentHead) (s : State), s.dev.mayRun = true → s.dev.plc.lost = false → s.dev.plc.outq = [] →
    let fails := fun (i : List Byte → List Byte → Bool → List Byte → Instr) (op : Nat) =>
      ∀ ask result readable bytes (b : IntentBody) (x : Bad), (ask ++ result).length = 64 →
      (h.op = op ∨ h.op = 0 ∨ 8 < h.op) →
      s.dev.intentOf (ask ++ result) (payloadOf readable bytes) = ⟨h, b⟩ → s.dev.checkIntent ⟨h, b⟩ = some x →
      ∃ t, exec (i ask result readable bytes) s = .next (s.put t) ∧ t.cd .plStatus_lastCode = x.1 ∧
        t.cd .plStatus_failSticky = 1 ∧
        t.plc.outq = [] ∧ t.wide .plFailCount 0 = (s.dev.wide .plFailCount 0 + 1) % 2 ^ Wide.plFailCount.info.width ∧
        t.plc.objs = s.dev.plc.objs ∧ t.plc.rules = s.dev.plc.rules ∧ t.plc.pats = s.dev.plc.pats ∧
        t.plc.binds = s.dev.plc.binds ∧ t.plc.cam = s.dev.plc.cam ∧ t.fw = s.dev.fw
    fails Instr.intentCreate 1 ∧ fails (fun a r ok b => .intentModify (a ++ r) (payloadOf ok b)) 2 ∧
    fails (fun a r ok b => .intentDelete (a ++ r) (payloadOf ok b)) 3 ∧ fails Instr.intentAdd 4 ∧
    fails Instr.intentChange 5 ∧ fails (fun a r => .intentRemove (a ++ r)) 6 ∧
    fails (fun a r ok b => .intentBind (a ++ r) (payloadOf ok b)) 7 ∧ fails (fun a r => .intentWhere (a ++ r)) 8) ∧
  (∀ (s : State) (i : Intent), s.dev.plc.wait = some i →
    (s.dev.plc.outq = [] → ∃ t, exec .intentRoomTimeout s = .next (s.put t) ∧ t.plc.wait = none ∧
      t.cd .plStatus_lastCode = 0x1C) ∧
    exec .intentReclaimWait1ms s = .next (s.put (s.dev.quiet.raise 6 0x0902 [(32, i.head.handle), (4, s.dev.oldest)]))) ∧
  ∀ (n : Die) (h : Nat) (s : State),
    (∀ (o : ObjVer) (g : Nat) (ms : List Nat), s.dev.moveFree = true → s.dev.latestObj false h = some o → o.data = .mcast g ms →
      let planned := fun t : Dev => ∃ v ∈ t.plc.objs, v.h = h ∧ v.num = o.num ∧ v.data = .mcast g ms ∧ v.v.pending = true ∧
        v.v.owner = s.dev.tak.nextOwner ∧ aget v.plans n = some ((aget o.plans n).getD 0 + 1)
      (s.dev.moveCause (.plan n h) = true → ∃ t, exec (.sequencerMove (.plan n h)) s = .next (s.put t) ∧ planned t) ∧
      (s.dev.copyHot n h = true → ∃ t, exec (.copySlotMeasure n h) s = .next (s.put t) ∧ planned t ∧
        ∀ e ∈ t.plc.slotBytes, e.1 ≠ n)) ∧
    (s.dev.copyHot n h = false → exec (.copySlotMeasure n h) s = .next (s.put { s.dev.quiet with plc := { s.dev.plc with
      slotBytes := s.dev.plc.slotBytes.filter (fun e => decide (e.1 ≠ n.val)) } }))

/-! ### Time -/

/-- TIME_TICK (R256, R258), TM_INC_WRITE, TM_SET_WRITE, TM_ADJ_WRITE (R258, R263, R276), TIMECLK_LOSS and TIMECLK_RETURN
(R260). -/
def Obligations.TimeTicksAndSteers : Prop :=
  ∀ s : State,
    (∀ n : Isl, s.dev.ticking n = true →
      ∃ t, exec (.timeTick n) s = .next (s.put t) ∧
        (t.isl n).t = ofSigned 96 (((s.dev.isl n).t : Int) +
          ((s.dev.isl n).inc + if (s.dev.isl n).slewTicks = 0 then 0 else (s.dev.isl n).slew)) ∧
        (t.isl n).inc = (s.dev.isl n).inc ∧ (t.isl n).ticks = (s.dev.isl n).ticks + 1 ∧
        (t.isl n).slewTicks = (s.dev.isl n).slewTicks - 1 ∧ (∀ m : Isl, m ≠ n → t.isl m = s.dev.isl m) ∧
        t.net = s.dev.net ∧
        ((n.val < 4 → s.dev.pd .obPmcCtl_globalEn n = 0) → t.flds = s.dev.flds ∧
          ∀ r : Isl, t.bucket (.emission r) =
            (if r = n then min 512000 (s.dev.bucket (.emission r) + 1) else s.dev.bucket (.emission r)))) ∧
    (s.dev.hostUp = true → s.dev.cd .duStatus_role ≠ 2 →
      (∀ v : BitVec 40, exec (.tmIncWrite v) s = .next (s.put
        (let x := clamp 0x0100000000 0x0300000000 v.toNat
         ({ s.dev.quiet with tm := { s.dev.tm with incPend := some (x, s.dev.ticks 4) } }.setWide .tmInc 0 0 0 x).setCd
           .tmStatus_incPending 1))) ∧
      ∀ v : BitVec 64,
        (∃ t, exec (.tmSetWrite v) s = .next (s.put t) ∧ t.cd .tmStatus_stepPending = 1 ∧ t.tm = { s.dev.tm with
          step := some ⟨instDiff (v.toNat * nsUnit) (s.dev.instant 4), s.dev.ticks 4, false⟩ }) ∧
        ∃ t, exec (.tmAdjWrite v) s = .next (s.put t) ∧ t.cd .tmStatus_stepPending = 1 ∧ t.tm = { s.dev.tm with
          step := some ⟨v.toInt * nsUnit, s.dev.ticks 4, false⟩ }) ∧
    (s.dev.hostUp = true → s.dev.cd .duStatus_role = 2 →
      ∀ (i : BitVec 40) (v : BitVec 64) (c : Instr), c = .tmIncWrite i ∨ c = .tmSetWrite v ∨ c = .tmAdjWrite v →
        ∃ t, exec c s = .next (s.put t) ∧ t.tm = s.dev.tm ∧ t.cd .tmStatus_steerIgnoredSticky = 1 ∧
          t.cd .tmStatus_stepPending = s.dev.cd .tmStatus_stepPending) ∧
    (s.dev.cd .tmStatus_timeclkLost = 0 → exec .timeclkLoss s = .next (s.put
      (((({ s.dev.quiet with tm := { s.dev.tm with clkLostAt := s.dev.ticks 4 } }.setCd .tmStatus_timeclkLost 1).setCd
        .tmStatus_timeclkLostSticky 1).raise 6 0x0A06 []).irq 10))) ∧
    (s.dev.cd .tmStatus_timeclkLost = 1 → exec .timeclkReturn s = .next (s.put
      (((s.dev.quiet.setCd .tmStatus_timeclkLost 0).raise 6 0x0A07
        [(32, (s.dev.ticks 4 - s.dev.tm.clkLostAt) * 2 / 1000)]).irq 10)))

/-- CLAPPER_PULSE (R258, R261, R263) and CLAPPER_MISSED (R262). -/
def Obligations.ClapperCorrectsAndSteps : Prop :=
  (∀ (hear : BitVec 4) (inp : HostInput) (s : State), s.dev.boot.run = true → s.dev.tmHeld = false → s.dev.tm.ta = [] →
    s.dev.instant 4 % (2 ^ 20 * nsUnit) < (s.dev.isl 4).inc →
    ∃ t, exec (.clapperPulse hear inp) s = .next (s.put t) ∧
      (∀ v k, s.dev.tm.incPend = some (v, k) → k + 10000 ≤ s.dev.ticks 4 →
        t.tm.incPend = none ∧ t.cd .tmStatus_incPending = 0 ∧ ∀ n : Isl, (t.isl n).inc = v) ∧
      (∀ n : Die, hear.getLsbD n = true → s.dev.railOn n = true →
        t.pd .tmDieStatus_missed n = 0 ∧ (s.dev.pd .tmDieStatus_aligned n ≤ 1 → t.pd .tmDieStatus_aligned n = 1)) ∧
      (s.dev.tm.step = none → t.tm.step = none ∧ t.instant 4 = s.dev.instant 4 ∧
        ∀ n : Die, hear.getLsbD n = true → s.dev.railOn n = true →
          let e := instDiff (s.dev.instant n) (s.dev.instant 4) / 2 ^ 28
          (s.dev.pd .tmDieStatus_aligned n = 0 ∨ 1024 < e ∨ e < -1024 →
            0 ≤ instDiff (t.instant n) (t.instant 4) ∧ instDiff (t.instant n) (t.instant 4) < 2 ^ 28) ∧
          (s.dev.pd .tmDieStatus_aligned n ≠ 0 → -1024 ≤ e → e ≤ 1024 →
            t.instant n = s.dev.instant n ∧ (t.isl n).slew * 65536 = -(e * 2 ^ 28) ∧ (t.isl n).slewTicks = 65536)) ∧
      ∀ x, s.dev.tm.step = some x → x.at_ + 10000 ≤ s.dev.ticks 4 →
        t.instant 4 = ofSigned 96 ((s.dev.instant 4 : Int) + x.delta) ∧ t.tm.step = none ∧
          t.cd .tmStatus_stepPending = 0 ∧
          t.wide .tmStepCount 0 = (s.dev.wide .tmStepCount 0 + 1) % 2 ^ Wide.tmStepCount.info.width ∧
          ∀ n : Die, hear.getLsbD n = true → s.dev.railOn n = true →
            0 ≤ instDiff (t.instant n) (t.instant 4) ∧ instDiff (t.instant n) (t.instant 4) < 2 ^ 28) ∧
  ∀ (n : Die) (s : State), ∃ t, exec (.clapperMissed n) s = .next (s.put t) ∧
    t.pd .tmDieStatus_missed n = min 255 (s.dev.pd .tmDieStatus_missed n + 1) ∧
    (s.dev.pd .tmDieStatus_missed n = 1 → t.pd .tmDieStatus_aligned n = 0 ∧ bitAt (t.cd .tmStatus_aligned) n = 0) ∧
    (s.dev.pd .tmDieStatus_missed n ≠ 1 → t.pd .tmDieStatus_aligned n = s.dev.pd .tmDieStatus_aligned n ∧ t.tm = s.dev.tm)

/-- TA_ARM, TA_CANCEL (R271), TA_DISPATCH (R272) and TA_RUN (R272, R273, Table 12-6). -/
def Obligations.ActionsAreArmedAndRun : Prop :=
  (∀ (index : BitVec 8) (kind : Fin 16) (s : State), s.dev.hostUp = true → s.dev.inSafe .tmTaCtl 0 = false →
    let d := (s.dev.quiet.setCd .tmTaCtl_index index.toNat).setCd .tmTaCtl_kind kind
    let soft : Prop := 3 ≤ kind.val ∧ kind.val ≤ 7
    (¬soft → exec (.taArm index kind) s = .next (s.put (d.setCd .tmTaStatus_code 3))) ∧
    (soft → s.dev.badArg kind (s.dev.cd .tmTaArg_arg) = true →
      exec (.taArm index kind) s = .next (s.put (d.setCd .tmTaStatus_code 4))) ∧
    (soft → s.dev.badArg kind (s.dev.cd .tmTaArg_arg) = false →
      (s.dev.freeTimer = none → exec (.taArm index kind) s = .next (s.put (d.setCd .tmTaStatus_code 2))) ∧
      ∀ k, s.dev.freeTimer = some k →
        ∃ t, exec (.taArm index kind) s = .next (s.put t) ∧ t.cd .tmTaStatus_code = 1 ∧ t.cd .tmTaStatus_index = k ∧
          aget t.tm.ta k = some { kind := kind, t := s.dev.wide .tmTaTime 0, arg := s.dev.cd .tmTaArg_arg,
                                  mask := s.dev.cd .tmTaMask_mask, value := s.dev.cd .tmTaValue_value,
                                  late := decide (0 < diff64 (s.dev.now 4) (s.dev.wide .tmTaTime 0)) } ∧
          ∀ j, j ≠ k → aget t.tm.ta j = aget s.dev.tm.ta j) ∧
    ∃ t, exec (.taCancel index kind) s = .next (s.put t) ∧ t.cd .tmTaStatus_index = index.toNat ∧
      (∀ e, aget s.dev.tm.ta index.toNat = some e →
        (e.kind ≤ 2 → t.cd .tmTaStatus_code = 7 ∧ t.tm = s.dev.tm) ∧
        (3 ≤ e.kind → e.dispatched = true → t.cd .tmTaStatus_code = 6 ∧ t.tm = s.dev.tm) ∧
        (3 ≤ e.kind → e.dispatched = false → t.cd .tmTaStatus_code = 5 ∧ aget t.tm.ta index.toNat = none)) ∧
      (aget s.dev.tm.ta index.toNat = none → t.cd .tmTaStatus_code = 7 ∧ t.tm = s.dev.tm)) ∧
  ∀ (i : BitVec 8) (inp : HostInput) (s : State) (e : TaEntry), aget s.dev.tm.ta i.toNat = some e →
    (3 ≤ e.kind → e.kind ≤ 5 → e.dispatched = false → diff64 e.t (s.dev.now 4) ≤ 50000 →
      ∃ t, exec (.taDispatch i) s = .next (s.put t) ∧ aget t.tm.ta i.toNat =
        some { e with dispatched := true, late := e.late || decide (0 < diff64 (s.dev.now e.isl) e.t) }) ∧
    (s.dev.boot.run = true → s.dev.taDue i.toNat e = true →
      (e.kind ≠ 5 →
        ∃ t, exec (.taRun i inp) s = .next (s.put t) ∧ aget t.tm.ta i.toNat = none ∧
          t.wide .tmTaLateCount 0 =
            (if e.late then (s.dev.wide .tmTaLateCount 0 + 1) % 2 ^ Wide.tmTaLateCount.info.width
             else s.dev.wide .tmTaLateCount 0) ∧
          (e.kind = 6 ∨ e.kind = 7 →
            t.tm.ppsOut = if s.dev.tm.ppsMode = 2 then decide (e.kind = 6) else s.dev.tm.ppsOut) ∧
          (∀ p : LinePort, e.arg = p.val → s.dev.railOn (p / 32) = true → s.dev.portExists p = true →
            s.dev.live = true → s.dev.portSafe p = false →
            (e.kind = 3 → s.dev.boot.factory = false → s.dev.linkState p = 0 →
              t.pd .ptPortCtl_enable (p / 32) (p % 32) = 1 ∧ t.linkState p = (if s.dev.groupLit (p / 8) then 2 else 1)) ∧
            (e.kind = 4 → (s.dev.sending p).isNone = true →
              t.pd .ptPortCtl_enable (p / 32) (p % 32) = 0 ∧ t.linkState p = 0))) ∧
      (e.kind = 5 → s.dev.target 0 0 (bits e.arg 21 0) false = .reg .duCtTrim 0 0 → bits e.arg 25 22 = 0 →
        ∃ t, exec (.taRun i inp) s = .next (s.put t) ∧ aget t.tm.ta i.toNat = none ∧
          ∀ b, b < 16 → bitAt (t.cd .duCtTrim_trim) b =
            if bitAt e.mask b = 1 then bitAt e.value b else bitAt (s.dev.cd .duCtTrim_trim) b))

/-- PPS_OUT_SECOND, PPS_WIDTH_END (R274), PPS_IN_EDGE and TM_SNAP (R275, R276).  That the width is counted in the
CD's ticks of 2 ns is the model's choice (log entry 94). -/
def Obligations.PpsFollowsTheSecond : Prop :=
  ∀ s : State,
    (s.dev.boot.run = true → s.dev.instant 4 % (1000000000 * nsUnit) < (s.dev.isl 4).inc →
      let m := s.dev.cfg .tmCtl_ppsOutMode 0
      exec .ppsOutSecond s = .next (s.put { s.dev.quiet with tm := { s.dev.tm with
        ppsMode := m, ppsRose := if m = 1 then some (s.dev.ticks 4) else none
        ppsOut := if m = 1 then true else if m = 0 then false else s.dev.tm.ppsOut } })) ∧
    ((s.dev.isl 4).inc ≤ s.dev.instant 4 % (1000000000 * nsUnit) → exec .ppsOutSecond s = .next (s.put s.dev.quiet)) ∧
    (s.dev.tm.ppsMode ≠ 1 → exec .ppsWidthEnd s = .next (s.put s.dev.quiet)) ∧
    (∀ t, s.dev.tm.ppsRose = some t →
      (s.dev.ticks 4 - t < s.dev.cfg .tmCtl_ppsWidth 0 * 500 → exec .ppsWidthEnd s = .next (s.put s.dev.quiet)) ∧
      (s.dev.tm.ppsMode = 1 → s.dev.cfg .tmCtl_ppsWidth 0 * 500 ≤ s.dev.ticks 4 - t →
        exec .ppsWidthEnd s = .next (s.put { s.dev.quiet with tm := { s.dev.tm with ppsOut := false, ppsRose := none } }))) ∧
    (s.dev.cd .tmCtl_ppsInEn = 0 → exec .ppsInEdge s = .next (s.put s.dev.quiet)) ∧
    (s.dev.cd .tmCtl_ppsInEn = 1 →
      (∀ k, s.dev.tm.lastEdge = some k → (s.dev.ticks 4 - k) * 2 < 500000000 →
        exec .ppsInEdge s = .next (s.put (s.dev.quiet.bump .tmPpsInIgnored 0 0 0 1))) ∧
      ((∀ k, s.dev.tm.lastEdge = some k → 500000000 ≤ (s.dev.ticks 4 - k) * 2) →
        let stamp := s.dev.instant 4 / 2 ^ 28 * 2 ^ 28
        ∃ t, exec .ppsInEdge s = .next (s.put t) ∧ t.tm.lastEdge = some (s.dev.ticks 4) ∧
          t.wide .tmPpsInStamp 0 = stamp % 2 ^ Wide.tmPpsInStamp.info.width ∧
          t.wide .tmPpsInCount 0 = (s.dev.wide .tmPpsInCount 0 + 1) % 2 ^ Wide.tmPpsInCount.info.width ∧
          (s.dev.cd .tmCtl_snap = 1 → (∀ x, s.dev.tm.step = some x → x.snap = false) →
            t.tm.step = some ⟨snapDelta stamp, s.dev.ticks 4, true⟩ ∧ t.cd .tmStatus_stepPending = 1) ∧
          (s.dev.cd .tmCtl_snap ≠ 1 → t.tm.step = s.dev.tm.step))) ∧
    ∀ (mode : Fin 4) (inEn : Bool) (width : BitVec 20), s.dev.hostUp = true → s.dev.inSafe .tmCtl 0 = false →
      ∃ t, exec (.tmSnap mode inEn width) s = .next (s.put t) ∧
        t.cd .tmCtl_ppsOutMode = (if mode = 3 then 0 else mode.val) ∧ t.cd .tmCtl_ppsInEn = inEn.toNat ∧
        t.cd .tmCtl_ppsWidth = clamp 1 500000 width.toNat ∧
        t.cd .tmCtl_snap = (if s.dev.cd .duStatus_role = 2 then s.dev.cd .tmCtl_snap else 1)

/-! ### Fabric lanes -/

/-- LANE_PARK_WINDOW (R282), LANE_EXIT_END, LANE_LONG_EXIT_END (R283) and DRIFT_CHECK (R284, R286). -/
def Obligations.LanesRestAndWake : Prop :=
  ∀ (a b : Die) (s : State), s.dev.link a b = true →
    (∃ t, exec (.laneParkWindow a b) s = .next (s.put t) ∧ (∀ k, t.laneState a b k = s.dev.laneState a b k) ∧
      (s.dev.idleEligible a b = true →
        s.dev.cfg .fbLinkCtl_entryUs (a + 1) b * 500 ≤ s.dev.ticks a - sumOf s.dev.fab.lastWake a b →
        t.awake a b = (s.dev.awake a b).take (max (s.dev.cfg .fbLinkCtl_minAwake (a + 1) b) ((s.dev.sentIn a b + 74) / 75))) ∧
      (s.dev.idleEligible a b = false → t.awake a b = s.dev.awake a b) ∧ t.sentIn a b = 0) ∧
    ∀ (k : Fin 48) (margin : Byte), s.dev.laneState a b k = 0 →
      (s.dev.laneIdle a b k = 2 →
        (apart margin.toNat (s.dev.pd .lnTestStatus_baseline b k (1 + a)) ≤ s.dev.cfg .fbCtl_exitSteps (b + 1) →
          exec (.laneExitEnd a b k margin) s = .next (s.put
            (((s.dev.quiet.setPd .lnTestStatus_margin b margin.toNat k (1 + a)).setPd .fbLaneStatus_txIdle a 0 k b).takeUp
              a b k))) ∧
        (s.dev.cfg .fbCtl_exitSteps (b + 1) < apart margin.toNat (s.dev.pd .lnTestStatus_baseline b k (1 + a)) →
          ∃ t, exec (.laneExitEnd a b k margin) s = .next (s.put t) ∧ t.laneIdle a b k = 3 ∧
            t.wide .fbLongExits (a + 1) k b =
              (s.dev.wide .fbLongExits (a + 1) k b + 1) % 2 ^ Wide.fbLongExits.info.width ∧
            t.pd .fbLinkStatus_longExitSticky a b = 1)) ∧
      (s.dev.laneIdle a b k = 3 →
        (s.dev.cfg .fbCtl_minMargin (b + 1) ≤ margin.toNat →
          exec (.laneLongExitEnd a b k margin) s = .next (s.put
            (((s.dev.quiet.setPd .lnTestStatus_margin b margin.toNat k (1 + a)).setPd .fbLaneStatus_txIdle a 0 k b).takeUp
              a b k))) ∧
        (margin.toNat < s.dev.cfg .fbCtl_minMargin (b + 1) → (s.dev.pairX a b k).history = [] →
          s.dev.outAsked a b k = false → (s.dev.laneX a b k).noted = false →
          ∃ t, exec (.laneLongExitEnd a b k margin) s = .next (s.put t) ∧ t.laneState a b k = 2 ∧
            t.pd .fbLaneStatus_lastCause a k b = 4)) ∧
      (s.dev.laneIdle b a k = 0 →
        let low := margin.toNat + s.dev.cfg .fbCtl_driftSteps (a + 1) < s.dev.pd .lnTestStatus_baseline a k (1 + b)
        ∃ t, exec (.driftCheck (islOf a) [(b, k, margin)]) s = .next (s.put t) ∧
          t.pd .lnTestStatus_margin a k (1 + b) = margin.toNat ∧
          (¬low → t.laneState a b k = 0 ∧ (t.laneX a b k).strikes = 0) ∧
          (low → (s.dev.laneX a b k).strikes = 0 → t.laneState a b k = 0 ∧ (t.laneX a b k).strikes = 1) ∧
          (low → 1 ≤ (s.dev.laneX a b k).strikes → s.dev.outCount a b < 4 →
            t.laneState a b k = 1 ∧ (s.dev.laneState b a k = 0 → (t.pairX a b k).cause = 1 ∧ (t.pairX a b k).next = 2)))

/-- LANE_LOCK_LOST, LANE_PEER_NOTICE, LANE_DRAIN_COMPLETE, LANE_CALIBRATION_DONE, LANE_QUALIFY_DONE, FB_LANE_OUT and
FB_LANE_CALIBRATE (Table 13-1, R279–R281, R285, R286, R291). -/
def Obligations.LanesLeaveAndReturn : Prop :=
  ∀ (a b : Die) (k : Fin 48) (s : State), s.dev.link a b = true → (s.dev.pairX a b k).history = [] →
    let pair := fun (t : Dev) (v : Nat) => t.laneState a b k = v ∧ t.laneState b a k = v
    let first := (s.dev.laneX a b k).noted = false
    (s.dev.laneState a b k ≤ 1 → ∃ t, exec (.laneLockLost a b k) s = .next (s.put t) ∧
      t.laneState a b k = (if s.dev.outAsked a b k then 5
        else if s.dev.laneState a b k = 1 then (s.dev.pairX a b k).next else 2) ∧
      (first → t.pd .fbLaneStatus_lastCause a k b = 3) ∧ t.laneState b a k = s.dev.laneState b a k) ∧
    (s.dev.laneState a b k = 0 → s.dev.laneState b a k ≠ 0 →
      ∃ t, exec (.lanePeerNotice a b k) s = .next (s.put t) ∧ t.laneState a b k = s.dev.laneState b a k ∧
        (first → t.pd .fbLaneStatus_lastCause a k b = (s.dev.pairX a b k).cause)) ∧
    (s.dev.laneState a b k = 1 → s.dev.onLane a b k = [] → (s.dev.laneState b a k = 1 → s.dev.onLane b a k = []) →
      ∃ t, exec (.laneDrainComplete a b k) s = .next (s.put t) ∧ pair t (s.dev.pairX a b k).next) ∧
    (∀ ma mb : Byte,
      let good := s.dev.cfg .fbCtl_minMargin (a + 1) ≤ ma.toNat ∧ s.dev.cfg .fbCtl_minMargin (b + 1) ≤ mb.toNat
      (s.dev.laneState a b k = 2 → ∃ t, exec (.laneCalibrationDone a b k ma mb) s = .next (s.put t) ∧
        (good → pair t 3) ∧ (¬good → pair t 6)) ∧
      (s.dev.laneState a b k = 3 → ∀ err, ∃ t, exec (.laneQualifyDone a b k ma mb err) s = .next (s.put t) ∧
        (good → err = false → (s.dev.pairX a b k).waiting = none → pair t 0 ∧
          t.pd .lnTestStatus_baseline a k (1 + b) = ma.toNat ∧ t.pd .lnTestStatus_baseline b k (1 + a) = mb.toNat ∧
          t.laneIdle a b k = 0 ∧ t.laneIdle b a k = 0) ∧
        (¬good ∨ err = true → pair t 6))) ∧
    (s.dev.hostUp = true →
      (∃ t, exec (.fbLaneOut a b k true) s = .next (s.put t) ∧ t.pd .fbLaneCtl_out a k b = 1 ∧
        (s.dev.laneState a b k = 0 → t.laneState a b k = 1 ∧ (t.pairX a b k).next = 5 ∧
          (s.dev.laneState b a k = 0 → (t.pairX a b k).cause = 7)) ∧
        (s.dev.laneState a b k ∉ [0, 1, 5] → pair t 5)) ∧
      (∃ t, exec (.fbLaneOut a b k false) s = .next (s.put t) ∧ t.pd .fbLaneCtl_out a k b = 0 ∧
        (s.dev.laneState a b k = 5 ∨ s.dev.laneState a b k = 6 → s.dev.pd .fbLaneCtl_out a k b = 1 →
          s.dev.cfg .fbLaneCtl_out (b + 1) k a = 0 → s.dev.inSafe .fbLaneCtl (a + 1) k b = false → pair t 2)) ∧
      (s.dev.mayTake a b k = true → ∃ t, exec (.fbLaneCalibrate a b k) s = .next (s.put t) ∧ t.laneState a b k = 1 ∧
        t.pd .fbLaneCtl_calibrate a k b = 1 ∧ (t.pairX a b k).cause = 6 ∧ (t.pairX a b k).next = 2) ∧
      (s.dev.laneState a b k = 6 → ∃ t, exec (.fbLaneCalibrate a b k) s = .next (s.put t) ∧ pair t 2 ∧
        t.pd .fbLaneCtl_calibrate a k b = 1) ∧
      (s.dev.mayTake a b k = false → s.dev.laneState a b k ≠ 6 →
        exec (.fbLaneCalibrate a b k) s = .next (s.put (s.dev.quiet.setPd .lnTestStatus_code a 2 k (1 + b)))))

/-! ### Duo -/

/-- DUO_EVAL, CLAIM_CHECK, INIT_TIMEOUT, DU_CLAIM and DU_RELEASE (R296, R301, R302, R305–R307). -/
def Obligations.RolesAreClaimedAndLost : Prop :=
  ∀ s : State, s.dev.isDuo = true →
    let x := s.dev.duo
    (x.beat = none →
      (s.dev.role = 2 → 7 ≤ x.peerEdge → s.dev.claimable = true → ∀ own,
        (x.held < s.dev.claimHold → ∃ t, exec (.duoEval false own) s = .next (s.put t) ∧ t.role = 2 ∧
          t.duo.held = x.held + 1 ∧ t.duo.drive = x.drive) ∧
        (s.dev.claimHold ≤ x.held → ∃ t, exec (.duoEval false own) s = .next (s.put t) ∧ t.role = 3 ∧
          t.duo.drive = true ∧ t.duo.checking = true)) ∧
      (s.dev.role = 3 → 7 ≤ x.peerEdge → x.checking = false →
        (∃ t, exec (.duoEval false true) s = .next (s.put t) ∧ t.role = 3 ∧ t.duo.forwarding = true ∧ t.duo.badFor = 0) ∧
        (7 ≤ x.ownEdge → 20 ≤ x.badFor → ∃ t, exec (.duoEval false false) s = .next (s.put t) ∧ t.role = 4 ∧
          t.cd .duStatus_faultCause = 3 ∧ t.duo.drive = false ∧ t.duo.forwarding = false))) ∧
    (s.dev.role = 3 → x.contended = false → x.badFor < 20 → ∀ own,
      ∃ t, exec (.duoEval true own) s = .next (s.put t) ∧ t.cd .duStatus_contentionSticky = 1 ∧ t.duo.forwarding = false ∧
        t.cd .obFatal_cause = 4 ∧ t.role = (if s.dev.cd .duStatus_unit = 1 then 2 else 3)) ∧
    (s.dev.role = 3 → s.dev.cd .duStatus_unit ≠ 1 → x.checking = false → x.beat = none → 7 ≤ x.ownEdge → 20 ≤ x.badFor →
      ∃ t, exec (.duoEval true false) s = .next (s.put t) ∧ t.role = 4 ∧ t.cd .duStatus_faultCause = 3) ∧
    (x.checking = true →
      (∃ t, exec (.claimCheck true) s = .next (s.put t) ∧ t.duo.checking = false ∧ t.duo.forwarding = !x.contended ∧
        t.wide .duTakeoverCount 0 = (s.dev.wide .duTakeoverCount 0 + 1) % 2 ^ Wide.duTakeoverCount.info.width ∧
        t.wide .duLastTakeover 0 = s.dev.now 4 % 2 ^ Wide.duLastTakeover.info.width) ∧
      (x.returned = false → ∃ t, exec (.claimCheck false) s = .next (s.put t) ∧ t.role = 4 ∧
        t.cd .duStatus_faultCause = 4)) ∧
    (s.dev.role = 1 → ∃ t, exec .initTimeout s = .next (s.put t) ∧ t.role = 2 ∧ t.duo = x ∧ t.tm = s.dev.tm) ∧
    (s.dev.hostUp = true → s.dev.inSafe .duCtl 0 = false →
      (s.dev.role ≠ 3 → Duo.peerClaim x = false → exec .duClaim s = .next (s.put (s.dev.quiet.setCd .duCtl_claim 1))) ∧
      (s.dev.role = 3 ∨ Duo.peerClaim x = true → exec .duClaim s = .next (s.put s.dev.quiet)) ∧
      (s.dev.role ≠ 3 → exec .duRelease s = .next (s.put (s.dev.quiet.setCd .duCtl_claim 0))) ∧
      (s.dev.role = 3 → ∃ t, exec .duRelease s = .next (s.put t) ∧ t.role = 2 ∧ t.duo.drive = false ∧
        t.duo.forwarding = false ∧ t.duo.eligBlock = 1000 ∧ t.cd .duCtl_claim = 0 ∧
        t.duo.releases = 2 ∧ t.duo.sendSeq = (x.sendSeq + 1) % 2 ^ 16))

/-- HW_WDOG_EXPIRE, SW_WDOG_EXPIRE, HEALTH_BEACON, DU_FEED and DU_CLEAR_FAULT (R298). -/
def Obligations.WatchdogsFaultTheUnit : Prop :=
  ∀ (k : Fin 7) (s : State),
    let x := s.dev.duo
    (s.dev.isDuo = true → s.dev.boot.applied = true → s.dev.role ≠ 4 →
      (s.dev.beaconSource k = true → ∃ t, exec (.hwWdogExpire k) s = .next (s.put t) ∧ t.role = 4 ∧
        t.cd .duStatus_faultCause = 1 ∧ k.val ∈ t.duo.silent ∧ t.duo.forwarding = false ∧ t.duo.drive = false) ∧
      (s.dev.cfg .duCtl_swWdogMs 0 ≠ 0 → ∃ t, exec .swWdogExpire s = .next (s.put t) ∧ t.role = 4 ∧
        t.cd .duStatus_faultCause = 2 ∧ t.duo.swSilent = true)) ∧
    (s.dev.role ≠ 4 → exec (.healthBeacon k) s = .next (s.put { s.dev.quiet with duo := { x with
      silent := x.silent.filter (fun y => decide (y ≠ k.val)) } })) ∧
    (s.dev.hostUp = true →
      (s.dev.role ≠ 4 → exec .duFeed s = .next (s.put { s.dev.quiet with duo := { x with swSilent := false } }) ∧
        exec .duClearFault s = .next (s.put s.dev.quiet)) ∧
      (s.dev.role = 4 → x.silent = [] → x.swSilent = false → ∃ t, exec .duClearFault s = .next (s.put t) ∧ t.role = 2 ∧
        t.cd .duStatus_faultCause = 0 ∧ t.duo.clearAsked = false) ∧
      (s.dev.role = 4 → x.silent ≠ [] → exec .duClearFault s = .next (s.put { s.dev.quiet with duo := { x with
        clearAsked := true } })) ∧
      (s.dev.role = 4 → x.silent = [] → x.clearAsked = true → ∃ t, exec .duFeed s = .next (s.put t) ∧ t.role = 2 ∧
        t.cd .duStatus_faultCause = 0)) ∧
    (s.dev.role = 4 → x.clearAsked = true → x.swSilent = false → (∀ y ∈ x.silent, y = k.val) →
      ∃ t, exec (.healthBeacon k) s = .next (s.put t) ∧ t.role = 2 ∧ t.cd .duStatus_faultCause = 0)

/-- HEARTBEAT_SEND, the five messages received (R303, R304, R308, R310), CT_LANE_LOCK_LOST, CT_LINK_LOST and CT_LINK_UP
(R303). -/
def Obligations.MessagesCrossTheLink : Prop :=
  ∀ s : State, s.dev.isDuo = true →
    let x := s.dev.duo
    (∃ t, exec .heartbeatSend s = .next (s.put t) ∧ t.duo = { x with sendSeq := (x.sendSeq + 1) % 2 ^ 16 } ∧
      ∀ k : Fin 4, bitAt (s.dev.cd .duStatus_ctLanes) k = 1 → Out.ctMsg k 1 [x.sendSeq, s.dev.role, b2n s.dev.claimable,
        b2n (Duo.peerClaim x), b2n (Duo.claimGood x), s.dev.cd .duStatus_faultCause, s.dev.curTake,
        s.dev.wide .duCommitCount 0] ∈ t.out) ∧
    (∀ (lane : Fin 4) (seq : BitVec 16), bitAt (s.dev.cd .duStatus_ctLanes) lane = 1 →
      let taken := s.dev.quiet.setDuo { x with seqs := aset x.seqs 1 seq.toNat }
      let fresh := fun kind => aget x.seqs kind ≠ some seq.toNat
      (∀ (role cause : Fin 5) (elig sees good : Bool) (take : Fin 16) (commits : BitVec 64),
        let i := fun ok => Instr.heartbeatReceive lane seq ok role elig sees good cause take commits
        exec (i false) s = .next (s.put (s.dev.quiet.bump .duCtBadMsg 0 0 0 1)) ∧
        (aget x.seqs 1 = some seq.toNat → exec (i true) s = .next (s.put s.dev.quiet)) ∧
        (fresh 1 → exec (i true) s = .next (s.put (((taken.setDuo { taken.duo with
          prevRole := x.beat.map (·.role), beat := some ⟨role, elig, sees, good, cause, take, commits.toNat⟩, beatAge := 0,
          blind := x.blind && decide (role.val = 3) }).setCd .duStatus_peerSeesClaim (b2n sees)).setCd .duStatus_peerRole
            role)))) ∧
      (∀ (t1 : BitVec 96) (echo : Option (BitVec 96 × BitVec 96)), fresh 2 →
        ∃ t, exec (.timeMsgReceive lane seq true t1 echo) s = .next (s.put t) ∧
          t.duo.peerTime = some (t1.toNat, s.dev.instant 4) ∧ (echo = none ∨ s.dev.role ≠ 2 ∨ x.beat.map (·.role) ≠ some 3 →
            t.tm = s.dev.tm) ∧
          ∀ e, echo = some e → s.dev.role = 2 → x.beat.map (·.role) = some 3 →
            let off := ctOffset (sixteenths t1.toNat) (sixteenths (s.dev.instant 4)) (sixteenths e.1.toNat)
              (sixteenths e.2.toNat) (toSigned 16 (s.dev.cfg .duCtTrim_trim 0))
            t.wide .duTimeOffset 0 = ofSigned 64 off % 2 ^ Wide.duTimeOffset.info.width ∧
            (16000 < off ∨ off < -16000 → t.tm.step = some ⟨-(off * 2 ^ 28), s.dev.ticks 4, false⟩) ∧
            (-16000 ≤ off → off ≤ 16000 → t.tm.step = s.dev.tm.step ∧ t.cd .tmStatus_incPending = 1)) ∧
      (∀ (take : Fin 16) (at_ count : BitVec 64), fresh 3 →
        ∃ t, exec (.takeMsgReceive lane seq true take at_ count) s = .next (s.put t) ∧
          (s.dev.role = 2 → t.wide .duPeerCommitCount 0 = count.toNat % 2 ^ Wide.duPeerCommitCount.info.width) ∧
          (s.dev.role ≠ 2 → t = s.dev.quiet.setDuo { x with seqs := aset x.seqs 3 seq.toNat })) ∧
      (fresh 4 → s.dev.role = 3 → s.dev.tak.commits = [] →
        ∃ t, exec (.takeRequestReceive lane seq true) s = .next (s.put t) ∧
          t.tak.commits = [{ owner := s.dev.tak.nextOwner, step := .active, n := (s.dev.curTake + 1) % 16 }]) ∧
      (fresh 5 → exec (.releaseMsgReceive lane seq true) s = .next (s.put (s.dev.quiet.setDuo { x with
        seqs := aset x.seqs 5 seq.toNat, peerHeld := true })))) ∧
    (∀ k : Fin 4, bitAt (s.dev.cd .duStatus_ctLanes) k = 1 → s.dev.cd .duStatus_ctLanes < 16 →
      ∃ t, exec (.ctLaneLockLost k) s = .next (s.put t) ∧ bitAt (t.cd .duStatus_ctLanes) k = 0 ∧
        (∀ j : Fin 4, j ≠ k → bitAt (t.cd .duStatus_ctLanes) j = bitAt (s.dev.cd .duStatus_ctLanes) j) ∧
        (s.dev.cd .duStatus_ctLanes = 2 ^ k.val → t.duo.lossTimer = true)) ∧
    (s.dev.cd .duStatus_ctUp = 1 → x.lossTimer = true →
      ∃ t, exec .ctLinkLost s = .next (s.put t) ∧ t.cd .duStatus_ctUp = 0 ∧ t.cd .duStatus_ctLostSticky = 1 ∧
        t.cd .duStatus_timeLocked = 0 ∧ t.duo.lossTimer = false) ∧
    ∀ k : Fin 4, ∃ t, exec (.ctLinkUp k) s = .next (s.put t) ∧ bitAt (t.cd .duStatus_ctLanes) k = 1 ∧
      t.cd .duStatus_ctUp = 1 ∧ t.duo.lossTimer = false

/-! ### Host interface -/

/-- REGISTER_WRITE (R33, R339–R341, R348, R349), RC_READ, ERRLOG_CLEAR and IRQ_ENABLE_WRITE (R352). -/
def Obligations.RegistersAreReadAndWritten : Prop :=
  ∀ (alias_ : Fin 4) (w : Fin 8) (off : BitVec 22) (data : BitVec 64) (inp : HostInput) (s : State), s.dev.hostUp = true →
    let a : BitVec 28 := BitVec.ofNat 28 (barOffset alias_ w off.toNat)
    (∀ r i j, off.toNat % 4 = 0 → s.dev.winPowered w = true → regAt w off.toNat = some (r, i, j) →
      (r ∈ [Reg.clPortCtl, .swPortCtl, .swAgeLimit, .egWeight, .poStorm, .fbLinkCtl, .tmTaArg, .obBwCtl, .duCtTrim] →
        s.dev.ghost r w i = false → s.dev.inSafe r w i j = false →
        ∃ t, exec (.registerWrite a data .dword inp) s = .next (s.put t) ∧
          { s.dev.quiet with flds := t.flds, obs := { s.dev.obs with bwOld := t.obs.bwOld } } = t ∧
          (r ≠ .obBwCtl → t.obs = s.dev.obs) ∧
          (∀ f ∈ r.flds, f.info.acc = .rw →
            t.fld f w i j = f.store (aliasOp alias_ (s.dev.fld f w i j) (bits data.toNat f.info.hi f.info.lo))) ∧
          ∀ f x y z, (f ∉ r.flds ∨ (x, y, z) ≠ (w.val, i, j)) → t.fld f x y z = s.dev.fld f x y z) ∧
      (alias_ = 0 → r.mailbox = false →
        ∃ t, exec (.rcRead a .dword) s = .next (s.put t) ∧ t.readData = some (s.dev.regWord r w i j))) ∧
    (s.dev.winPowered w = false →
      (off.toNat % 4 = 0 → s.dev.errlog.length < 16 →
        ∃ t, exec (.registerWrite a data .dword inp) s = .next (s.put t) ∧ t.errlog = s.dev.errlog ++
          [⟨barOffset alias_ w off.toNat, 2, data.toNat % 2 ^ 32, 0, 0, s.dev.now 4 % 2 ^ 48⟩] ∧
          (∀ f x y z, ¬evFld f → t.fld f x y z = s.dev.fld f x y z) ∧
          ∀ v x y z, ¬evWide v → t.wide v x y z = s.dev.wide v x y z) ∧
      exec (.rcRead a .dword) s = .next (s.put (s.dev.quiet.bump .hiReadAbort 0 0 0 1))) ∧
    (s.dev.errlog.length < 16 →
      ∃ t, exec (.registerWrite a data .other inp) s = .next (s.put t) ∧ t.errlog = s.dev.errlog ++
        [⟨barOffset alias_ w off.toNat, 7, data.toNat % 2 ^ 32, 0, 0, s.dev.now 4 % 2 ^ 48⟩]) ∧
    exec .errlogClear s = .next (s.put { s.dev.quiet with errlog := [] }) ∧
    (s.dev.inSafe .hiIrqEnableHi 0 = false → ∀ v : BitVec 32, exec (.irqEnableWrite true v) s =
      .next (s.put (s.dev.quiet.setCd .hiIrqEnableHi_enable v.toNat))) ∧
    (s.dev.inSafe .hiIrqEnableLo 0 = false → ∀ v : BitVec 32,
      ∃ t, exec (.irqEnableWrite false v) s = .next (s.put t) ∧ t.cd .hiIrqEnableLo_enable = v.toNat ∧
        ∀ k : Fin 32, bitAt v.toNat k = 1 → bitAt (s.dev.cd .hiIrqEnableLo_enable) k = 0 →
          bitAt (s.dev.cd .hiIrqCauseLo_cause) k = 1 → s.dev.cd .msixTable_dword (4 * k + 3) % 2 = 0 →
          Out.msix k ∈ t.out)

/-- WMB_READ (R345), WMB_WRITE (R346, R347) and WMB_D3_READ (R345). -/
def Obligations.MailboxesMoveWideValues : Prop :=
  ∀ (w : Fin 8) (s : State), s.dev.hostUp = true → s.dev.winPowered w = true →
    let wr : Fin 16 := ⟨w.val, by omega⟩
    let sel := s.dev.fld .wmbSel_selector w
    let part := s.dev.fld .wmbSel_part w
    (∀ x i j, wideAt w sel = some (x, i, j) →
      (part = 0 → ∃ t y, exec (.wmbRead wr) s = .next (s.put t) ∧ aget t.snaps w = some y ∧ y.sel = sel ∧
        y.width = x.info.width ∧
        y.value = (s.dev.setFld .wmbCtl_valid w 0 0 0).wideNow x w i j % 2 ^ x.info.width ∧
        t.fld .wmbCtl_valid w = 1 ∧ t.fld .wmbCtl_code w = 1 ∧
        ∀ k : Fin 4, t.fld .wmbD_data w k = y.value / 2 ^ (32 * k.val) % 2 ^ 32) ∧
      (∀ y, part ≠ 0 → 128 * part < x.info.width → aget s.dev.snaps w = some y →
        ∃ t, exec (.wmbRead wr) s = .next (s.put t) ∧
          (y.sel = sel → t.fld .wmbCtl_valid w = 1 ∧ t.fld .wmbCtl_code w = 1 ∧
            ∀ k : Fin 4, t.fld .wmbD_data w k = y.value / 2 ^ (128 * part + 32 * k.val) % 2 ^ 32) ∧
          (y.sel ≠ sel → t.fld .wmbCtl_valid w = 0 ∧ t.fld .wmbCtl_code w = 6)) ∧
      (x ∈ [Wide.tmTaTime, .tkAtTime, .dmDescAddr, .scInAddr, .scOutAddr, .scOutLen, .imWriteSrc] → part = 0 →
        ∃ t, exec (.wmbWrite wr) s = .next (s.put t) ∧ t.wide x w i j = s.dev.mailData w % 2 ^ x.info.width ∧
          t.fld .wmbCtl_code w = 1 ∧ t.fld .wmbCtl_valid w = 0) ∧
      (s.dev.wideReadOnly x w i = true → s.dev.errlog.length < 16 →
        ∃ t, exec (.wmbWrite wr) s = .next (s.put t) ∧ t.fld .wmbCtl_code w = 3 ∧ t.fld .wmbCtl_valid w = 0 ∧
          t.wide x w i j = s.dev.wide x w i j)) ∧
    (wideAt w sel = none → s.dev.errlog.length < 16 →
      ∃ t e, exec (.wmbRead wr) s = .next (s.put t) ∧ t.fld .wmbCtl_valid w = 0 ∧ t.fld .wmbCtl_code w = 2 ∧
        t.errlog = s.dev.errlog ++ [e] ∧ e.type = 8) ∧
    ∃ t, exec (.wmbD3Read wr) s = .next (s.put t) ∧ t.readData = some (s.dev.fld .wmbD_data w 3 % 2 ^ 32) ∧
      t.fld .wmbCtl_valid w = 0

/-! ### DMA engine -/

/-- DM_START (R356), DM_DESC_FETCH_DONE (R359, R360), DM_ACCESS_COMPLETE (R357, R360, R364), DM_ACCESS_FAIL,
DM_HOST_READ_TIMEOUT and DM_RETRY (R361, R362), and DM_ABORT (R363). -/
def Obligations.ChannelsMoveData : Prop :=
  ∀ (k : Fin 16) (s : State),
    let c := s.dev.chan k
    (∀ (irq : Bool) (limit : Fin 8), s.dev.hostUp = true → s.dev.inSafe .dmChCtl 0 k = false →
      let fields := fun t : Dev => t.cd .dmChCtl_irq k = irq.toNat ∧ t.cd .dmChCtl_retryLimit k = limit
      (s.dev.chRuns k = false →
        (∃ t, exec (.dmStart k irq limit) s = .next (s.put t) ∧ fields t ∧ t.chState k = 1 ∧ t.chan k = {} ∧
          t.cd .dmChStatus_code k = 0) ∧
        ∃ t, exec (.dmAbort k irq limit) s = .next (s.put t) ∧ fields t ∧ t.chState k = s.dev.chState k ∧
          t.chan k = c) ∧
      (s.dev.chRuns k = true →
        (∃ t, exec (.dmStart k irq limit) s = .next (s.put t) ∧ fields t ∧ t.chState k = s.dev.chState k ∧ t.chan k = c) ∧
        ∃ t, exec (.dmAbort k irq limit) s = .next (s.put t) ∧ fields t ∧ t.chState k = 4 ∧ t.cd .dmChStatus_code k = 4 ∧
          t.cd .dmChIndex_i0 k = (dmIndex c.desc c.done).1 ∧ t.cd .dmChIndex_i1 k = (dmIndex c.desc c.done).2.1 ∧
          t.cd .dmChIndex2_i2 k = (dmIndex c.desc c.done).2.2)) ∧
    (∀ b : List Byte, s.dev.chState k = 1 → c.fail = none →
      let x := readChan b
      ∃ t, exec (.dmDescFetchDone k b) s = .next (s.put t) ∧
      (dmBad x = true → t.chState k = 4 ∧ t.cd .dmChStatus_code k = 5) ∧
      (dmBad x = false → t.chState k = 2 ∧ t.chan k = { desc := x, strict := dmOverlaps x } ∧
        t.cd .dmChStatus_overlap k = (dmOverlaps x).toNat)) ∧
    (s.dev.chState k = 2 → c.fail = none →
      (∀ (data : List Byte) (inp : HostInput), DmChan.reads c = true → dmSrcDev c.desc = false →
        data.length = dmSize c.desc →
        ∃ t, exec (.dmAccessComplete k data inp) s = .next (s.put t) ∧ t.out = [.hostRead (dmSrcAt c.desc c.read)
          (dmSize c.desc)] ∧ t.chan k = { c with read := c.read + 1, part := [], buf := c.buf ++ [data] } ∧
          ∀ j : Fin 16, j ≠ k → t.chan j = s.dev.chan j) ∧
      (∀ (data : List Byte) (inp : HostInput) (b : List Byte) (rest : List (List Byte)), DmChan.reads c = false →
        dmDstDev c.desc = false → c.buf = b :: rest →
        ∃ t, exec (.dmAccessComplete k data inp) s = .next (s.put t) ∧ Out.hostWrite (dmDstAt c.desc c.done) b ∈ t.out ∧
          t.wide .dmBytes 0 k = (s.dev.wide .dmBytes 0 k + dmSize c.desc) % 2 ^ Wide.dmBytes.info.width ∧
          (c.done + 1 < dmTotal c.desc → t.chState k = 2 ∧
            t.chan k = { c with buf := rest, made := 0, done := c.done + 1 }) ∧
          (dmTotal c.desc ≤ c.done + 1 → t.chState k = 3 ∧ t.cd .dmChStatus_code k = 1)) ∧
      (∀ (how : Fin 3) (inp : HostInput) (i : Instr) (type : Nat), DmChan.reads c = true → dmSrcDev c.desc = false →
        c.buf = [] → (i = .dmAccessFail k how inp ∧ type = 0xA + how.val) ∨ (i = .dmHostReadTimeout k inp ∧ type = 0xD) →
        ∃ t, exec i s = .next (s.put t) ∧ t.cd .dmChStatus_failType k = type ∧
          t.wide .dmFailAddr 0 k = dmSrcAt c.desc c.read % 2 ^ Wide.dmFailAddr.info.width ∧
          (0 < s.dev.cfg .dmChCtl_retryLimit 0 k → t.chState k = 2 ∧ t.chan k = { c with
            fail := some { write := false, device := false, type := type, addr := dmSrcAt c.desc c.read } }) ∧
          (s.dev.cfg .dmChCtl_retryLimit 0 k = 0 → t.chState k = 4 ∧ t.cd .dmChStatus_code k = 2))) ∧
    ∀ x : DmFail, c.fail = some x → x.waiting = true → ∃ t, exec (.dmRetry k) s = .next (s.put t) ∧
      t.chan k = { c with fail := some { x with retries := x.retries + 1, waiting := false } } ∧
      { s.dev.quiet with dma := t.dma } = t

/-- DM_RING_CTL_WRITE (R419), DM_TX_TAIL_WRITE, DM_TX_FRAME (R365, R366), DM_RX_TAIL_WRITE and DM_RX_RECORD (R367). -/
def Obligations.RingsMoveFrames : Prop :=
  ∀ s : State,
    (s.dev.hostUp = true →
      (∀ v : BitVec 32, s.dev.inSafe .dmRxCtl 0 = false →
        ∃ t, exec (.dmRingCtlWrite none v) s = .next (s.put t) ∧ t.cd .dmRxCtl_enable = bitAt v.toNat 0 ∧
          t.cd .dmRxCtl_bufKib = clamp 1 10 (bits v.toNat 19 16) ∧ t.cd .dmRxCtl_irqEn = bitAt v.toNat 28 ∧
          t.cd .dmRxCtl_irqCh = bits v.toNat 27 24 ∧ t.cd .dmRxCtl_ringLog2 =
            (if s.dev.cd .dmRxCtl_enable = 0 then clamp 4 12 (bits v.toNat 11 8) else s.dev.cd .dmRxCtl_ringLog2)) ∧
      (∀ (c : Tc) (v : BitVec 32), s.dev.inSafe .dmTxCtl 0 c = false →
        ∃ t, exec (.dmRingCtlWrite (some c) v) s = .next (s.put t) ∧ t.cd .dmTxCtl_enable c = bitAt v.toNat 0 ∧
          t.cd .dmTxCtl_irqEn c = bitAt v.toNat 28 ∧ t.cd .dmTxCtl_irqCh c = bits v.toNat 27 24 ∧
          t.cd .dmTxCtl_ringLog2 c = (if s.dev.cd .dmTxCtl_enable c = 0 then clamp 4 12 (bits v.toNat 11 8)
            else s.dev.cd .dmTxCtl_ringLog2 c)) ∧
      (∀ (c : Tc) (v : BitVec 12), s.dev.inSafe .dmTxPtr 0 c = false → exec (.dmTxTailWrite c v) s = .next (s.put
        (s.dev.quiet.setCd .dmTxPtr_tail (newTail (s.dev.txRing c) (s.dev.cd .dmTxPtr_head c) (s.dev.cd .dmTxPtr_tail c)
          v.toNat) c))) ∧
      ∀ v : BitVec 12, s.dev.inSafe .dmRxPtr 0 = false → exec (.dmRxTailWrite v) s = .next (s.put
        (s.dev.quiet.setCd .dmRxPtr_tail (newTail s.dev.rxRing (s.dev.cd .dmRxPtr_head) (s.dev.cd .dmRxPtr_tail)
          v.toNat)))) ∧
    (∀ (c : Nat) (desc : List Byte) (data : Option (List Byte)) (slow : Fin 8), s.dev.ringsRun = true → s.dev.txClass = some c →
      let x := readTx desc
      let good := 60 ≤ x.len ∧ x.len ≤ 10236 ∧ x.clean = true
      (good → ∀ b, data = some b → b.length = x.len) →
      ∃ t, exec (.dmTxFrame desc data ⟨slow, []⟩) s = .next (s.put t) ∧
        t.cd .dmTxPtr_head c = (s.dev.cd .dmTxPtr_head c + 1) % s.dev.txRing c ∧
        Out.hostWrite ((s.dev.wide .dmTxBase 0 c + 32 * s.dev.cd .dmTxPtr_head c + 24) % 2 ^ 64)
          (toBytes [if good then (if data.isSome then 1 else 2) else 3]) ∈ t.out ∧
        t.net.nextId = s.dev.net.nextId + (if good ∧ data.isSome = true then 1 else 0) ∧
        t.wide .dmTxDiscard 0 = (if good ∧ data.isSome = true then s.dev.wide .dmTxDiscard 0
          else (s.dev.wide .dmTxDiscard 0 + 1) % 2 ^ Wide.dmTxDiscard.info.width)) ∧
    ∀ (buf : BitVec 64) (x : RxItem) (rest : List RxItem), s.dev.dma.rxq = x :: rest → s.dev.ringsRun = true →
      s.dev.cfg .dmRxCtl_enable 0 = 1 →
      s.dev.cd .dmRxPtr_head % s.dev.rxRing ≠ s.dev.cd .dmRxPtr_tail % s.dev.rxRing →
      let stored := min x.bytes.length (s.dev.cfg .dmRxCtl_bufKib 0 * 1024)
      ∃ t, exec (.dmRxRecord buf) s = .next (s.put t) ∧ t.dma.rxq = rest ∧
        t.cd .dmRxPtr_head = (s.dev.cd .dmRxPtr_head + 1) % s.dev.rxRing ∧
        t.out.take 2 = [.hostWrite buf.toNat (x.bytes.take stored),
          .hostWrite ((s.dev.wide .dmRxBase 0 + 64 * s.dev.cd .dmRxPtr_head) % 2 ^ 64) (toBytes (x.bytes64 buf.toNat stored))]

/-! ### Observability and security -/

/-- OB_SNAP (R372), BW_WINDOW_END (R374), RECORD_DELIVER, OB_D_RPTR_WRITE and HOST_RING_FULL_1MS (R383, R384), SUMMARY_RAISE
(R386), OB_TRIGGER and INCIDENT_END (R388), FTB_RELEASE (R389) and OB_FATAL (R391). -/
def Obligations.RecordsAreKeptAndDelivered : Prop :=
  ∀ s : State,
    (∀ (n : Die) (slot : Fin 32), s.dev.hostUp = true → s.dev.railOn n = true → s.dev.inSafe .obSnapCtl (n + 1) = false →
      ∃ t, exec (.obSnap n slot) s = .next (s.put t) ∧ t.pd .obSnapCtl_port n = slot ∧ ∀ i, i < 64 →
        t.wide .obSnap (n + 1) i = (if s.dev.portExists (32 * n + slot) then s.dev.wide .obStat (n + 1) slot i else 0) %
          2 ^ Wide.obSnap.info.width) ∧
    (∀ q : LinePort, s.dev.liveDie (q / 32) = true → s.dev.portExists q = true →
      let new := s.dev.cfg .obBwCtl_windowUs (q / 32 + 1) (q % 32)
      let old := (aget s.dev.obs.bwOld q).getD new
      ∃ t, exec (.bwWindowEnd q) s = .next (s.put t) ∧
        (s.dev.bwPassed q old = false → s.dev.bwPassed q new = false → t = s.dev.quiet) ∧
        (s.dev.bwPassed q old = true → ∀ e ∈ t.obs.bw, e.1 ≠ q.val) ∧
        (s.dev.bwPassed q old = true → ∀ x, s.dev.obs.bw.find? (fun e => e.1 = q.val) = some x →
          t.wide .obBw (q / 32 + 1) (q % 32) 0 = x.2.1 % 2 ^ Wide.obBw.info.width ∧
          t.wide .obBw (q / 32 + 1) (q % 32) 1 = x.2.2.1 % 2 ^ Wide.obBw.info.width ∧
          t.wide .obBw (q / 32 + 1) (q % 32) 2 =
            max (s.dev.wide .obBw (q / 32 + 1) (q % 32) 2) x.2.1 % 2 ^ Wide.obBw.info.width)) ∧
    (s.dev.delivers = true → s.dev.hostRingFull = false → ∀ r e late, s.dev.nextRecord = some (r, e, late) →
      ∃ t, exec .recordDeliver s = .next (s.put t) ∧ (t.ring r).recs = (s.dev.ring r).recs.tail ∧
        Out.hostWrite (s.dev.wide .obDBase 0 + 32 * s.dev.cd .obDWptr_wptr)
          (toBytes (e.bytes (if late then 8 else 0))) ∈ t.out ∧
        t.cd .obDWptr_wptr = (s.dev.cd .obDWptr_wptr + 1) % s.dev.hostRing ∧
        t.wide .obDDelivered 0 = (s.dev.wide .obDDelivered 0 + 1) % 2 ^ Wide.obDDelivered.info.width) ∧
    (s.dev.hostRingFull = true → exec .hostRingFull1ms s = .next (s.put
      (s.dev.quiet.raise 6 0x1105 [(32, ([0, 1, 2, 3, 4].map (fun r => (s.dev.ring r).recs.length)).sum)]))) ∧
    (∀ v : BitVec 20, s.dev.hostUp = true → s.dev.inSafe .obDRptr 0 = false →
      exec (.obDRptrWrite v) s = .next (s.put (s.dev.quiet.setCd .obDRptr_rptr v.toNat))) ∧
    (∀ r : Isl,
      (∀ c, (s.dev.ring r).summ = [c] → c.first / 1000000000 ≠ s.dev.now r / 1000000000 → (s.dev.ring r).recs = [] →
        500 ≤ s.dev.bucket (.emission r) → (r.val < 4 → s.dev.pd .obPmcCtl_globalEn r = 0) →
        ∃ t e, exec (.summaryRaise r) s = .next (s.put t) ∧ (t.ring r).summ = [] ∧ (t.ring r).recs = [e] ∧
          e.code = c.code ∧ e.time = c.last ∧ e.seq = (s.dev.ring r).seq ∧ e.cls = 3 + 16 * c.cls ∧
          e.payload = packPayload [(32, c.count), (48, c.first % 2 ^ 48)] ∧
          t.bucket (.emission r) = s.dev.bucket (.emission r) - 500) ∧
      ((s.dev.ring r).incident = true → (s.dev.ring r).recs.length * 4 < 8192 → r.val < 4 → s.dev.railOn r = true →
        (s.dev.fateOf r 0x1103 = .emitted) → s.dev.fld .obIncCtl_fillTrigger (ringWin r) * 8192 > 204900 →
        s.dev.pd .obPmcCtl_globalEn r = 0 →
        ∃ t, exec (.incidentEnd r) s = .next (s.put t) ∧ (t.ring r).incident = false) ∧
      (s.dev.hostUp = true → s.dev.winPowered (ringWin r) = true →
        ((s.dev.ring r).incident = false → ∃ t, exec (.obTrigger r) s = .next (s.put t) ∧ (t.ring r).incident = true ∧
          t.fld .obRingStatus_lastCause (ringWin r) = 5 ∧ t.fld .obRingStatus_incidentSticky (ringWin r) = 1) ∧
        ((s.dev.ring r).incident = true → exec (.obTrigger r) s = .next (s.put s.dev.quiet)) ∧
        ∃ t, exec (.ftbRelease r) s = .next (s.put t) ∧ t.ring r = { s.dev.ring r with ftbState := 0, ftb := [] } ∧
          ∀ q : Isl, q ≠ r → t.ring q = s.dev.ring q)) ∧
    (s.dev.hostUp = true → ∃ t, exec .obFatal s = .next (s.put t) ∧ t.cd .obFatal_cause = 5 ∧
      t.cd .obFatal_fatalSticky = 1 ∧ (t.ring 4).incident = true)

/-- The six requests of Table 19-3 (R398, R401–R403), SC_REQUEST_DONE (R396, R405) and CHALLENGE_EXPIRE (R401). -/
def Obligations.SecurityRequestsRun : Prop :=
  ∀ s : State,
    (s.dev.hostUp = true → s.dev.inSafe .scCmd 0 = false →
      let runs := fun (i : Instr) (op : Nat) (p : ScRun → Dev → Prop) =>
        (s.dev.cd .scStatus_state ≠ 1 → ∃ t r, exec i s = .next (s.put t) ∧ t.sec.run = some r ∧ r.op = op ∧
          t.cd .scStatus_state = 1 ∧ t.cd .scCmd_op = op ∧ t.cd .scCmd_start = 1 ∧ p r t) ∧
        (s.dev.cd .scStatus_state = 1 → exec i s = .next (s.put ((s.dev.quiet.setCd .scStatus_busySticky 1).raise 6 0x0F05
          [(4, (s.dev.sec.run.map (·.op)).getD 0)])))
      runs .scReadSlate 1 (fun r t => t.sec.challenge = s.dev.sec.challenge ∧
        (s.dev.wide .scOutLen 0 < s.dev.slate.length → r.code = 6) ∧
        (s.dev.slate.length ≤ s.dev.wide .scOutLen 0 → r.code = 1 ∧ r.effect = .output s.dev.slate)) ∧
      (∀ nonce, runs (.scQuote nonce) 2 (fun r t => t.sec.challenge = s.dev.sec.challenge ∧ (nonce = none → r.code = 5))) ∧
      runs .scGetChallenge 3 (fun r t => t.sec.challenge = none ∧ t.wide .scChallenge 0 = 0 ∧
        (32 ≤ s.dev.wide .scOutLen 0 → r.code = 1 ∧ r.effect = .challenge (Config.challenge s.dev.net.draws).toNat)) ∧
      (∀ k, runs (.scKeyCommand k) 4 (fun r t => (k = none → r.code = 5) ∧
        ∀ b, k = some b → let c := readKey b
          (KeyCmd.formed c = false → r.code = 4 ∧ t.sec.challenge = s.dev.sec.challenge) ∧
          (KeyCmd.formed c = true → t.sec.challenge = none ∧ (s.dev.sec.challenge = none → r.code = 9)))) ∧
      runs .scAdvanceRollback 5 (fun r _ => s.dev.boot.applied = true → s.dev.boot.factory = false →
        s.otp.rollback < s.dev.boot.hdr.rollback → s.otp.advances.length < 128 →
        r.code = 1 ∧ r.effect = .advance s.dev.boot.hdr.rollback) ∧
      ∀ p, runs (.scApplyPatch p) 6 (fun r _ => p = none → r.code = 5)) ∧
    (∀ (r : ScRun) (ok : Bool), s.dev.sec.run = some r →
      ∃ t, exec (.scRequestDone ok) s = .next t ∧ t.flash = s.flash ∧ t.pending = s.pending ∧ t.dev.sec.run = none ∧
        t.dev.cd .scStatus_state = 2 ∧
        (r.code ≠ 1 → t.otp = s.otp ∧ t.dev.cd .scStatus_code = r.code) ∧
        (r.code ≠ 1 → r.code ≠ 2 →
          t.dev.wide .scRefused 0 = (s.dev.wide .scRefused 0 + 1) % 2 ^ Wide.scRefused.info.width) ∧
        (r.code = 1 → ok = true → t.dev.cd .scStatus_code = 1 ∧
          (∀ (k : Fin 4) (h : Nat), r.effect = .program k h →
            (t.otp.slots.get k).marker = true ∧ (t.otp.slots.get k).content = (s.otp.slots.get k).content ||| h) ∧
          (∀ k : Fin 4, r.effect = .revoke k → (t.otp.slots.get k).revoke = (s.otp.slots.get k).revoke ||| 7) ∧
          (∀ v, r.effect = .advance v → t.otp.advances = s.otp.advances ++ [⟨v, true, []⟩]) ∧
          (∀ v c, r.effect = .patch v c → t.otp.patches = s.otp.patches ++ [⟨v, true, c⟩])) ∧
        (r.code = 1 → ok = false → ScEffect.writes r.effect = true → t.dev.cd .scStatus_code = 0x11)) ∧
    ∀ c a, s.dev.sec.challenge = some (c, a) → 600000000000 ≤ diff64 (s.dev.now 4) a →
      ∃ t, exec .challengeExpire s = .next (s.put t) ∧ t.sec.challenge = none ∧ t.wide .scChallenge 0 = 0
end

