-- ==== Sys2Proof/Laws/State.lean ====
section
/-! SUPPORT. Reading a field of the device after a named update: one lemma for each field and update, and reading a register
field or a wide value after a write of one. -/

namespace Sys2Proof.Machine

/-! ### Association lists -/

theorem aget_aset {κ ν : Type} [DecidableEq κ] (l : List (κ × ν)) (k k' : κ) (v : ν) :
    aget (aset l k v) k' = if k = k' then some v else aget l k' := by
  induction l with
  | nil => simp [aset, aget]
  | cons h t ih =>
    obtain ⟨a, w⟩ := h
    by_cases hk : a = k
    · subst hk; simp [aset, aget]; split <;> rfl
    · simp only [aset, hk, if_false, aget, ih]
      by_cases hk' : k = k'
      · subst hk'; simp [hk]
      · simp [hk']

theorem aget_adel {κ ν : Type} [DecidableEq κ] (l : List (κ × ν)) (k k' : κ) :
    aget (adel l k) k' = if k = k' then none else aget l k' := by
  induction l with
  | nil => simp [adel, aget]
  | cons h t ih =>
    obtain ⟨a, w⟩ := h
    by_cases hk : a = k
    · subst hk
      simp only [adel, aget, List.filter_cons, decide_true, Bool.not_true] at *
      by_cases hk' : a = k' <;> simp_all
    · simp only [adel, aget, List.filter_cons, hk, decide_false, Bool.not_false, if_true] at ih ⊢
      by_cases hk' : k = k'
      · subst hk'; rw [if_neg hk]; simpa using ih
      · simp only [hk', if_false] at ih ⊢; rw [ih]

/-! ### Register fields and wide values -/

@[simp] theorem Dev.cd_eq (d : Dev) (f : Fld) (i j : Nat) : d.cd f i j = d.fld f 0 i j := rfl
@[simp] theorem Dev.pd_eq (d : Dev) (f : Fld) (n i j : Nat) : d.pd f n i j = d.fld f (n + 1) i j := rfl
@[simp] theorem Dev.setCd_eq (d : Dev) (f : Fld) (v i j : Nat) : d.setCd f v i j = d.setFld f 0 i j v := rfl
@[simp] theorem Dev.setPd_eq (d : Dev) (f : Fld) (n v i j : Nat) : d.setPd f n v i j = d.setFld f (n + 1) i j v := rfl

/-- A field after a write of a field. -/
@[simp] theorem Dev.fld_setFld (d : Dev) (f g : Fld) (w i j v w' i' j' : Nat) :
    (d.setFld f w i j v).fld g w' i' j' = if f = g ∧ w = w' ∧ i = i' ∧ j = j' then v else d.fld g w' i' j' := by
  simp only [Dev.fld, Dev.setFld, aget_aset]
  by_cases h : (⟨f, w, i, j⟩ : FKey) = ⟨g, w', i', j'⟩
  · have : f = g ∧ w = w' ∧ i = i' ∧ j = j' := by simpa using h
    simp [this]
  · have : ¬ (f = g ∧ w = w' ∧ i = i' ∧ j = j') := by simpa using h
    simp [h, this]

/-- A wide value after a write of one. -/
@[simp] theorem Dev.wide_setWide (d : Dev) (x y : Wide) (w i j v w' i' j' : Nat) :
    (d.setWide x w i j v).wide y w' i' j' =
      if x = y ∧ w = w' ∧ i = i' ∧ j = j' then v % 2 ^ x.info.width else d.wide y w' i' j' := by
  simp only [Dev.wide, Dev.setWide, aget_aset]
  by_cases h : (⟨x, w, i, j⟩ : WKey) = ⟨y, w', i', j'⟩
  · have : x = y ∧ w = w' ∧ i = i' ∧ j = j' := by simpa using h
    simp [this]
  · have : ¬ (x = y ∧ w = w' ∧ i = i' ∧ j = j') := by simpa using h
    simp [h, this]

/-- A wide value after a counter has advanced. -/
@[simp] theorem Dev.wide_bump (d : Dev) (x y : Wide) (w i j n w' i' j' : Nat) :
    (d.bump x w i j n).wide y w' i' j' =
      if x = y ∧ w = w' ∧ i = i' ∧ j = j' then (d.wide x w i j + n) % 2 ^ x.info.width else d.wide y w' i' j' := by
  simp [Dev.bump]

/-- Bit b of a field after it was set. -/
@[simp] theorem Dev.fld_setBit (d : Dev) (f g : Fld) (w i j b w' i' j' : Nat) :
    (d.setBit f w i j b).fld g w' i' j' =
      if f = g ∧ w = w' ∧ i = i' ∧ j = j' then d.fld f w i j ||| 2 ^ b else d.fld g w' i' j' := by
  simp [Dev.setBit]

/-! ### Every other field -/

@[simp] theorem Dev.setFld_sup (d : Dev) (f : Fld) (w i j v : Nat) : (d.setFld f w i j v).sup = d.sup := rfl
@[simp] theorem Dev.setFld_boot (d : Dev) (f : Fld) (w i j v : Nat) : (d.setFld f w i j v).boot = d.boot := rfl
@[simp] theorem Dev.setFld_wides (d : Dev) (f : Fld) (w i j v : Nat) : (d.setFld f w i j v).wides = d.wides := rfl
@[simp] theorem Dev.setFld_safe (d : Dev) (f : Fld) (w i j v : Nat) : (d.setFld f w i j v).safe = d.safe := rfl
@[simp] theorem Dev.setFld_snaps (d : Dev) (f : Fld) (w i j v : Nat) : (d.setFld f w i j v).snaps = d.snaps := rfl
@[simp] theorem Dev.setFld_errlog (d : Dev) (f : Fld) (w i j v : Nat) : (d.setFld f w i j v).errlog = d.errlog := rfl
@[simp] theorem Dev.setFld_bkts (d : Dev) (f : Fld) (w i j v : Nat) : (d.setFld f w i j v).bkts = d.bkts := rfl
@[simp] theorem Dev.setFld_obs (d : Dev) (f : Fld) (w i j v : Nat) : (d.setFld f w i j v).obs = d.obs := rfl
@[simp] theorem Dev.setFld_tm (d : Dev) (f : Fld) (w i j v : Nat) : (d.setFld f w i j v).tm = d.tm := rfl
@[simp] theorem Dev.setFld_net (d : Dev) (f : Fld) (w i j v : Nat) : (d.setFld f w i j v).net = d.net := rfl
@[simp] theorem Dev.setFld_fw (d : Dev) (f : Fld) (w i j v : Nat) : (d.setFld f w i j v).fw = d.fw := rfl
@[simp] theorem Dev.setFld_tak (d : Dev) (f : Fld) (w i j v : Nat) : (d.setFld f w i j v).tak = d.tak := rfl
@[simp] theorem Dev.setFld_plc (d : Dev) (f : Fld) (w i j v : Nat) : (d.setFld f w i j v).plc = d.plc := rfl
@[simp] theorem Dev.setFld_fab (d : Dev) (f : Fld) (w i j v : Nat) : (d.setFld f w i j v).fab = d.fab := rfl
@[simp] theorem Dev.setFld_duo (d : Dev) (f : Fld) (w i j v : Nat) : (d.setFld f w i j v).duo = d.duo := rfl
@[simp] theorem Dev.setFld_dma (d : Dev) (f : Fld) (w i j v : Nat) : (d.setFld f w i j v).dma = d.dma := rfl
@[simp] theorem Dev.setFld_sec (d : Dev) (f : Fld) (w i j v : Nat) : (d.setFld f w i j v).sec = d.sec := rfl
@[simp] theorem Dev.setFld_out (d : Dev) (f : Fld) (w i j v : Nat) : (d.setFld f w i j v).out = d.out := rfl
@[simp] theorem Dev.setFld_readData (d : Dev) (f : Fld) (w i j v : Nat) : (d.setFld f w i j v).readData = d.readData := rfl
@[simp] theorem Dev.setFld_wide (d : Dev) (f : Fld) (w i j v : Nat) (y : Wide) (w1 i1 j1 : Nat) : (d.setFld f w i j v).wide y w1 i1 j1 = d.wide y w1 i1 j1 := rfl
@[simp] theorem Dev.setFld_inSafe (d : Dev) (f : Fld) (w i j v : Nat) (r1 : Reg) (w1 i1 j1 : Nat) : (d.setFld f w i j v).inSafe r1 w1 i1 j1 = d.inSafe r1 w1 i1 j1 := rfl

@[simp] theorem Dev.setWide_sup (d : Dev) (x : Wide) (w i j v : Nat) : (d.setWide x w i j v).sup = d.sup := rfl
@[simp] theorem Dev.setWide_boot (d : Dev) (x : Wide) (w i j v : Nat) : (d.setWide x w i j v).boot = d.boot := rfl
@[simp] theorem Dev.setWide_flds (d : Dev) (x : Wide) (w i j v : Nat) : (d.setWide x w i j v).flds = d.flds := rfl
@[simp] theorem Dev.setWide_safe (d : Dev) (x : Wide) (w i j v : Nat) : (d.setWide x w i j v).safe = d.safe := rfl
@[simp] theorem Dev.setWide_snaps (d : Dev) (x : Wide) (w i j v : Nat) : (d.setWide x w i j v).snaps = d.snaps := rfl
@[simp] theorem Dev.setWide_errlog (d : Dev) (x : Wide) (w i j v : Nat) : (d.setWide x w i j v).errlog = d.errlog := rfl
@[simp] theorem Dev.setWide_bkts (d : Dev) (x : Wide) (w i j v : Nat) : (d.setWide x w i j v).bkts = d.bkts := rfl
@[simp] theorem Dev.setWide_obs (d : Dev) (x : Wide) (w i j v : Nat) : (d.setWide x w i j v).obs = d.obs := rfl
@[simp] theorem Dev.setWide_tm (d : Dev) (x : Wide) (w i j v : Nat) : (d.setWide x w i j v).tm = d.tm := rfl
@[simp] theorem Dev.setWide_net (d : Dev) (x : Wide) (w i j v : Nat) : (d.setWide x w i j v).net = d.net := rfl
@[simp] theorem Dev.setWide_fw (d : Dev) (x : Wide) (w i j v : Nat) : (d.setWide x w i j v).fw = d.fw := rfl
@[simp] theorem Dev.setWide_tak (d : Dev) (x : Wide) (w i j v : Nat) : (d.setWide x w i j v).tak = d.tak := rfl
@[simp] theorem Dev.setWide_plc (d : Dev) (x : Wide) (w i j v : Nat) : (d.setWide x w i j v).plc = d.plc := rfl
@[simp] theorem Dev.setWide_fab (d : Dev) (x : Wide) (w i j v : Nat) : (d.setWide x w i j v).fab = d.fab := rfl
@[simp] theorem Dev.setWide_duo (d : Dev) (x : Wide) (w i j v : Nat) : (d.setWide x w i j v).duo = d.duo := rfl
@[simp] theorem Dev.setWide_dma (d : Dev) (x : Wide) (w i j v : Nat) : (d.setWide x w i j v).dma = d.dma := rfl
@[simp] theorem Dev.setWide_sec (d : Dev) (x : Wide) (w i j v : Nat) : (d.setWide x w i j v).sec = d.sec := rfl
@[simp] theorem Dev.setWide_out (d : Dev) (x : Wide) (w i j v : Nat) : (d.setWide x w i j v).out = d.out := rfl
@[simp] theorem Dev.setWide_readData (d : Dev) (x : Wide) (w i j v : Nat) : (d.setWide x w i j v).readData = d.readData := rfl
@[simp] theorem Dev.setWide_fld (d : Dev) (x : Wide) (w i j v : Nat) (f1 : Fld) (w1 i1 j1 : Nat) : (d.setWide x w i j v).fld f1 w1 i1 j1 = d.fld f1 w1 i1 j1 := rfl
@[simp] theorem Dev.setWide_inSafe (d : Dev) (x : Wide) (w i j v : Nat) (r1 : Reg) (w1 i1 j1 : Nat) : (d.setWide x w i j v).inSafe r1 w1 i1 j1 = d.inSafe r1 w1 i1 j1 := rfl

@[simp] theorem Dev.bump_sup (d : Dev) (x : Wide) (w i j n : Nat) : (d.bump x w i j n).sup = d.sup := rfl
@[simp] theorem Dev.bump_boot (d : Dev) (x : Wide) (w i j n : Nat) : (d.bump x w i j n).boot = d.boot := rfl
@[simp] theorem Dev.bump_flds (d : Dev) (x : Wide) (w i j n : Nat) : (d.bump x w i j n).flds = d.flds := rfl
@[simp] theorem Dev.bump_safe (d : Dev) (x : Wide) (w i j n : Nat) : (d.bump x w i j n).safe = d.safe := rfl
@[simp] theorem Dev.bump_snaps (d : Dev) (x : Wide) (w i j n : Nat) : (d.bump x w i j n).snaps = d.snaps := rfl
@[simp] theorem Dev.bump_errlog (d : Dev) (x : Wide) (w i j n : Nat) : (d.bump x w i j n).errlog = d.errlog := rfl
@[simp] theorem Dev.bump_bkts (d : Dev) (x : Wide) (w i j n : Nat) : (d.bump x w i j n).bkts = d.bkts := rfl
@[simp] theorem Dev.bump_obs (d : Dev) (x : Wide) (w i j n : Nat) : (d.bump x w i j n).obs = d.obs := rfl
@[simp] theorem Dev.bump_tm (d : Dev) (x : Wide) (w i j n : Nat) : (d.bump x w i j n).tm = d.tm := rfl
@[simp] theorem Dev.bump_net (d : Dev) (x : Wide) (w i j n : Nat) : (d.bump x w i j n).net = d.net := rfl
@[simp] theorem Dev.bump_fw (d : Dev) (x : Wide) (w i j n : Nat) : (d.bump x w i j n).fw = d.fw := rfl
@[simp] theorem Dev.bump_tak (d : Dev) (x : Wide) (w i j n : Nat) : (d.bump x w i j n).tak = d.tak := rfl
@[simp] theorem Dev.bump_plc (d : Dev) (x : Wide) (w i j n : Nat) : (d.bump x w i j n).plc = d.plc := rfl
@[simp] theorem Dev.bump_fab (d : Dev) (x : Wide) (w i j n : Nat) : (d.bump x w i j n).fab = d.fab := rfl
@[simp] theorem Dev.bump_duo (d : Dev) (x : Wide) (w i j n : Nat) : (d.bump x w i j n).duo = d.duo := rfl
@[simp] theorem Dev.bump_dma (d : Dev) (x : Wide) (w i j n : Nat) : (d.bump x w i j n).dma = d.dma := rfl
@[simp] theorem Dev.bump_sec (d : Dev) (x : Wide) (w i j n : Nat) : (d.bump x w i j n).sec = d.sec := rfl
@[simp] theorem Dev.bump_out (d : Dev) (x : Wide) (w i j n : Nat) : (d.bump x w i j n).out = d.out := rfl
@[simp] theorem Dev.bump_readData (d : Dev) (x : Wide) (w i j n : Nat) : (d.bump x w i j n).readData = d.readData := rfl
@[simp] theorem Dev.bump_fld (d : Dev) (x : Wide) (w i j n : Nat) (f1 : Fld) (w1 i1 j1 : Nat) : (d.bump x w i j n).fld f1 w1 i1 j1 = d.fld f1 w1 i1 j1 := rfl
@[simp] theorem Dev.bump_inSafe (d : Dev) (x : Wide) (w i j n : Nat) (r1 : Reg) (w1 i1 j1 : Nat) : (d.bump x w i j n).inSafe r1 w1 i1 j1 = d.inSafe r1 w1 i1 j1 := rfl

@[simp] theorem Dev.setBit_sup (d : Dev) (f : Fld) (w i j b : Nat) : (d.setBit f w i j b).sup = d.sup := rfl
@[simp] theorem Dev.setBit_boot (d : Dev) (f : Fld) (w i j b : Nat) : (d.setBit f w i j b).boot = d.boot := rfl
@[simp] theorem Dev.setBit_wides (d : Dev) (f : Fld) (w i j b : Nat) : (d.setBit f w i j b).wides = d.wides := rfl
@[simp] theorem Dev.setBit_safe (d : Dev) (f : Fld) (w i j b : Nat) : (d.setBit f w i j b).safe = d.safe := rfl
@[simp] theorem Dev.setBit_snaps (d : Dev) (f : Fld) (w i j b : Nat) : (d.setBit f w i j b).snaps = d.snaps := rfl
@[simp] theorem Dev.setBit_errlog (d : Dev) (f : Fld) (w i j b : Nat) : (d.setBit f w i j b).errlog = d.errlog := rfl
@[simp] theorem Dev.setBit_bkts (d : Dev) (f : Fld) (w i j b : Nat) : (d.setBit f w i j b).bkts = d.bkts := rfl
@[simp] theorem Dev.setBit_obs (d : Dev) (f : Fld) (w i j b : Nat) : (d.setBit f w i j b).obs = d.obs := rfl
@[simp] theorem Dev.setBit_tm (d : Dev) (f : Fld) (w i j b : Nat) : (d.setBit f w i j b).tm = d.tm := rfl
@[simp] theorem Dev.setBit_net (d : Dev) (f : Fld) (w i j b : Nat) : (d.setBit f w i j b).net = d.net := rfl
@[simp] theorem Dev.setBit_fw (d : Dev) (f : Fld) (w i j b : Nat) : (d.setBit f w i j b).fw = d.fw := rfl
@[simp] theorem Dev.setBit_tak (d : Dev) (f : Fld) (w i j b : Nat) : (d.setBit f w i j b).tak = d.tak := rfl
@[simp] theorem Dev.setBit_plc (d : Dev) (f : Fld) (w i j b : Nat) : (d.setBit f w i j b).plc = d.plc := rfl
@[simp] theorem Dev.setBit_fab (d : Dev) (f : Fld) (w i j b : Nat) : (d.setBit f w i j b).fab = d.fab := rfl
@[simp] theorem Dev.setBit_duo (d : Dev) (f : Fld) (w i j b : Nat) : (d.setBit f w i j b).duo = d.duo := rfl
@[simp] theorem Dev.setBit_dma (d : Dev) (f : Fld) (w i j b : Nat) : (d.setBit f w i j b).dma = d.dma := rfl
@[simp] theorem Dev.setBit_sec (d : Dev) (f : Fld) (w i j b : Nat) : (d.setBit f w i j b).sec = d.sec := rfl
@[simp] theorem Dev.setBit_out (d : Dev) (f : Fld) (w i j b : Nat) : (d.setBit f w i j b).out = d.out := rfl
@[simp] theorem Dev.setBit_readData (d : Dev) (f : Fld) (w i j b : Nat) : (d.setBit f w i j b).readData = d.readData := rfl
@[simp] theorem Dev.setBit_wide (d : Dev) (f : Fld) (w i j b : Nat) (y : Wide) (w1 i1 j1 : Nat) : (d.setBit f w i j b).wide y w1 i1 j1 = d.wide y w1 i1 j1 := rfl
@[simp] theorem Dev.setBit_inSafe (d : Dev) (f : Fld) (w i j b : Nat) (r1 : Reg) (w1 i1 j1 : Nat) : (d.setBit f w i j b).inSafe r1 w1 i1 j1 = d.inSafe r1 w1 i1 j1 := rfl

@[simp] theorem Dev.clrBit_sup (d : Dev) (f : Fld) (w i j b : Nat) : (d.clrBit f w i j b).sup = d.sup := rfl
@[simp] theorem Dev.clrBit_boot (d : Dev) (f : Fld) (w i j b : Nat) : (d.clrBit f w i j b).boot = d.boot := rfl
@[simp] theorem Dev.clrBit_wides (d : Dev) (f : Fld) (w i j b : Nat) : (d.clrBit f w i j b).wides = d.wides := rfl
@[simp] theorem Dev.clrBit_safe (d : Dev) (f : Fld) (w i j b : Nat) : (d.clrBit f w i j b).safe = d.safe := rfl
@[simp] theorem Dev.clrBit_snaps (d : Dev) (f : Fld) (w i j b : Nat) : (d.clrBit f w i j b).snaps = d.snaps := rfl
@[simp] theorem Dev.clrBit_errlog (d : Dev) (f : Fld) (w i j b : Nat) : (d.clrBit f w i j b).errlog = d.errlog := rfl
@[simp] theorem Dev.clrBit_bkts (d : Dev) (f : Fld) (w i j b : Nat) : (d.clrBit f w i j b).bkts = d.bkts := rfl
@[simp] theorem Dev.clrBit_obs (d : Dev) (f : Fld) (w i j b : Nat) : (d.clrBit f w i j b).obs = d.obs := rfl
@[simp] theorem Dev.clrBit_tm (d : Dev) (f : Fld) (w i j b : Nat) : (d.clrBit f w i j b).tm = d.tm := rfl
@[simp] theorem Dev.clrBit_net (d : Dev) (f : Fld) (w i j b : Nat) : (d.clrBit f w i j b).net = d.net := rfl
@[simp] theorem Dev.clrBit_fw (d : Dev) (f : Fld) (w i j b : Nat) : (d.clrBit f w i j b).fw = d.fw := rfl
@[simp] theorem Dev.clrBit_tak (d : Dev) (f : Fld) (w i j b : Nat) : (d.clrBit f w i j b).tak = d.tak := rfl
@[simp] theorem Dev.clrBit_plc (d : Dev) (f : Fld) (w i j b : Nat) : (d.clrBit f w i j b).plc = d.plc := rfl
@[simp] theorem Dev.clrBit_fab (d : Dev) (f : Fld) (w i j b : Nat) : (d.clrBit f w i j b).fab = d.fab := rfl
@[simp] theorem Dev.clrBit_duo (d : Dev) (f : Fld) (w i j b : Nat) : (d.clrBit f w i j b).duo = d.duo := rfl
@[simp] theorem Dev.clrBit_dma (d : Dev) (f : Fld) (w i j b : Nat) : (d.clrBit f w i j b).dma = d.dma := rfl
@[simp] theorem Dev.clrBit_sec (d : Dev) (f : Fld) (w i j b : Nat) : (d.clrBit f w i j b).sec = d.sec := rfl
@[simp] theorem Dev.clrBit_out (d : Dev) (f : Fld) (w i j b : Nat) : (d.clrBit f w i j b).out = d.out := rfl
@[simp] theorem Dev.clrBit_readData (d : Dev) (f : Fld) (w i j b : Nat) : (d.clrBit f w i j b).readData = d.readData := rfl
@[simp] theorem Dev.clrBit_wide (d : Dev) (f : Fld) (w i j b : Nat) (y : Wide) (w1 i1 j1 : Nat) : (d.clrBit f w i j b).wide y w1 i1 j1 = d.wide y w1 i1 j1 := rfl
@[simp] theorem Dev.clrBit_inSafe (d : Dev) (f : Fld) (w i j b : Nat) (r1 : Reg) (w1 i1 j1 : Nat) : (d.clrBit f w i j b).inSafe r1 w1 i1 j1 = d.inSafe r1 w1 i1 j1 := rfl

@[simp] theorem Dev.setBucket_sup (d : Dev) (k : BKey) (v : Int) : (d.setBucket k v).sup = d.sup := rfl
@[simp] theorem Dev.setBucket_boot (d : Dev) (k : BKey) (v : Int) : (d.setBucket k v).boot = d.boot := rfl
@[simp] theorem Dev.setBucket_flds (d : Dev) (k : BKey) (v : Int) : (d.setBucket k v).flds = d.flds := rfl
@[simp] theorem Dev.setBucket_wides (d : Dev) (k : BKey) (v : Int) : (d.setBucket k v).wides = d.wides := rfl
@[simp] theorem Dev.setBucket_safe (d : Dev) (k : BKey) (v : Int) : (d.setBucket k v).safe = d.safe := rfl
@[simp] theorem Dev.setBucket_snaps (d : Dev) (k : BKey) (v : Int) : (d.setBucket k v).snaps = d.snaps := rfl
@[simp] theorem Dev.setBucket_errlog (d : Dev) (k : BKey) (v : Int) : (d.setBucket k v).errlog = d.errlog := rfl
@[simp] theorem Dev.setBucket_obs (d : Dev) (k : BKey) (v : Int) : (d.setBucket k v).obs = d.obs := rfl
@[simp] theorem Dev.setBucket_tm (d : Dev) (k : BKey) (v : Int) : (d.setBucket k v).tm = d.tm := rfl
@[simp] theorem Dev.setBucket_net (d : Dev) (k : BKey) (v : Int) : (d.setBucket k v).net = d.net := rfl
@[simp] theorem Dev.setBucket_fw (d : Dev) (k : BKey) (v : Int) : (d.setBucket k v).fw = d.fw := rfl
@[simp] theorem Dev.setBucket_tak (d : Dev) (k : BKey) (v : Int) : (d.setBucket k v).tak = d.tak := rfl
@[simp] theorem Dev.setBucket_plc (d : Dev) (k : BKey) (v : Int) : (d.setBucket k v).plc = d.plc := rfl
@[simp] theorem Dev.setBucket_fab (d : Dev) (k : BKey) (v : Int) : (d.setBucket k v).fab = d.fab := rfl
@[simp] theorem Dev.setBucket_duo (d : Dev) (k : BKey) (v : Int) : (d.setBucket k v).duo = d.duo := rfl
@[simp] theorem Dev.setBucket_dma (d : Dev) (k : BKey) (v : Int) : (d.setBucket k v).dma = d.dma := rfl
@[simp] theorem Dev.setBucket_sec (d : Dev) (k : BKey) (v : Int) : (d.setBucket k v).sec = d.sec := rfl
@[simp] theorem Dev.setBucket_out (d : Dev) (k : BKey) (v : Int) : (d.setBucket k v).out = d.out := rfl
@[simp] theorem Dev.setBucket_readData (d : Dev) (k : BKey) (v : Int) : (d.setBucket k v).readData = d.readData := rfl
@[simp] theorem Dev.setBucket_fld (d : Dev) (k : BKey) (v : Int) (f1 : Fld) (w1 i1 j1 : Nat) : (d.setBucket k v).fld f1 w1 i1 j1 = d.fld f1 w1 i1 j1 := rfl
@[simp] theorem Dev.setBucket_wide (d : Dev) (k : BKey) (v : Int) (y : Wide) (w1 i1 j1 : Nat) : (d.setBucket k v).wide y w1 i1 j1 = d.wide y w1 i1 j1 := rfl
@[simp] theorem Dev.setBucket_inSafe (d : Dev) (k : BKey) (v : Int) (r1 : Reg) (w1 i1 j1 : Nat) : (d.setBucket k v).inSafe r1 w1 i1 j1 = d.inSafe r1 w1 i1 j1 := rfl

@[simp] theorem Dev.setRing_sup (d : Dev) (r : Nat) (x : Ring) : (d.setRing r x).sup = d.sup := rfl
@[simp] theorem Dev.setRing_boot (d : Dev) (r : Nat) (x : Ring) : (d.setRing r x).boot = d.boot := rfl
@[simp] theorem Dev.setRing_flds (d : Dev) (r : Nat) (x : Ring) : (d.setRing r x).flds = d.flds := rfl
@[simp] theorem Dev.setRing_wides (d : Dev) (r : Nat) (x : Ring) : (d.setRing r x).wides = d.wides := rfl
@[simp] theorem Dev.setRing_safe (d : Dev) (r : Nat) (x : Ring) : (d.setRing r x).safe = d.safe := rfl
@[simp] theorem Dev.setRing_snaps (d : Dev) (r : Nat) (x : Ring) : (d.setRing r x).snaps = d.snaps := rfl
@[simp] theorem Dev.setRing_errlog (d : Dev) (r : Nat) (x : Ring) : (d.setRing r x).errlog = d.errlog := rfl
@[simp] theorem Dev.setRing_bkts (d : Dev) (r : Nat) (x : Ring) : (d.setRing r x).bkts = d.bkts := rfl
@[simp] theorem Dev.setRing_tm (d : Dev) (r : Nat) (x : Ring) : (d.setRing r x).tm = d.tm := rfl
@[simp] theorem Dev.setRing_net (d : Dev) (r : Nat) (x : Ring) : (d.setRing r x).net = d.net := rfl
@[simp] theorem Dev.setRing_fw (d : Dev) (r : Nat) (x : Ring) : (d.setRing r x).fw = d.fw := rfl
@[simp] theorem Dev.setRing_tak (d : Dev) (r : Nat) (x : Ring) : (d.setRing r x).tak = d.tak := rfl
@[simp] theorem Dev.setRing_plc (d : Dev) (r : Nat) (x : Ring) : (d.setRing r x).plc = d.plc := rfl
@[simp] theorem Dev.setRing_fab (d : Dev) (r : Nat) (x : Ring) : (d.setRing r x).fab = d.fab := rfl
@[simp] theorem Dev.setRing_duo (d : Dev) (r : Nat) (x : Ring) : (d.setRing r x).duo = d.duo := rfl
@[simp] theorem Dev.setRing_dma (d : Dev) (r : Nat) (x : Ring) : (d.setRing r x).dma = d.dma := rfl
@[simp] theorem Dev.setRing_sec (d : Dev) (r : Nat) (x : Ring) : (d.setRing r x).sec = d.sec := rfl
@[simp] theorem Dev.setRing_out (d : Dev) (r : Nat) (x : Ring) : (d.setRing r x).out = d.out := rfl
@[simp] theorem Dev.setRing_readData (d : Dev) (r : Nat) (x : Ring) : (d.setRing r x).readData = d.readData := rfl
@[simp] theorem Dev.setRing_fld (d : Dev) (r : Nat) (x : Ring) (f1 : Fld) (w1 i1 j1 : Nat) : (d.setRing r x).fld f1 w1 i1 j1 = d.fld f1 w1 i1 j1 := rfl
@[simp] theorem Dev.setRing_wide (d : Dev) (r : Nat) (x : Ring) (y : Wide) (w1 i1 j1 : Nat) : (d.setRing r x).wide y w1 i1 j1 = d.wide y w1 i1 j1 := rfl
@[simp] theorem Dev.setRing_inSafe (d : Dev) (r : Nat) (x : Ring) (r1 : Reg) (w1 i1 j1 : Nat) : (d.setRing r x).inSafe r1 w1 i1 j1 = d.inSafe r1 w1 i1 j1 := rfl

@[simp] theorem Dev.setBoot_sup (d : Dev) (x : Boot) : (d.setBoot x).sup = d.sup := rfl
@[simp] theorem Dev.setBoot_flds (d : Dev) (x : Boot) : (d.setBoot x).flds = d.flds := rfl
@[simp] theorem Dev.setBoot_wides (d : Dev) (x : Boot) : (d.setBoot x).wides = d.wides := rfl
@[simp] theorem Dev.setBoot_safe (d : Dev) (x : Boot) : (d.setBoot x).safe = d.safe := rfl
@[simp] theorem Dev.setBoot_snaps (d : Dev) (x : Boot) : (d.setBoot x).snaps = d.snaps := rfl
@[simp] theorem Dev.setBoot_errlog (d : Dev) (x : Boot) : (d.setBoot x).errlog = d.errlog := rfl
@[simp] theorem Dev.setBoot_bkts (d : Dev) (x : Boot) : (d.setBoot x).bkts = d.bkts := rfl
@[simp] theorem Dev.setBoot_obs (d : Dev) (x : Boot) : (d.setBoot x).obs = d.obs := rfl
@[simp] theorem Dev.setBoot_tm (d : Dev) (x : Boot) : (d.setBoot x).tm = d.tm := rfl
@[simp] theorem Dev.setBoot_net (d : Dev) (x : Boot) : (d.setBoot x).net = d.net := rfl
@[simp] theorem Dev.setBoot_fw (d : Dev) (x : Boot) : (d.setBoot x).fw = d.fw := rfl
@[simp] theorem Dev.setBoot_tak (d : Dev) (x : Boot) : (d.setBoot x).tak = d.tak := rfl
@[simp] theorem Dev.setBoot_plc (d : Dev) (x : Boot) : (d.setBoot x).plc = d.plc := rfl
@[simp] theorem Dev.setBoot_fab (d : Dev) (x : Boot) : (d.setBoot x).fab = d.fab := rfl
@[simp] theorem Dev.setBoot_duo (d : Dev) (x : Boot) : (d.setBoot x).duo = d.duo := rfl
@[simp] theorem Dev.setBoot_dma (d : Dev) (x : Boot) : (d.setBoot x).dma = d.dma := rfl
@[simp] theorem Dev.setBoot_sec (d : Dev) (x : Boot) : (d.setBoot x).sec = d.sec := rfl
@[simp] theorem Dev.setBoot_out (d : Dev) (x : Boot) : (d.setBoot x).out = d.out := rfl
@[simp] theorem Dev.setBoot_readData (d : Dev) (x : Boot) : (d.setBoot x).readData = d.readData := rfl
@[simp] theorem Dev.setBoot_fld (d : Dev) (x : Boot) (f1 : Fld) (w1 i1 j1 : Nat) : (d.setBoot x).fld f1 w1 i1 j1 = d.fld f1 w1 i1 j1 := rfl
@[simp] theorem Dev.setBoot_wide (d : Dev) (x : Boot) (y : Wide) (w1 i1 j1 : Nat) : (d.setBoot x).wide y w1 i1 j1 = d.wide y w1 i1 j1 := rfl
@[simp] theorem Dev.setBoot_inSafe (d : Dev) (x : Boot) (r1 : Reg) (w1 i1 j1 : Nat) : (d.setBoot x).inSafe r1 w1 i1 j1 = d.inSafe r1 w1 i1 j1 := rfl

@[simp] theorem Dev.setDuo_sup (d : Dev) (x : Duo) : (d.setDuo x).sup = d.sup := rfl
@[simp] theorem Dev.setDuo_boot (d : Dev) (x : Duo) : (d.setDuo x).boot = d.boot := rfl
@[simp] theorem Dev.setDuo_flds (d : Dev) (x : Duo) : (d.setDuo x).flds = d.flds := rfl
@[simp] theorem Dev.setDuo_wides (d : Dev) (x : Duo) : (d.setDuo x).wides = d.wides := rfl
@[simp] theorem Dev.setDuo_safe (d : Dev) (x : Duo) : (d.setDuo x).safe = d.safe := rfl
@[simp] theorem Dev.setDuo_snaps (d : Dev) (x : Duo) : (d.setDuo x).snaps = d.snaps := rfl
@[simp] theorem Dev.setDuo_errlog (d : Dev) (x : Duo) : (d.setDuo x).errlog = d.errlog := rfl
@[simp] theorem Dev.setDuo_bkts (d : Dev) (x : Duo) : (d.setDuo x).bkts = d.bkts := rfl
@[simp] theorem Dev.setDuo_obs (d : Dev) (x : Duo) : (d.setDuo x).obs = d.obs := rfl
@[simp] theorem Dev.setDuo_tm (d : Dev) (x : Duo) : (d.setDuo x).tm = d.tm := rfl
@[simp] theorem Dev.setDuo_net (d : Dev) (x : Duo) : (d.setDuo x).net = d.net := rfl
@[simp] theorem Dev.setDuo_fw (d : Dev) (x : Duo) : (d.setDuo x).fw = d.fw := rfl
@[simp] theorem Dev.setDuo_tak (d : Dev) (x : Duo) : (d.setDuo x).tak = d.tak := rfl
@[simp] theorem Dev.setDuo_plc (d : Dev) (x : Duo) : (d.setDuo x).plc = d.plc := rfl
@[simp] theorem Dev.setDuo_fab (d : Dev) (x : Duo) : (d.setDuo x).fab = d.fab := rfl
@[simp] theorem Dev.setDuo_dma (d : Dev) (x : Duo) : (d.setDuo x).dma = d.dma := rfl
@[simp] theorem Dev.setDuo_sec (d : Dev) (x : Duo) : (d.setDuo x).sec = d.sec := rfl
@[simp] theorem Dev.setDuo_out (d : Dev) (x : Duo) : (d.setDuo x).out = d.out := rfl
@[simp] theorem Dev.setDuo_readData (d : Dev) (x : Duo) : (d.setDuo x).readData = d.readData := rfl
@[simp] theorem Dev.setDuo_fld (d : Dev) (x : Duo) (f1 : Fld) (w1 i1 j1 : Nat) : (d.setDuo x).fld f1 w1 i1 j1 = d.fld f1 w1 i1 j1 := rfl
@[simp] theorem Dev.setDuo_wide (d : Dev) (x : Duo) (y : Wide) (w1 i1 j1 : Nat) : (d.setDuo x).wide y w1 i1 j1 = d.wide y w1 i1 j1 := rfl
@[simp] theorem Dev.setDuo_inSafe (d : Dev) (x : Duo) (r1 : Reg) (w1 i1 j1 : Nat) : (d.setDuo x).inSafe r1 w1 i1 j1 = d.inSafe r1 w1 i1 j1 := rfl

@[simp] theorem Dev.setSec_sup (d : Dev) (x : Sec) : (d.setSec x).sup = d.sup := rfl
@[simp] theorem Dev.setSec_boot (d : Dev) (x : Sec) : (d.setSec x).boot = d.boot := rfl
@[simp] theorem Dev.setSec_flds (d : Dev) (x : Sec) : (d.setSec x).flds = d.flds := rfl
@[simp] theorem Dev.setSec_wides (d : Dev) (x : Sec) : (d.setSec x).wides = d.wides := rfl
@[simp] theorem Dev.setSec_safe (d : Dev) (x : Sec) : (d.setSec x).safe = d.safe := rfl
@[simp] theorem Dev.setSec_snaps (d : Dev) (x : Sec) : (d.setSec x).snaps = d.snaps := rfl
@[simp] theorem Dev.setSec_errlog (d : Dev) (x : Sec) : (d.setSec x).errlog = d.errlog := rfl
@[simp] theorem Dev.setSec_bkts (d : Dev) (x : Sec) : (d.setSec x).bkts = d.bkts := rfl
@[simp] theorem Dev.setSec_obs (d : Dev) (x : Sec) : (d.setSec x).obs = d.obs := rfl
@[simp] theorem Dev.setSec_tm (d : Dev) (x : Sec) : (d.setSec x).tm = d.tm := rfl
@[simp] theorem Dev.setSec_net (d : Dev) (x : Sec) : (d.setSec x).net = d.net := rfl
@[simp] theorem Dev.setSec_fw (d : Dev) (x : Sec) : (d.setSec x).fw = d.fw := rfl
@[simp] theorem Dev.setSec_tak (d : Dev) (x : Sec) : (d.setSec x).tak = d.tak := rfl
@[simp] theorem Dev.setSec_plc (d : Dev) (x : Sec) : (d.setSec x).plc = d.plc := rfl
@[simp] theorem Dev.setSec_fab (d : Dev) (x : Sec) : (d.setSec x).fab = d.fab := rfl
@[simp] theorem Dev.setSec_duo (d : Dev) (x : Sec) : (d.setSec x).duo = d.duo := rfl
@[simp] theorem Dev.setSec_dma (d : Dev) (x : Sec) : (d.setSec x).dma = d.dma := rfl
@[simp] theorem Dev.setSec_out (d : Dev) (x : Sec) : (d.setSec x).out = d.out := rfl
@[simp] theorem Dev.setSec_readData (d : Dev) (x : Sec) : (d.setSec x).readData = d.readData := rfl
@[simp] theorem Dev.setSec_fld (d : Dev) (x : Sec) (f1 : Fld) (w1 i1 j1 : Nat) : (d.setSec x).fld f1 w1 i1 j1 = d.fld f1 w1 i1 j1 := rfl
@[simp] theorem Dev.setSec_wide (d : Dev) (x : Sec) (y : Wide) (w1 i1 j1 : Nat) : (d.setSec x).wide y w1 i1 j1 = d.wide y w1 i1 j1 := rfl
@[simp] theorem Dev.setSec_inSafe (d : Dev) (x : Sec) (r1 : Reg) (w1 i1 j1 : Nat) : (d.setSec x).inSafe r1 w1 i1 j1 = d.inSafe r1 w1 i1 j1 := rfl

@[simp] theorem Dev.setEngine_sup (d : Dev) (g : Engine) : (d.setEngine g).sup = d.sup := rfl
@[simp] theorem Dev.setEngine_boot (d : Dev) (g : Engine) : (d.setEngine g).boot = d.boot := rfl
@[simp] theorem Dev.setEngine_flds (d : Dev) (g : Engine) : (d.setEngine g).flds = d.flds := rfl
@[simp] theorem Dev.setEngine_wides (d : Dev) (g : Engine) : (d.setEngine g).wides = d.wides := rfl
@[simp] theorem Dev.setEngine_safe (d : Dev) (g : Engine) : (d.setEngine g).safe = d.safe := rfl
@[simp] theorem Dev.setEngine_snaps (d : Dev) (g : Engine) : (d.setEngine g).snaps = d.snaps := rfl
@[simp] theorem Dev.setEngine_errlog (d : Dev) (g : Engine) : (d.setEngine g).errlog = d.errlog := rfl
@[simp] theorem Dev.setEngine_bkts (d : Dev) (g : Engine) : (d.setEngine g).bkts = d.bkts := rfl
@[simp] theorem Dev.setEngine_obs (d : Dev) (g : Engine) : (d.setEngine g).obs = d.obs := rfl
@[simp] theorem Dev.setEngine_tm (d : Dev) (g : Engine) : (d.setEngine g).tm = d.tm := rfl
@[simp] theorem Dev.setEngine_fw (d : Dev) (g : Engine) : (d.setEngine g).fw = d.fw := rfl
@[simp] theorem Dev.setEngine_tak (d : Dev) (g : Engine) : (d.setEngine g).tak = d.tak := rfl
@[simp] theorem Dev.setEngine_plc (d : Dev) (g : Engine) : (d.setEngine g).plc = d.plc := rfl
@[simp] theorem Dev.setEngine_fab (d : Dev) (g : Engine) : (d.setEngine g).fab = d.fab := rfl
@[simp] theorem Dev.setEngine_duo (d : Dev) (g : Engine) : (d.setEngine g).duo = d.duo := rfl
@[simp] theorem Dev.setEngine_dma (d : Dev) (g : Engine) : (d.setEngine g).dma = d.dma := rfl
@[simp] theorem Dev.setEngine_sec (d : Dev) (g : Engine) : (d.setEngine g).sec = d.sec := rfl
@[simp] theorem Dev.setEngine_out (d : Dev) (g : Engine) : (d.setEngine g).out = d.out := rfl
@[simp] theorem Dev.setEngine_readData (d : Dev) (g : Engine) : (d.setEngine g).readData = d.readData := rfl
@[simp] theorem Dev.setEngine_fld (d : Dev) (g : Engine) (f1 : Fld) (w1 i1 j1 : Nat) : (d.setEngine g).fld f1 w1 i1 j1 = d.fld f1 w1 i1 j1 := rfl
@[simp] theorem Dev.setEngine_wide (d : Dev) (g : Engine) (y : Wide) (w1 i1 j1 : Nat) : (d.setEngine g).wide y w1 i1 j1 = d.wide y w1 i1 j1 := rfl
@[simp] theorem Dev.setEngine_inSafe (d : Dev) (g : Engine) (r1 : Reg) (w1 i1 j1 : Nat) : (d.setEngine g).inSafe r1 w1 i1 j1 = d.inSafe r1 w1 i1 j1 := rfl

@[simp] theorem Dev.freeEngine_sup (d : Dev) (g : Engine) : (d.freeEngine g).sup = d.sup := rfl
@[simp] theorem Dev.freeEngine_boot (d : Dev) (g : Engine) : (d.freeEngine g).boot = d.boot := rfl
@[simp] theorem Dev.freeEngine_flds (d : Dev) (g : Engine) : (d.freeEngine g).flds = d.flds := rfl
@[simp] theorem Dev.freeEngine_wides (d : Dev) (g : Engine) : (d.freeEngine g).wides = d.wides := rfl
@[simp] theorem Dev.freeEngine_safe (d : Dev) (g : Engine) : (d.freeEngine g).safe = d.safe := rfl
@[simp] theorem Dev.freeEngine_snaps (d : Dev) (g : Engine) : (d.freeEngine g).snaps = d.snaps := rfl
@[simp] theorem Dev.freeEngine_errlog (d : Dev) (g : Engine) : (d.freeEngine g).errlog = d.errlog := rfl
@[simp] theorem Dev.freeEngine_bkts (d : Dev) (g : Engine) : (d.freeEngine g).bkts = d.bkts := rfl
@[simp] theorem Dev.freeEngine_obs (d : Dev) (g : Engine) : (d.freeEngine g).obs = d.obs := rfl
@[simp] theorem Dev.freeEngine_tm (d : Dev) (g : Engine) : (d.freeEngine g).tm = d.tm := rfl
@[simp] theorem Dev.freeEngine_fw (d : Dev) (g : Engine) : (d.freeEngine g).fw = d.fw := rfl
@[simp] theorem Dev.freeEngine_tak (d : Dev) (g : Engine) : (d.freeEngine g).tak = d.tak := rfl
@[simp] theorem Dev.freeEngine_plc (d : Dev) (g : Engine) : (d.freeEngine g).plc = d.plc := rfl
@[simp] theorem Dev.freeEngine_fab (d : Dev) (g : Engine) : (d.freeEngine g).fab = d.fab := rfl
@[simp] theorem Dev.freeEngine_duo (d : Dev) (g : Engine) : (d.freeEngine g).duo = d.duo := rfl
@[simp] theorem Dev.freeEngine_dma (d : Dev) (g : Engine) : (d.freeEngine g).dma = d.dma := rfl
@[simp] theorem Dev.freeEngine_sec (d : Dev) (g : Engine) : (d.freeEngine g).sec = d.sec := rfl
@[simp] theorem Dev.freeEngine_out (d : Dev) (g : Engine) : (d.freeEngine g).out = d.out := rfl
@[simp] theorem Dev.freeEngine_readData (d : Dev) (g : Engine) : (d.freeEngine g).readData = d.readData := rfl
@[simp] theorem Dev.freeEngine_fld (d : Dev) (g : Engine) (f1 : Fld) (w1 i1 j1 : Nat) : (d.freeEngine g).fld f1 w1 i1 j1 = d.fld f1 w1 i1 j1 := rfl
@[simp] theorem Dev.freeEngine_wide (d : Dev) (g : Engine) (y : Wide) (w1 i1 j1 : Nat) : (d.freeEngine g).wide y w1 i1 j1 = d.wide y w1 i1 j1 := rfl
@[simp] theorem Dev.freeEngine_inSafe (d : Dev) (g : Engine) (r1 : Reg) (w1 i1 j1 : Nat) : (d.freeEngine g).inSafe r1 w1 i1 j1 = d.inSafe r1 w1 i1 j1 := rfl

@[simp] theorem Dev.setFrame_sup (d : Dev) (g : Frame) : (d.setFrame g).sup = d.sup := rfl
@[simp] theorem Dev.setFrame_boot (d : Dev) (g : Frame) : (d.setFrame g).boot = d.boot := rfl
@[simp] theorem Dev.setFrame_flds (d : Dev) (g : Frame) : (d.setFrame g).flds = d.flds := rfl
@[simp] theorem Dev.setFrame_wides (d : Dev) (g : Frame) : (d.setFrame g).wides = d.wides := rfl
@[simp] theorem Dev.setFrame_safe (d : Dev) (g : Frame) : (d.setFrame g).safe = d.safe := rfl
@[simp] theorem Dev.setFrame_snaps (d : Dev) (g : Frame) : (d.setFrame g).snaps = d.snaps := rfl
@[simp] theorem Dev.setFrame_errlog (d : Dev) (g : Frame) : (d.setFrame g).errlog = d.errlog := rfl
@[simp] theorem Dev.setFrame_bkts (d : Dev) (g : Frame) : (d.setFrame g).bkts = d.bkts := rfl
@[simp] theorem Dev.setFrame_obs (d : Dev) (g : Frame) : (d.setFrame g).obs = d.obs := rfl
@[simp] theorem Dev.setFrame_tm (d : Dev) (g : Frame) : (d.setFrame g).tm = d.tm := rfl
@[simp] theorem Dev.setFrame_fw (d : Dev) (g : Frame) : (d.setFrame g).fw = d.fw := rfl
@[simp] theorem Dev.setFrame_tak (d : Dev) (g : Frame) : (d.setFrame g).tak = d.tak := rfl
@[simp] theorem Dev.setFrame_plc (d : Dev) (g : Frame) : (d.setFrame g).plc = d.plc := rfl
@[simp] theorem Dev.setFrame_fab (d : Dev) (g : Frame) : (d.setFrame g).fab = d.fab := rfl
@[simp] theorem Dev.setFrame_duo (d : Dev) (g : Frame) : (d.setFrame g).duo = d.duo := rfl
@[simp] theorem Dev.setFrame_dma (d : Dev) (g : Frame) : (d.setFrame g).dma = d.dma := rfl
@[simp] theorem Dev.setFrame_sec (d : Dev) (g : Frame) : (d.setFrame g).sec = d.sec := rfl
@[simp] theorem Dev.setFrame_out (d : Dev) (g : Frame) : (d.setFrame g).out = d.out := rfl
@[simp] theorem Dev.setFrame_readData (d : Dev) (g : Frame) : (d.setFrame g).readData = d.readData := rfl
@[simp] theorem Dev.setFrame_fld (d : Dev) (g : Frame) (f1 : Fld) (w1 i1 j1 : Nat) : (d.setFrame g).fld f1 w1 i1 j1 = d.fld f1 w1 i1 j1 := rfl
@[simp] theorem Dev.setFrame_wide (d : Dev) (g : Frame) (y : Wide) (w1 i1 j1 : Nat) : (d.setFrame g).wide y w1 i1 j1 = d.wide y w1 i1 j1 := rfl
@[simp] theorem Dev.setFrame_inSafe (d : Dev) (g : Frame) (r1 : Reg) (w1 i1 j1 : Nat) : (d.setFrame g).inSafe r1 w1 i1 j1 = d.inSafe r1 w1 i1 j1 := rfl

@[simp] theorem Dev.dropFrame_sup (d : Dev) (n : Nat) : (d.dropFrame n).sup = d.sup := rfl
@[simp] theorem Dev.dropFrame_boot (d : Dev) (n : Nat) : (d.dropFrame n).boot = d.boot := rfl
@[simp] theorem Dev.dropFrame_flds (d : Dev) (n : Nat) : (d.dropFrame n).flds = d.flds := rfl
@[simp] theorem Dev.dropFrame_wides (d : Dev) (n : Nat) : (d.dropFrame n).wides = d.wides := rfl
@[simp] theorem Dev.dropFrame_safe (d : Dev) (n : Nat) : (d.dropFrame n).safe = d.safe := rfl
@[simp] theorem Dev.dropFrame_snaps (d : Dev) (n : Nat) : (d.dropFrame n).snaps = d.snaps := rfl
@[simp] theorem Dev.dropFrame_errlog (d : Dev) (n : Nat) : (d.dropFrame n).errlog = d.errlog := rfl
@[simp] theorem Dev.dropFrame_bkts (d : Dev) (n : Nat) : (d.dropFrame n).bkts = d.bkts := rfl
@[simp] theorem Dev.dropFrame_obs (d : Dev) (n : Nat) : (d.dropFrame n).obs = d.obs := rfl
@[simp] theorem Dev.dropFrame_tm (d : Dev) (n : Nat) : (d.dropFrame n).tm = d.tm := rfl
@[simp] theorem Dev.dropFrame_fw (d : Dev) (n : Nat) : (d.dropFrame n).fw = d.fw := rfl
@[simp] theorem Dev.dropFrame_tak (d : Dev) (n : Nat) : (d.dropFrame n).tak = d.tak := rfl
@[simp] theorem Dev.dropFrame_plc (d : Dev) (n : Nat) : (d.dropFrame n).plc = d.plc := rfl
@[simp] theorem Dev.dropFrame_fab (d : Dev) (n : Nat) : (d.dropFrame n).fab = d.fab := rfl
@[simp] theorem Dev.dropFrame_duo (d : Dev) (n : Nat) : (d.dropFrame n).duo = d.duo := rfl
@[simp] theorem Dev.dropFrame_dma (d : Dev) (n : Nat) : (d.dropFrame n).dma = d.dma := rfl
@[simp] theorem Dev.dropFrame_sec (d : Dev) (n : Nat) : (d.dropFrame n).sec = d.sec := rfl
@[simp] theorem Dev.dropFrame_out (d : Dev) (n : Nat) : (d.dropFrame n).out = d.out := rfl
@[simp] theorem Dev.dropFrame_readData (d : Dev) (n : Nat) : (d.dropFrame n).readData = d.readData := rfl
@[simp] theorem Dev.dropFrame_fld (d : Dev) (n : Nat) (f1 : Fld) (w1 i1 j1 : Nat) : (d.dropFrame n).fld f1 w1 i1 j1 = d.fld f1 w1 i1 j1 := rfl
@[simp] theorem Dev.dropFrame_wide (d : Dev) (n : Nat) (y : Wide) (w1 i1 j1 : Nat) : (d.dropFrame n).wide y w1 i1 j1 = d.wide y w1 i1 j1 := rfl
@[simp] theorem Dev.dropFrame_inSafe (d : Dev) (n : Nat) (r1 : Reg) (w1 i1 j1 : Nat) : (d.dropFrame n).inSafe r1 w1 i1 j1 = d.inSafe r1 w1 i1 j1 := rfl

@[simp] theorem Dev.setCopy_sup (d : Dev) (c : Copy) : (d.setCopy c).sup = d.sup := rfl
@[simp] theorem Dev.setCopy_boot (d : Dev) (c : Copy) : (d.setCopy c).boot = d.boot := rfl
@[simp] theorem Dev.setCopy_flds (d : Dev) (c : Copy) : (d.setCopy c).flds = d.flds := rfl
@[simp] theorem Dev.setCopy_wides (d : Dev) (c : Copy) : (d.setCopy c).wides = d.wides := rfl
@[simp] theorem Dev.setCopy_safe (d : Dev) (c : Copy) : (d.setCopy c).safe = d.safe := rfl
@[simp] theorem Dev.setCopy_snaps (d : Dev) (c : Copy) : (d.setCopy c).snaps = d.snaps := rfl
@[simp] theorem Dev.setCopy_errlog (d : Dev) (c : Copy) : (d.setCopy c).errlog = d.errlog := rfl
@[simp] theorem Dev.setCopy_bkts (d : Dev) (c : Copy) : (d.setCopy c).bkts = d.bkts := rfl
@[simp] theorem Dev.setCopy_obs (d : Dev) (c : Copy) : (d.setCopy c).obs = d.obs := rfl
@[simp] theorem Dev.setCopy_tm (d : Dev) (c : Copy) : (d.setCopy c).tm = d.tm := rfl
@[simp] theorem Dev.setCopy_fw (d : Dev) (c : Copy) : (d.setCopy c).fw = d.fw := rfl
@[simp] theorem Dev.setCopy_tak (d : Dev) (c : Copy) : (d.setCopy c).tak = d.tak := rfl
@[simp] theorem Dev.setCopy_plc (d : Dev) (c : Copy) : (d.setCopy c).plc = d.plc := rfl
@[simp] theorem Dev.setCopy_fab (d : Dev) (c : Copy) : (d.setCopy c).fab = d.fab := rfl
@[simp] theorem Dev.setCopy_duo (d : Dev) (c : Copy) : (d.setCopy c).duo = d.duo := rfl
@[simp] theorem Dev.setCopy_dma (d : Dev) (c : Copy) : (d.setCopy c).dma = d.dma := rfl
@[simp] theorem Dev.setCopy_sec (d : Dev) (c : Copy) : (d.setCopy c).sec = d.sec := rfl
@[simp] theorem Dev.setCopy_out (d : Dev) (c : Copy) : (d.setCopy c).out = d.out := rfl
@[simp] theorem Dev.setCopy_readData (d : Dev) (c : Copy) : (d.setCopy c).readData = d.readData := rfl
@[simp] theorem Dev.setCopy_fld (d : Dev) (c : Copy) (f1 : Fld) (w1 i1 j1 : Nat) : (d.setCopy c).fld f1 w1 i1 j1 = d.fld f1 w1 i1 j1 := rfl
@[simp] theorem Dev.setCopy_wide (d : Dev) (c : Copy) (y : Wide) (w1 i1 j1 : Nat) : (d.setCopy c).wide y w1 i1 j1 = d.wide y w1 i1 j1 := rfl
@[simp] theorem Dev.setCopy_inSafe (d : Dev) (c : Copy) (r1 : Reg) (w1 i1 j1 : Nat) : (d.setCopy c).inSafe r1 w1 i1 j1 = d.inSafe r1 w1 i1 j1 := rfl

@[simp] theorem Dev.setTx_sup (d : Dev) (p : Nat) (x : PortTx) : (d.setTx p x).sup = d.sup := rfl
@[simp] theorem Dev.setTx_boot (d : Dev) (p : Nat) (x : PortTx) : (d.setTx p x).boot = d.boot := rfl
@[simp] theorem Dev.setTx_flds (d : Dev) (p : Nat) (x : PortTx) : (d.setTx p x).flds = d.flds := rfl
@[simp] theorem Dev.setTx_wides (d : Dev) (p : Nat) (x : PortTx) : (d.setTx p x).wides = d.wides := rfl
@[simp] theorem Dev.setTx_safe (d : Dev) (p : Nat) (x : PortTx) : (d.setTx p x).safe = d.safe := rfl
@[simp] theorem Dev.setTx_snaps (d : Dev) (p : Nat) (x : PortTx) : (d.setTx p x).snaps = d.snaps := rfl
@[simp] theorem Dev.setTx_errlog (d : Dev) (p : Nat) (x : PortTx) : (d.setTx p x).errlog = d.errlog := rfl
@[simp] theorem Dev.setTx_bkts (d : Dev) (p : Nat) (x : PortTx) : (d.setTx p x).bkts = d.bkts := rfl
@[simp] theorem Dev.setTx_obs (d : Dev) (p : Nat) (x : PortTx) : (d.setTx p x).obs = d.obs := rfl
@[simp] theorem Dev.setTx_tm (d : Dev) (p : Nat) (x : PortTx) : (d.setTx p x).tm = d.tm := rfl
@[simp] theorem Dev.setTx_fw (d : Dev) (p : Nat) (x : PortTx) : (d.setTx p x).fw = d.fw := rfl
@[simp] theorem Dev.setTx_tak (d : Dev) (p : Nat) (x : PortTx) : (d.setTx p x).tak = d.tak := rfl
@[simp] theorem Dev.setTx_plc (d : Dev) (p : Nat) (x : PortTx) : (d.setTx p x).plc = d.plc := rfl
@[simp] theorem Dev.setTx_fab (d : Dev) (p : Nat) (x : PortTx) : (d.setTx p x).fab = d.fab := rfl
@[simp] theorem Dev.setTx_duo (d : Dev) (p : Nat) (x : PortTx) : (d.setTx p x).duo = d.duo := rfl
@[simp] theorem Dev.setTx_dma (d : Dev) (p : Nat) (x : PortTx) : (d.setTx p x).dma = d.dma := rfl
@[simp] theorem Dev.setTx_sec (d : Dev) (p : Nat) (x : PortTx) : (d.setTx p x).sec = d.sec := rfl
@[simp] theorem Dev.setTx_out (d : Dev) (p : Nat) (x : PortTx) : (d.setTx p x).out = d.out := rfl
@[simp] theorem Dev.setTx_readData (d : Dev) (p : Nat) (x : PortTx) : (d.setTx p x).readData = d.readData := rfl
@[simp] theorem Dev.setTx_fld (d : Dev) (p : Nat) (x : PortTx) (f1 : Fld) (w1 i1 j1 : Nat) : (d.setTx p x).fld f1 w1 i1 j1 = d.fld f1 w1 i1 j1 := rfl
@[simp] theorem Dev.setTx_wide (d : Dev) (p : Nat) (x : PortTx) (y : Wide) (w1 i1 j1 : Nat) : (d.setTx p x).wide y w1 i1 j1 = d.wide y w1 i1 j1 := rfl
@[simp] theorem Dev.setTx_inSafe (d : Dev) (p : Nat) (x : PortTx) (r1 : Reg) (w1 i1 j1 : Nat) : (d.setTx p x).inSafe r1 w1 i1 j1 = d.inSafe r1 w1 i1 j1 := rfl

@[simp] theorem Dev.setGate_sup (d : Dev) (q : Nat) (g : GateSt) : (d.setGate q g).sup = d.sup := rfl
@[simp] theorem Dev.setGate_boot (d : Dev) (q : Nat) (g : GateSt) : (d.setGate q g).boot = d.boot := rfl
@[simp] theorem Dev.setGate_flds (d : Dev) (q : Nat) (g : GateSt) : (d.setGate q g).flds = d.flds := rfl
@[simp] theorem Dev.setGate_wides (d : Dev) (q : Nat) (g : GateSt) : (d.setGate q g).wides = d.wides := rfl
@[simp] theorem Dev.setGate_safe (d : Dev) (q : Nat) (g : GateSt) : (d.setGate q g).safe = d.safe := rfl
@[simp] theorem Dev.setGate_snaps (d : Dev) (q : Nat) (g : GateSt) : (d.setGate q g).snaps = d.snaps := rfl
@[simp] theorem Dev.setGate_errlog (d : Dev) (q : Nat) (g : GateSt) : (d.setGate q g).errlog = d.errlog := rfl
@[simp] theorem Dev.setGate_bkts (d : Dev) (q : Nat) (g : GateSt) : (d.setGate q g).bkts = d.bkts := rfl
@[simp] theorem Dev.setGate_obs (d : Dev) (q : Nat) (g : GateSt) : (d.setGate q g).obs = d.obs := rfl
@[simp] theorem Dev.setGate_tm (d : Dev) (q : Nat) (g : GateSt) : (d.setGate q g).tm = d.tm := rfl
@[simp] theorem Dev.setGate_fw (d : Dev) (q : Nat) (g : GateSt) : (d.setGate q g).fw = d.fw := rfl
@[simp] theorem Dev.setGate_tak (d : Dev) (q : Nat) (g : GateSt) : (d.setGate q g).tak = d.tak := rfl
@[simp] theorem Dev.setGate_plc (d : Dev) (q : Nat) (g : GateSt) : (d.setGate q g).plc = d.plc := rfl
@[simp] theorem Dev.setGate_fab (d : Dev) (q : Nat) (g : GateSt) : (d.setGate q g).fab = d.fab := rfl
@[simp] theorem Dev.setGate_duo (d : Dev) (q : Nat) (g : GateSt) : (d.setGate q g).duo = d.duo := rfl
@[simp] theorem Dev.setGate_dma (d : Dev) (q : Nat) (g : GateSt) : (d.setGate q g).dma = d.dma := rfl
@[simp] theorem Dev.setGate_sec (d : Dev) (q : Nat) (g : GateSt) : (d.setGate q g).sec = d.sec := rfl
@[simp] theorem Dev.setGate_out (d : Dev) (q : Nat) (g : GateSt) : (d.setGate q g).out = d.out := rfl
@[simp] theorem Dev.setGate_readData (d : Dev) (q : Nat) (g : GateSt) : (d.setGate q g).readData = d.readData := rfl
@[simp] theorem Dev.setGate_fld (d : Dev) (q : Nat) (g : GateSt) (f1 : Fld) (w1 i1 j1 : Nat) : (d.setGate q g).fld f1 w1 i1 j1 = d.fld f1 w1 i1 j1 := rfl
@[simp] theorem Dev.setGate_wide (d : Dev) (q : Nat) (g : GateSt) (y : Wide) (w1 i1 j1 : Nat) : (d.setGate q g).wide y w1 i1 j1 = d.wide y w1 i1 j1 := rfl
@[simp] theorem Dev.setGate_inSafe (d : Dev) (q : Nat) (g : GateSt) (r1 : Reg) (w1 i1 j1 : Nat) : (d.setGate q g).inSafe r1 w1 i1 j1 = d.inSafe r1 w1 i1 j1 := rfl

@[simp] theorem Dev.bookTimer_sup (d : Dev) (k : Nat) (e : TaEntry) : (d.bookTimer k e).sup = d.sup := rfl
@[simp] theorem Dev.bookTimer_boot (d : Dev) (k : Nat) (e : TaEntry) : (d.bookTimer k e).boot = d.boot := rfl
@[simp] theorem Dev.bookTimer_flds (d : Dev) (k : Nat) (e : TaEntry) : (d.bookTimer k e).flds = d.flds := rfl
@[simp] theorem Dev.bookTimer_wides (d : Dev) (k : Nat) (e : TaEntry) : (d.bookTimer k e).wides = d.wides := rfl
@[simp] theorem Dev.bookTimer_safe (d : Dev) (k : Nat) (e : TaEntry) : (d.bookTimer k e).safe = d.safe := rfl
@[simp] theorem Dev.bookTimer_snaps (d : Dev) (k : Nat) (e : TaEntry) : (d.bookTimer k e).snaps = d.snaps := rfl
@[simp] theorem Dev.bookTimer_errlog (d : Dev) (k : Nat) (e : TaEntry) : (d.bookTimer k e).errlog = d.errlog := rfl
@[simp] theorem Dev.bookTimer_bkts (d : Dev) (k : Nat) (e : TaEntry) : (d.bookTimer k e).bkts = d.bkts := rfl
@[simp] theorem Dev.bookTimer_obs (d : Dev) (k : Nat) (e : TaEntry) : (d.bookTimer k e).obs = d.obs := rfl
@[simp] theorem Dev.bookTimer_net (d : Dev) (k : Nat) (e : TaEntry) : (d.bookTimer k e).net = d.net := rfl
@[simp] theorem Dev.bookTimer_fw (d : Dev) (k : Nat) (e : TaEntry) : (d.bookTimer k e).fw = d.fw := rfl
@[simp] theorem Dev.bookTimer_tak (d : Dev) (k : Nat) (e : TaEntry) : (d.bookTimer k e).tak = d.tak := rfl
@[simp] theorem Dev.bookTimer_plc (d : Dev) (k : Nat) (e : TaEntry) : (d.bookTimer k e).plc = d.plc := rfl
@[simp] theorem Dev.bookTimer_fab (d : Dev) (k : Nat) (e : TaEntry) : (d.bookTimer k e).fab = d.fab := rfl
@[simp] theorem Dev.bookTimer_duo (d : Dev) (k : Nat) (e : TaEntry) : (d.bookTimer k e).duo = d.duo := rfl
@[simp] theorem Dev.bookTimer_dma (d : Dev) (k : Nat) (e : TaEntry) : (d.bookTimer k e).dma = d.dma := rfl
@[simp] theorem Dev.bookTimer_sec (d : Dev) (k : Nat) (e : TaEntry) : (d.bookTimer k e).sec = d.sec := rfl
@[simp] theorem Dev.bookTimer_out (d : Dev) (k : Nat) (e : TaEntry) : (d.bookTimer k e).out = d.out := rfl
@[simp] theorem Dev.bookTimer_readData (d : Dev) (k : Nat) (e : TaEntry) : (d.bookTimer k e).readData = d.readData := rfl
@[simp] theorem Dev.bookTimer_fld (d : Dev) (k : Nat) (e : TaEntry) (f1 : Fld) (w1 i1 j1 : Nat) : (d.bookTimer k e).fld f1 w1 i1 j1 = d.fld f1 w1 i1 j1 := rfl
@[simp] theorem Dev.bookTimer_wide (d : Dev) (k : Nat) (e : TaEntry) (y : Wide) (w1 i1 j1 : Nat) : (d.bookTimer k e).wide y w1 i1 j1 = d.wide y w1 i1 j1 := rfl
@[simp] theorem Dev.bookTimer_inSafe (d : Dev) (k : Nat) (e : TaEntry) (r1 : Reg) (w1 i1 j1 : Nat) : (d.bookTimer k e).inSafe r1 w1 i1 j1 = d.inSafe r1 w1 i1 j1 := rfl

@[simp] theorem Dev.dropTimer_sup (d : Dev) (k : Nat) : (d.dropTimer k).sup = d.sup := rfl
@[simp] theorem Dev.dropTimer_boot (d : Dev) (k : Nat) : (d.dropTimer k).boot = d.boot := rfl
@[simp] theorem Dev.dropTimer_flds (d : Dev) (k : Nat) : (d.dropTimer k).flds = d.flds := rfl
@[simp] theorem Dev.dropTimer_wides (d : Dev) (k : Nat) : (d.dropTimer k).wides = d.wides := rfl
@[simp] theorem Dev.dropTimer_safe (d : Dev) (k : Nat) : (d.dropTimer k).safe = d.safe := rfl
@[simp] theorem Dev.dropTimer_snaps (d : Dev) (k : Nat) : (d.dropTimer k).snaps = d.snaps := rfl
@[simp] theorem Dev.dropTimer_errlog (d : Dev) (k : Nat) : (d.dropTimer k).errlog = d.errlog := rfl
@[simp] theorem Dev.dropTimer_bkts (d : Dev) (k : Nat) : (d.dropTimer k).bkts = d.bkts := rfl
@[simp] theorem Dev.dropTimer_obs (d : Dev) (k : Nat) : (d.dropTimer k).obs = d.obs := rfl
@[simp] theorem Dev.dropTimer_net (d : Dev) (k : Nat) : (d.dropTimer k).net = d.net := rfl
@[simp] theorem Dev.dropTimer_fw (d : Dev) (k : Nat) : (d.dropTimer k).fw = d.fw := rfl
@[simp] theorem Dev.dropTimer_tak (d : Dev) (k : Nat) : (d.dropTimer k).tak = d.tak := rfl
@[simp] theorem Dev.dropTimer_plc (d : Dev) (k : Nat) : (d.dropTimer k).plc = d.plc := rfl
@[simp] theorem Dev.dropTimer_fab (d : Dev) (k : Nat) : (d.dropTimer k).fab = d.fab := rfl
@[simp] theorem Dev.dropTimer_duo (d : Dev) (k : Nat) : (d.dropTimer k).duo = d.duo := rfl
@[simp] theorem Dev.dropTimer_dma (d : Dev) (k : Nat) : (d.dropTimer k).dma = d.dma := rfl
@[simp] theorem Dev.dropTimer_sec (d : Dev) (k : Nat) : (d.dropTimer k).sec = d.sec := rfl
@[simp] theorem Dev.dropTimer_out (d : Dev) (k : Nat) : (d.dropTimer k).out = d.out := rfl
@[simp] theorem Dev.dropTimer_readData (d : Dev) (k : Nat) : (d.dropTimer k).readData = d.readData := rfl
@[simp] theorem Dev.dropTimer_fld (d : Dev) (k : Nat) (f1 : Fld) (w1 i1 j1 : Nat) : (d.dropTimer k).fld f1 w1 i1 j1 = d.fld f1 w1 i1 j1 := rfl
@[simp] theorem Dev.dropTimer_wide (d : Dev) (k : Nat) (y : Wide) (w1 i1 j1 : Nat) : (d.dropTimer k).wide y w1 i1 j1 = d.wide y w1 i1 j1 := rfl
@[simp] theorem Dev.dropTimer_inSafe (d : Dev) (k : Nat) (r1 : Reg) (w1 i1 j1 : Nat) : (d.dropTimer k).inSafe r1 w1 i1 j1 = d.inSafe r1 w1 i1 j1 := rfl

@[simp] theorem Dev.setIsl_sup (d : Dev) (n : Nat) (x : Island) : (d.setIsl n x).sup = d.sup := rfl
@[simp] theorem Dev.setIsl_boot (d : Dev) (n : Nat) (x : Island) : (d.setIsl n x).boot = d.boot := rfl
@[simp] theorem Dev.setIsl_flds (d : Dev) (n : Nat) (x : Island) : (d.setIsl n x).flds = d.flds := rfl
@[simp] theorem Dev.setIsl_wides (d : Dev) (n : Nat) (x : Island) : (d.setIsl n x).wides = d.wides := rfl
@[simp] theorem Dev.setIsl_safe (d : Dev) (n : Nat) (x : Island) : (d.setIsl n x).safe = d.safe := rfl
@[simp] theorem Dev.setIsl_snaps (d : Dev) (n : Nat) (x : Island) : (d.setIsl n x).snaps = d.snaps := rfl
@[simp] theorem Dev.setIsl_errlog (d : Dev) (n : Nat) (x : Island) : (d.setIsl n x).errlog = d.errlog := rfl
@[simp] theorem Dev.setIsl_bkts (d : Dev) (n : Nat) (x : Island) : (d.setIsl n x).bkts = d.bkts := rfl
@[simp] theorem Dev.setIsl_obs (d : Dev) (n : Nat) (x : Island) : (d.setIsl n x).obs = d.obs := rfl
@[simp] theorem Dev.setIsl_net (d : Dev) (n : Nat) (x : Island) : (d.setIsl n x).net = d.net := rfl
@[simp] theorem Dev.setIsl_fw (d : Dev) (n : Nat) (x : Island) : (d.setIsl n x).fw = d.fw := rfl
@[simp] theorem Dev.setIsl_tak (d : Dev) (n : Nat) (x : Island) : (d.setIsl n x).tak = d.tak := rfl
@[simp] theorem Dev.setIsl_plc (d : Dev) (n : Nat) (x : Island) : (d.setIsl n x).plc = d.plc := rfl
@[simp] theorem Dev.setIsl_fab (d : Dev) (n : Nat) (x : Island) : (d.setIsl n x).fab = d.fab := rfl
@[simp] theorem Dev.setIsl_duo (d : Dev) (n : Nat) (x : Island) : (d.setIsl n x).duo = d.duo := rfl
@[simp] theorem Dev.setIsl_dma (d : Dev) (n : Nat) (x : Island) : (d.setIsl n x).dma = d.dma := rfl
@[simp] theorem Dev.setIsl_sec (d : Dev) (n : Nat) (x : Island) : (d.setIsl n x).sec = d.sec := rfl
@[simp] theorem Dev.setIsl_out (d : Dev) (n : Nat) (x : Island) : (d.setIsl n x).out = d.out := rfl
@[simp] theorem Dev.setIsl_readData (d : Dev) (n : Nat) (x : Island) : (d.setIsl n x).readData = d.readData := rfl
@[simp] theorem Dev.setIsl_fld (d : Dev) (n : Nat) (x : Island) (f1 : Fld) (w1 i1 j1 : Nat) : (d.setIsl n x).fld f1 w1 i1 j1 = d.fld f1 w1 i1 j1 := rfl
@[simp] theorem Dev.setIsl_wide (d : Dev) (n : Nat) (x : Island) (y : Wide) (w1 i1 j1 : Nat) : (d.setIsl n x).wide y w1 i1 j1 = d.wide y w1 i1 j1 := rfl
@[simp] theorem Dev.setIsl_inSafe (d : Dev) (n : Nat) (x : Island) (r1 : Reg) (w1 i1 j1 : Nat) : (d.setIsl n x).inSafe r1 w1 i1 j1 = d.inSafe r1 w1 i1 j1 := rfl

@[simp] theorem Dev.ppsOut_sup (d : Dev) (v : Bool) : (d.ppsOut v).sup = d.sup := rfl
@[simp] theorem Dev.ppsOut_boot (d : Dev) (v : Bool) : (d.ppsOut v).boot = d.boot := rfl
@[simp] theorem Dev.ppsOut_flds (d : Dev) (v : Bool) : (d.ppsOut v).flds = d.flds := rfl
@[simp] theorem Dev.ppsOut_wides (d : Dev) (v : Bool) : (d.ppsOut v).wides = d.wides := rfl
@[simp] theorem Dev.ppsOut_safe (d : Dev) (v : Bool) : (d.ppsOut v).safe = d.safe := rfl
@[simp] theorem Dev.ppsOut_snaps (d : Dev) (v : Bool) : (d.ppsOut v).snaps = d.snaps := rfl
@[simp] theorem Dev.ppsOut_errlog (d : Dev) (v : Bool) : (d.ppsOut v).errlog = d.errlog := rfl
@[simp] theorem Dev.ppsOut_bkts (d : Dev) (v : Bool) : (d.ppsOut v).bkts = d.bkts := rfl
@[simp] theorem Dev.ppsOut_obs (d : Dev) (v : Bool) : (d.ppsOut v).obs = d.obs := rfl
@[simp] theorem Dev.ppsOut_net (d : Dev) (v : Bool) : (d.ppsOut v).net = d.net := rfl
@[simp] theorem Dev.ppsOut_fw (d : Dev) (v : Bool) : (d.ppsOut v).fw = d.fw := rfl
@[simp] theorem Dev.ppsOut_tak (d : Dev) (v : Bool) : (d.ppsOut v).tak = d.tak := rfl
@[simp] theorem Dev.ppsOut_plc (d : Dev) (v : Bool) : (d.ppsOut v).plc = d.plc := rfl
@[simp] theorem Dev.ppsOut_fab (d : Dev) (v : Bool) : (d.ppsOut v).fab = d.fab := rfl
@[simp] theorem Dev.ppsOut_duo (d : Dev) (v : Bool) : (d.ppsOut v).duo = d.duo := rfl
@[simp] theorem Dev.ppsOut_dma (d : Dev) (v : Bool) : (d.ppsOut v).dma = d.dma := rfl
@[simp] theorem Dev.ppsOut_sec (d : Dev) (v : Bool) : (d.ppsOut v).sec = d.sec := rfl
@[simp] theorem Dev.ppsOut_out (d : Dev) (v : Bool) : (d.ppsOut v).out = d.out := rfl
@[simp] theorem Dev.ppsOut_readData (d : Dev) (v : Bool) : (d.ppsOut v).readData = d.readData := rfl
@[simp] theorem Dev.ppsOut_fld (d : Dev) (v : Bool) (f1 : Fld) (w1 i1 j1 : Nat) : (d.ppsOut v).fld f1 w1 i1 j1 = d.fld f1 w1 i1 j1 := rfl
@[simp] theorem Dev.ppsOut_wide (d : Dev) (v : Bool) (y : Wide) (w1 i1 j1 : Nat) : (d.ppsOut v).wide y w1 i1 j1 = d.wide y w1 i1 j1 := rfl
@[simp] theorem Dev.ppsOut_inSafe (d : Dev) (v : Bool) (r1 : Reg) (w1 i1 j1 : Nat) : (d.ppsOut v).inSafe r1 w1 i1 j1 = d.inSafe r1 w1 i1 j1 := rfl

@[simp] theorem Dev.setCommit_sup (d : Dev) (c : Commit) : (d.setCommit c).sup = d.sup := rfl
@[simp] theorem Dev.setCommit_boot (d : Dev) (c : Commit) : (d.setCommit c).boot = d.boot := rfl
@[simp] theorem Dev.setCommit_flds (d : Dev) (c : Commit) : (d.setCommit c).flds = d.flds := rfl
@[simp] theorem Dev.setCommit_wides (d : Dev) (c : Commit) : (d.setCommit c).wides = d.wides := rfl
@[simp] theorem Dev.setCommit_safe (d : Dev) (c : Commit) : (d.setCommit c).safe = d.safe := rfl
@[simp] theorem Dev.setCommit_snaps (d : Dev) (c : Commit) : (d.setCommit c).snaps = d.snaps := rfl
@[simp] theorem Dev.setCommit_errlog (d : Dev) (c : Commit) : (d.setCommit c).errlog = d.errlog := rfl
@[simp] theorem Dev.setCommit_bkts (d : Dev) (c : Commit) : (d.setCommit c).bkts = d.bkts := rfl
@[simp] theorem Dev.setCommit_obs (d : Dev) (c : Commit) : (d.setCommit c).obs = d.obs := rfl
@[simp] theorem Dev.setCommit_tm (d : Dev) (c : Commit) : (d.setCommit c).tm = d.tm := rfl
@[simp] theorem Dev.setCommit_net (d : Dev) (c : Commit) : (d.setCommit c).net = d.net := rfl
@[simp] theorem Dev.setCommit_fw (d : Dev) (c : Commit) : (d.setCommit c).fw = d.fw := rfl
@[simp] theorem Dev.setCommit_plc (d : Dev) (c : Commit) : (d.setCommit c).plc = d.plc := rfl
@[simp] theorem Dev.setCommit_fab (d : Dev) (c : Commit) : (d.setCommit c).fab = d.fab := rfl
@[simp] theorem Dev.setCommit_duo (d : Dev) (c : Commit) : (d.setCommit c).duo = d.duo := rfl
@[simp] theorem Dev.setCommit_dma (d : Dev) (c : Commit) : (d.setCommit c).dma = d.dma := rfl
@[simp] theorem Dev.setCommit_sec (d : Dev) (c : Commit) : (d.setCommit c).sec = d.sec := rfl
@[simp] theorem Dev.setCommit_out (d : Dev) (c : Commit) : (d.setCommit c).out = d.out := rfl
@[simp] theorem Dev.setCommit_readData (d : Dev) (c : Commit) : (d.setCommit c).readData = d.readData := rfl
@[simp] theorem Dev.setCommit_fld (d : Dev) (c : Commit) (f1 : Fld) (w1 i1 j1 : Nat) : (d.setCommit c).fld f1 w1 i1 j1 = d.fld f1 w1 i1 j1 := rfl
@[simp] theorem Dev.setCommit_wide (d : Dev) (c : Commit) (y : Wide) (w1 i1 j1 : Nat) : (d.setCommit c).wide y w1 i1 j1 = d.wide y w1 i1 j1 := rfl
@[simp] theorem Dev.setCommit_inSafe (d : Dev) (c : Commit) (r1 : Reg) (w1 i1 j1 : Nat) : (d.setCommit c).inSafe r1 w1 i1 j1 = d.inSafe r1 w1 i1 j1 := rfl

@[simp] theorem Dev.quiet_sup (d : Dev) : (d.quiet).sup = d.sup := rfl
@[simp] theorem Dev.quiet_boot (d : Dev) : (d.quiet).boot = d.boot := rfl
@[simp] theorem Dev.quiet_flds (d : Dev) : (d.quiet).flds = d.flds := rfl
@[simp] theorem Dev.quiet_wides (d : Dev) : (d.quiet).wides = d.wides := rfl
@[simp] theorem Dev.quiet_safe (d : Dev) : (d.quiet).safe = d.safe := rfl
@[simp] theorem Dev.quiet_snaps (d : Dev) : (d.quiet).snaps = d.snaps := rfl
@[simp] theorem Dev.quiet_errlog (d : Dev) : (d.quiet).errlog = d.errlog := rfl
@[simp] theorem Dev.quiet_bkts (d : Dev) : (d.quiet).bkts = d.bkts := rfl
@[simp] theorem Dev.quiet_obs (d : Dev) : (d.quiet).obs = d.obs := rfl
@[simp] theorem Dev.quiet_tm (d : Dev) : (d.quiet).tm = d.tm := rfl
@[simp] theorem Dev.quiet_net (d : Dev) : (d.quiet).net = d.net := rfl
@[simp] theorem Dev.quiet_fw (d : Dev) : (d.quiet).fw = d.fw := rfl
@[simp] theorem Dev.quiet_tak (d : Dev) : (d.quiet).tak = d.tak := rfl
@[simp] theorem Dev.quiet_plc (d : Dev) : (d.quiet).plc = d.plc := rfl
@[simp] theorem Dev.quiet_fab (d : Dev) : (d.quiet).fab = d.fab := rfl
@[simp] theorem Dev.quiet_duo (d : Dev) : (d.quiet).duo = d.duo := rfl
@[simp] theorem Dev.quiet_dma (d : Dev) : (d.quiet).dma = d.dma := rfl
@[simp] theorem Dev.quiet_sec (d : Dev) : (d.quiet).sec = d.sec := rfl
@[simp] theorem Dev.quiet_fld (d : Dev) (f1 : Fld) (w1 i1 j1 : Nat) : (d.quiet).fld f1 w1 i1 j1 = d.fld f1 w1 i1 j1 := rfl
@[simp] theorem Dev.quiet_wide (d : Dev) (y : Wide) (w1 i1 j1 : Nat) : (d.quiet).wide y w1 i1 j1 = d.wide y w1 i1 j1 := rfl
@[simp] theorem Dev.quiet_inSafe (d : Dev) (r1 : Reg) (w1 i1 j1 : Nat) : (d.quiet).inSafe r1 w1 i1 j1 = d.inSafe r1 w1 i1 j1 := rfl

end Sys2Proof.Machine
end

