-- ==== Sys2Proof/Laws/Events.lean ====
section
/-! SUPPORT. What raising an event and causing an interrupt leave unchanged: everything but the event rings with their
buckets and counts, the performance counters, the interrupt causes and what leaves the device. -/

namespace Sys2Proof.Machine

/-- d' differs from d only in what events change. -/
structure EvKeeps (d d' : Dev) : Prop where
  sup : d'.sup = d.sup
  boot : d'.boot = d.boot
  safe : d'.safe = d.safe
  snaps : d'.snaps = d.snaps
  errlog : d'.errlog = d.errlog
  tm : d'.tm = d.tm
  net : d'.net = d.net
  fw : d'.fw = d.fw
  tak : d'.tak = d.tak
  plc : d'.plc = d.plc
  fab : d'.fab = d.fab
  duo : d'.duo = d.duo
  dma : d'.dma = d.dma
  sec : d'.sec = d.sec
  readData : d'.readData = d.readData
  fld : ∀ f w i j, ¬ evFld f → d'.fld f w i j = d.fld f w i j
  wide : ∀ x w i j, ¬ evWide x → d'.wide x w i j = d.wide x w i j

theorem EvKeeps.refl (d : Dev) : EvKeeps d d :=
  ⟨rfl, rfl, rfl, rfl, rfl, rfl, rfl, rfl, rfl, rfl, rfl, rfl, rfl, rfl, rfl, fun _ _ _ _ _ => rfl, fun _ _ _ _ _ => rfl⟩

theorem EvKeeps.trans {a b c : Dev} (h : EvKeeps a b) (k : EvKeeps b c) : EvKeeps a c :=
  ⟨k.sup.trans h.sup, k.boot.trans h.boot, k.safe.trans h.safe, k.snaps.trans h.snaps, k.errlog.trans h.errlog,
    k.tm.trans h.tm, k.net.trans h.net, k.fw.trans h.fw, k.tak.trans h.tak, k.plc.trans h.plc, k.fab.trans h.fab,
    k.duo.trans h.duo, k.dma.trans h.dma, k.sec.trans h.sec, k.readData.trans h.readData,
    fun f w i j x => (k.fld f w i j x).trans (h.fld f w i j x), fun f w i j x => (k.wide f w i j x).trans (h.wide f w i j x)⟩

theorem EvKeeps.ite {d a b : Dev} {c : Prop} [Decidable c] (h : EvKeeps d a) (k : EvKeeps d b) :
    EvKeeps d (if c then a else b) := by split <;> assumption

theorem EvKeeps.setRing (d : Dev) (r : Nat) (x : Ring) : EvKeeps d (d.setRing r x) :=
  ⟨rfl, rfl, rfl, rfl, rfl, rfl, rfl, rfl, rfl, rfl, rfl, rfl, rfl, rfl, rfl, fun _ _ _ _ _ => rfl, fun _ _ _ _ _ => rfl⟩

theorem EvKeeps.setBucket (d : Dev) (k : BKey) (v : Int) : EvKeeps d (d.setBucket k v) :=
  ⟨rfl, rfl, rfl, rfl, rfl, rfl, rfl, rfl, rfl, rfl, rfl, rfl, rfl, rfl, rfl, fun _ _ _ _ _ => rfl, fun _ _ _ _ _ => rfl⟩

theorem EvKeeps.obs (d : Dev) (x : Obs) : EvKeeps d { d with obs := x } :=
  ⟨rfl, rfl, rfl, rfl, rfl, rfl, rfl, rfl, rfl, rfl, rfl, rfl, rfl, rfl, rfl, fun _ _ _ _ _ => rfl, fun _ _ _ _ _ => rfl⟩

theorem EvKeeps.out (d : Dev) (x : List Out) : EvKeeps d { d with out := x } :=
  ⟨rfl, rfl, rfl, rfl, rfl, rfl, rfl, rfl, rfl, rfl, rfl, rfl, rfl, rfl, rfl, fun _ _ _ _ _ => rfl, fun _ _ _ _ _ => rfl⟩

theorem EvKeeps.setFld (d : Dev) {f : Fld} (w i j v : Nat) (h : evFld f) : EvKeeps d (d.setFld f w i j v) :=
  ⟨rfl, rfl, rfl, rfl, rfl, rfl, rfl, rfl, rfl, rfl, rfl, rfl, rfl, rfl, rfl,
    fun g w' i' j' hg => by
      rw [Dev.fld_setFld, if_neg]
      rintro ⟨rfl, -⟩; exact hg h,
    fun _ _ _ _ _ => rfl⟩

theorem EvKeeps.setBit (d : Dev) {f : Fld} (w i j b : Nat) (h : evFld f) : EvKeeps d (d.setBit f w i j b) :=
  EvKeeps.setFld d w i j _ h

theorem EvKeeps.setWide (d : Dev) {x : Wide} (w i j v : Nat) (h : evWide x) : EvKeeps d (d.setWide x w i j v) :=
  ⟨rfl, rfl, rfl, rfl, rfl, rfl, rfl, rfl, rfl, rfl, rfl, rfl, rfl, rfl, rfl, fun _ _ _ _ _ => rfl,
    fun g w' i' j' hg => by
      rw [Dev.wide_setWide, if_neg]
      rintro ⟨rfl, -⟩; exact hg h⟩

theorem EvKeeps.bump (d : Dev) {x : Wide} (w i j n : Nat) (h : evWide x) : EvKeeps d (d.bump x w i j n) :=
  EvKeeps.setWide d w i j _ h

/-! ### Interrupts -/

theorem sendIrq_keeps (d : Dev) (v : Nat) : EvKeeps d (d.sendIrq v) := by
  unfold Dev.sendIrq
  exact .ite (.out _ _) (.setBit _ _ _ _ _ (by simp [evFld]))

theorem irq_keeps (d : Dev) (v : Nat) : EvKeeps d (d.irq v) := by
  have hb : EvKeeps d (d.setBit .hiIrqCauseLo_cause 0 0 0 v) := .setBit _ _ _ _ _ (by simp [evFld])
  unfold Dev.irq
  exact .ite (.ite (.refl _) (.ite (hb.trans (sendIrq_keeps _ _)) hb)) (.refl _)

/-! ### Events -/

theorem pushRec_keeps (d : Dev) (r : Nat) (e : EvRec) : EvKeeps d (d.pushRec r e) := by
  unfold Dev.pushRec
  split
  · exact .ite ((EvKeeps.setRing _ _ _).trans (.bump _ _ _ _ _ (by simp [evWide]))) (.setRing _ _ _)
  · exact .setRing _ _ _

theorem record_keeps (d : Dev) (r : Nat) (e : EvRec) : EvKeeps d (d.record r e) := by
  unfold Dev.record
  extract_lets x x1 x2 d1 d2 d3 d4 d5 y z z1
  have hd1 : EvKeeps d d1 := (EvKeeps.setRing d _ _).trans (.bump _ _ _ _ _ (by simp [evWide]))
  have hd2 : EvKeeps d d2 := .ite (hd1.trans (irq_keeps _ _)) hd1
  split
  · have h3 : EvKeeps d d3 := hd2.trans (.setBucket _ _ _)
    have h4 : EvKeeps d d4 := .ite h3 (h3.trans (.setBucket _ _ _))
    have h5 : EvKeeps d d5 := h4.trans (pushRec_keeps _ _ _)
    exact .ite (h5.trans (.out _ _)) h5
  · exact (hd2.trans (.setRing _ _ _)).trans (.bump _ _ _ _ _ (by simp [evWide]))
  · exact (hd2.trans (.setRing _ _ _)).trans (.bump _ _ _ _ _ (by simp [evWide]))

theorem openIncident_keeps (d : Dev) (r c : Nat) (l : List EvRec) : EvKeeps d (d.openIncident r c l) := by
  unfold Dev.openIncident
  refine EvKeeps.trans ?_ (record_keeps _ _ _)
  have h : ∀ x, EvKeeps d (((d.setRing r x).setFld .obRingStatus_incidentSticky (ringWin r) 0 0 1).setFld
      .obRingStatus_lastCause (ringWin r) 0 0 c) := fun x =>
    ((EvKeeps.setRing _ _ _).trans (.setFld _ _ _ _ _ (by simp [evFld]))).trans (.setFld _ _ _ _ _ (by simp [evFld]))
  exact .ite (h _) ((h _).trans (.bump _ _ _ _ _ (by simp [evWide])))

theorem raise0_keeps (d : Dev) (die code : Nat) (pl : List (Nat × Nat)) : EvKeeps d (d.raise0 die code pl) := by
  unfold Dev.raise0
  dsimp only
  apply EvKeeps.ite (record_keeps _ _ _)
  split
  · exact record_keeps _ _ _
  · exact (record_keeps _ _ _).trans (openIncident_keeps _ _ _ _)

theorem pmcAdd_keeps (die : Nat) : ∀ (fuel : Nat) (d : Dev) (k n : Nat), EvKeeps d (d.pmcAdd die fuel k n)
  | 0, d, _, _ => .refl d
  | fuel + 1, d, k, n => by
    have hw : EvKeeps d (d.setWide .obPmc (die + 1) k 0 (d.wide .obPmc (die + 1) k + n)) :=
      .setWide _ _ _ _ _ (by simp [evWide])
    have hb := hw.trans (EvKeeps.setBit _ (f := .obPmcStatus_ovf) (die + 1) 0 0 k (by simp [evFld]))
    unfold Dev.pmcAdd
    dsimp only
    apply EvKeeps.ite hw
    apply EvKeeps.ite (hb.trans (pmcAdd_keeps die fuel _ _ _))
    have hg : ∀ (c : Prop) [Decidable c] (a : Dev), EvKeeps d a →
        EvKeeps d (if c then a.setPd .obPmcCtl_globalEn die 0 else a) := fun c _ a ha =>
      .ite (ha.trans (EvKeeps.setFld _ _ _ _ _ (by simp [evFld]))) ha
    have := hg (d.pd .obPmcCtl_freezeOnOvf die = 1) _ hb
    apply EvKeeps.ite (hg _ _ hb)
    exact ((hg _ _ hb).trans (raise0_keeps _ _ _ _)).trans (.obs _ _)

theorem foldl_keeps {α : Type} (f : Dev → α → Dev) (h : ∀ d a, EvKeeps d (f d a)) :
    ∀ (l : List α) (d : Dev), EvKeeps d (l.foldl f d)
  | [], d => .refl d
  | a :: l, d => (h d a).trans (foldl_keeps f h l _)

theorem pmc_keeps (d : Dev) (die ev : Nat) (a b c : Option Nat) (n : Nat) : EvKeeps d (d.pmc die ev a b c n) :=
  foldl_keeps _ (fun _ _ => .ite (pmcAdd_keeps _ _ _ _ _) (.refl _)) _ _

theorem countRecords_keeps (d d0 : Dev) (r : Nat) : EvKeeps d (d.countRecords d0 r) :=
  .ite ((pmc_keeps _ _ _ _ _ _ _).trans (pmc_keeps _ _ _ _ _ _ _)) (.refl _)

theorem counted_keeps (d d0 : Dev) (r : Nat) : EvKeeps d (d.counted d0 r) :=
  (countRecords_keeps _ _ _).trans (countRecords_keeps _ _ _)

theorem raise_keeps (d : Dev) (die code : Nat) (pl : List (Nat × Nat)) : EvKeeps d (d.raise die code pl) := by
  unfold Dev.raise
  exact .ite (.refl _) ((raise0_keeps _ _ _ _).trans (counted_keeps _ _ _))

theorem beginIncident_keeps (d : Dev) (r c : Nat) (l : List EvRec) : EvKeeps d (d.beginIncident r c l) :=
  (openIncident_keeps _ _ _ _).trans (counted_keeps _ _ _)

theorem raiseOnce_keeps (d : Dev) (die code key : Nat) (pl : List (Nat × Nat)) :
    EvKeeps d (d.raiseOnce die code key pl) := by
  unfold Dev.raiseOnce
  exact .ite (.refl _) ((raise_keeps _ _ _ _).trans (.obs _ _))

/-! ### What stays after an event -/

@[simp] theorem Dev.raise_sup (d : Dev) (die code : Nat) (pl : List (Nat × Nat)) : (d.raise die code pl).sup = d.sup := (raise_keeps ..).sup
@[simp] theorem Dev.raise_boot (d : Dev) (die code : Nat) (pl : List (Nat × Nat)) : (d.raise die code pl).boot = d.boot := (raise_keeps ..).boot
@[simp] theorem Dev.raise_safe (d : Dev) (die code : Nat) (pl : List (Nat × Nat)) : (d.raise die code pl).safe = d.safe := (raise_keeps ..).safe
@[simp] theorem Dev.raise_snaps (d : Dev) (die code : Nat) (pl : List (Nat × Nat)) : (d.raise die code pl).snaps = d.snaps := (raise_keeps ..).snaps
@[simp] theorem Dev.raise_errlog (d : Dev) (die code : Nat) (pl : List (Nat × Nat)) : (d.raise die code pl).errlog = d.errlog := (raise_keeps ..).errlog
@[simp] theorem Dev.raise_tm (d : Dev) (die code : Nat) (pl : List (Nat × Nat)) : (d.raise die code pl).tm = d.tm := (raise_keeps ..).tm
@[simp] theorem Dev.raise_net (d : Dev) (die code : Nat) (pl : List (Nat × Nat)) : (d.raise die code pl).net = d.net := (raise_keeps ..).net
@[simp] theorem Dev.raise_fw (d : Dev) (die code : Nat) (pl : List (Nat × Nat)) : (d.raise die code pl).fw = d.fw := (raise_keeps ..).fw
@[simp] theorem Dev.raise_tak (d : Dev) (die code : Nat) (pl : List (Nat × Nat)) : (d.raise die code pl).tak = d.tak := (raise_keeps ..).tak
@[simp] theorem Dev.raise_plc (d : Dev) (die code : Nat) (pl : List (Nat × Nat)) : (d.raise die code pl).plc = d.plc := (raise_keeps ..).plc
@[simp] theorem Dev.raise_fab (d : Dev) (die code : Nat) (pl : List (Nat × Nat)) : (d.raise die code pl).fab = d.fab := (raise_keeps ..).fab
@[simp] theorem Dev.raise_duo (d : Dev) (die code : Nat) (pl : List (Nat × Nat)) : (d.raise die code pl).duo = d.duo := (raise_keeps ..).duo
@[simp] theorem Dev.raise_dma (d : Dev) (die code : Nat) (pl : List (Nat × Nat)) : (d.raise die code pl).dma = d.dma := (raise_keeps ..).dma
@[simp] theorem Dev.raise_sec (d : Dev) (die code : Nat) (pl : List (Nat × Nat)) : (d.raise die code pl).sec = d.sec := (raise_keeps ..).sec
@[simp] theorem Dev.raise_readData (d : Dev) (die code : Nat) (pl : List (Nat × Nat)) : (d.raise die code pl).readData = d.readData := (raise_keeps ..).readData
@[simp] theorem Dev.raise_fld (d : Dev) (die code : Nat) (pl : List (Nat × Nat)) (f : Fld) (w i j : Nat) (h : ¬ evFld f) :
    (d.raise die code pl).fld f w i j = d.fld f w i j := (raise_keeps ..).fld f w i j h
@[simp] theorem Dev.raise_wide (d : Dev) (die code : Nat) (pl : List (Nat × Nat)) (x : Wide) (w i j : Nat) (h : ¬ evWide x) :
    (d.raise die code pl).wide x w i j = d.wide x w i j := (raise_keeps ..).wide x w i j h
@[simp] theorem Dev.raise_inSafe (d : Dev) (die code : Nat) (pl : List (Nat × Nat)) (r : Reg) (w i j : Nat) :
    (d.raise die code pl).inSafe r w i j = d.inSafe r w i j := by simp [Dev.inSafe]

@[simp] theorem Dev.raiseOnce_sup (d : Dev) (die code key : Nat) (pl : List (Nat × Nat)) : (d.raiseOnce die code key pl).sup = d.sup := (raiseOnce_keeps ..).sup
@[simp] theorem Dev.raiseOnce_boot (d : Dev) (die code key : Nat) (pl : List (Nat × Nat)) : (d.raiseOnce die code key pl).boot = d.boot := (raiseOnce_keeps ..).boot
@[simp] theorem Dev.raiseOnce_safe (d : Dev) (die code key : Nat) (pl : List (Nat × Nat)) : (d.raiseOnce die code key pl).safe = d.safe := (raiseOnce_keeps ..).safe
@[simp] theorem Dev.raiseOnce_snaps (d : Dev) (die code key : Nat) (pl : List (Nat × Nat)) : (d.raiseOnce die code key pl).snaps = d.snaps := (raiseOnce_keeps ..).snaps
@[simp] theorem Dev.raiseOnce_errlog (d : Dev) (die code key : Nat) (pl : List (Nat × Nat)) : (d.raiseOnce die code key pl).errlog = d.errlog := (raiseOnce_keeps ..).errlog
@[simp] theorem Dev.raiseOnce_tm (d : Dev) (die code key : Nat) (pl : List (Nat × Nat)) : (d.raiseOnce die code key pl).tm = d.tm := (raiseOnce_keeps ..).tm
@[simp] theorem Dev.raiseOnce_net (d : Dev) (die code key : Nat) (pl : List (Nat × Nat)) : (d.raiseOnce die code key pl).net = d.net := (raiseOnce_keeps ..).net
@[simp] theorem Dev.raiseOnce_fw (d : Dev) (die code key : Nat) (pl : List (Nat × Nat)) : (d.raiseOnce die code key pl).fw = d.fw := (raiseOnce_keeps ..).fw
@[simp] theorem Dev.raiseOnce_tak (d : Dev) (die code key : Nat) (pl : List (Nat × Nat)) : (d.raiseOnce die code key pl).tak = d.tak := (raiseOnce_keeps ..).tak
@[simp] theorem Dev.raiseOnce_plc (d : Dev) (die code key : Nat) (pl : List (Nat × Nat)) : (d.raiseOnce die code key pl).plc = d.plc := (raiseOnce_keeps ..).plc
@[simp] theorem Dev.raiseOnce_fab (d : Dev) (die code key : Nat) (pl : List (Nat × Nat)) : (d.raiseOnce die code key pl).fab = d.fab := (raiseOnce_keeps ..).fab
@[simp] theorem Dev.raiseOnce_duo (d : Dev) (die code key : Nat) (pl : List (Nat × Nat)) : (d.raiseOnce die code key pl).duo = d.duo := (raiseOnce_keeps ..).duo
@[simp] theorem Dev.raiseOnce_dma (d : Dev) (die code key : Nat) (pl : List (Nat × Nat)) : (d.raiseOnce die code key pl).dma = d.dma := (raiseOnce_keeps ..).dma
@[simp] theorem Dev.raiseOnce_sec (d : Dev) (die code key : Nat) (pl : List (Nat × Nat)) : (d.raiseOnce die code key pl).sec = d.sec := (raiseOnce_keeps ..).sec
@[simp] theorem Dev.raiseOnce_readData (d : Dev) (die code key : Nat) (pl : List (Nat × Nat)) : (d.raiseOnce die code key pl).readData = d.readData := (raiseOnce_keeps ..).readData
@[simp] theorem Dev.raiseOnce_fld (d : Dev) (die code key : Nat) (pl : List (Nat × Nat)) (f : Fld) (w i j : Nat) (h : ¬ evFld f) :
    (d.raiseOnce die code key pl).fld f w i j = d.fld f w i j := (raiseOnce_keeps ..).fld f w i j h
@[simp] theorem Dev.raiseOnce_wide (d : Dev) (die code key : Nat) (pl : List (Nat × Nat)) (x : Wide) (w i j : Nat) (h : ¬ evWide x) :
    (d.raiseOnce die code key pl).wide x w i j = d.wide x w i j := (raiseOnce_keeps ..).wide x w i j h
@[simp] theorem Dev.raiseOnce_inSafe (d : Dev) (die code key : Nat) (pl : List (Nat × Nat)) (r : Reg) (w i j : Nat) :
    (d.raiseOnce die code key pl).inSafe r w i j = d.inSafe r w i j := by simp [Dev.inSafe]

@[simp] theorem Dev.irq_sup (d : Dev) (v : Nat) : (d.irq v).sup = d.sup := (irq_keeps ..).sup
@[simp] theorem Dev.irq_boot (d : Dev) (v : Nat) : (d.irq v).boot = d.boot := (irq_keeps ..).boot
@[simp] theorem Dev.irq_safe (d : Dev) (v : Nat) : (d.irq v).safe = d.safe := (irq_keeps ..).safe
@[simp] theorem Dev.irq_snaps (d : Dev) (v : Nat) : (d.irq v).snaps = d.snaps := (irq_keeps ..).snaps
@[simp] theorem Dev.irq_errlog (d : Dev) (v : Nat) : (d.irq v).errlog = d.errlog := (irq_keeps ..).errlog
@[simp] theorem Dev.irq_tm (d : Dev) (v : Nat) : (d.irq v).tm = d.tm := (irq_keeps ..).tm
@[simp] theorem Dev.irq_net (d : Dev) (v : Nat) : (d.irq v).net = d.net := (irq_keeps ..).net
@[simp] theorem Dev.irq_fw (d : Dev) (v : Nat) : (d.irq v).fw = d.fw := (irq_keeps ..).fw
@[simp] theorem Dev.irq_tak (d : Dev) (v : Nat) : (d.irq v).tak = d.tak := (irq_keeps ..).tak
@[simp] theorem Dev.irq_plc (d : Dev) (v : Nat) : (d.irq v).plc = d.plc := (irq_keeps ..).plc
@[simp] theorem Dev.irq_fab (d : Dev) (v : Nat) : (d.irq v).fab = d.fab := (irq_keeps ..).fab
@[simp] theorem Dev.irq_duo (d : Dev) (v : Nat) : (d.irq v).duo = d.duo := (irq_keeps ..).duo
@[simp] theorem Dev.irq_dma (d : Dev) (v : Nat) : (d.irq v).dma = d.dma := (irq_keeps ..).dma
@[simp] theorem Dev.irq_sec (d : Dev) (v : Nat) : (d.irq v).sec = d.sec := (irq_keeps ..).sec
@[simp] theorem Dev.irq_readData (d : Dev) (v : Nat) : (d.irq v).readData = d.readData := (irq_keeps ..).readData
@[simp] theorem Dev.irq_fld (d : Dev) (v : Nat) (f : Fld) (w i j : Nat) (h : ¬ evFld f) :
    (d.irq v).fld f w i j = d.fld f w i j := (irq_keeps ..).fld f w i j h
@[simp] theorem Dev.irq_wide (d : Dev) (v : Nat) (x : Wide) (w i j : Nat) (h : ¬ evWide x) :
    (d.irq v).wide x w i j = d.wide x w i j := (irq_keeps ..).wide x w i j h
@[simp] theorem Dev.irq_inSafe (d : Dev) (v : Nat) (r : Reg) (w i j : Nat) :
    (d.irq v).inSafe r w i j = d.inSafe r w i j := by simp [Dev.inSafe]

@[simp] theorem Dev.sendIrq_sup (d : Dev) (v : Nat) : (d.sendIrq v).sup = d.sup := (sendIrq_keeps ..).sup
@[simp] theorem Dev.sendIrq_boot (d : Dev) (v : Nat) : (d.sendIrq v).boot = d.boot := (sendIrq_keeps ..).boot
@[simp] theorem Dev.sendIrq_safe (d : Dev) (v : Nat) : (d.sendIrq v).safe = d.safe := (sendIrq_keeps ..).safe
@[simp] theorem Dev.sendIrq_snaps (d : Dev) (v : Nat) : (d.sendIrq v).snaps = d.snaps := (sendIrq_keeps ..).snaps
@[simp] theorem Dev.sendIrq_errlog (d : Dev) (v : Nat) : (d.sendIrq v).errlog = d.errlog := (sendIrq_keeps ..).errlog
@[simp] theorem Dev.sendIrq_tm (d : Dev) (v : Nat) : (d.sendIrq v).tm = d.tm := (sendIrq_keeps ..).tm
@[simp] theorem Dev.sendIrq_net (d : Dev) (v : Nat) : (d.sendIrq v).net = d.net := (sendIrq_keeps ..).net
@[simp] theorem Dev.sendIrq_fw (d : Dev) (v : Nat) : (d.sendIrq v).fw = d.fw := (sendIrq_keeps ..).fw
@[simp] theorem Dev.sendIrq_tak (d : Dev) (v : Nat) : (d.sendIrq v).tak = d.tak := (sendIrq_keeps ..).tak
@[simp] theorem Dev.sendIrq_plc (d : Dev) (v : Nat) : (d.sendIrq v).plc = d.plc := (sendIrq_keeps ..).plc
@[simp] theorem Dev.sendIrq_fab (d : Dev) (v : Nat) : (d.sendIrq v).fab = d.fab := (sendIrq_keeps ..).fab
@[simp] theorem Dev.sendIrq_duo (d : Dev) (v : Nat) : (d.sendIrq v).duo = d.duo := (sendIrq_keeps ..).duo
@[simp] theorem Dev.sendIrq_dma (d : Dev) (v : Nat) : (d.sendIrq v).dma = d.dma := (sendIrq_keeps ..).dma
@[simp] theorem Dev.sendIrq_sec (d : Dev) (v : Nat) : (d.sendIrq v).sec = d.sec := (sendIrq_keeps ..).sec
@[simp] theorem Dev.sendIrq_readData (d : Dev) (v : Nat) : (d.sendIrq v).readData = d.readData := (sendIrq_keeps ..).readData
@[simp] theorem Dev.sendIrq_fld (d : Dev) (v : Nat) (f : Fld) (w i j : Nat) (h : ¬ evFld f) :
    (d.sendIrq v).fld f w i j = d.fld f w i j := (sendIrq_keeps ..).fld f w i j h
@[simp] theorem Dev.sendIrq_wide (d : Dev) (v : Nat) (x : Wide) (w i j : Nat) (h : ¬ evWide x) :
    (d.sendIrq v).wide x w i j = d.wide x w i j := (sendIrq_keeps ..).wide x w i j h
@[simp] theorem Dev.sendIrq_inSafe (d : Dev) (v : Nat) (r : Reg) (w i j : Nat) :
    (d.sendIrq v).inSafe r w i j = d.inSafe r w i j := by simp [Dev.inSafe]

@[simp] theorem Dev.pmc_sup (d : Dev) (die ev : Nat) (a b c : Option Nat) (n : Nat) : (d.pmc die ev a b c n).sup = d.sup := (pmc_keeps ..).sup
@[simp] theorem Dev.pmc_boot (d : Dev) (die ev : Nat) (a b c : Option Nat) (n : Nat) : (d.pmc die ev a b c n).boot = d.boot := (pmc_keeps ..).boot
@[simp] theorem Dev.pmc_safe (d : Dev) (die ev : Nat) (a b c : Option Nat) (n : Nat) : (d.pmc die ev a b c n).safe = d.safe := (pmc_keeps ..).safe
@[simp] theorem Dev.pmc_snaps (d : Dev) (die ev : Nat) (a b c : Option Nat) (n : Nat) : (d.pmc die ev a b c n).snaps = d.snaps := (pmc_keeps ..).snaps
@[simp] theorem Dev.pmc_errlog (d : Dev) (die ev : Nat) (a b c : Option Nat) (n : Nat) : (d.pmc die ev a b c n).errlog = d.errlog := (pmc_keeps ..).errlog
@[simp] theorem Dev.pmc_tm (d : Dev) (die ev : Nat) (a b c : Option Nat) (n : Nat) : (d.pmc die ev a b c n).tm = d.tm := (pmc_keeps ..).tm
@[simp] theorem Dev.pmc_net (d : Dev) (die ev : Nat) (a b c : Option Nat) (n : Nat) : (d.pmc die ev a b c n).net = d.net := (pmc_keeps ..).net
@[simp] theorem Dev.pmc_fw (d : Dev) (die ev : Nat) (a b c : Option Nat) (n : Nat) : (d.pmc die ev a b c n).fw = d.fw := (pmc_keeps ..).fw
@[simp] theorem Dev.pmc_tak (d : Dev) (die ev : Nat) (a b c : Option Nat) (n : Nat) : (d.pmc die ev a b c n).tak = d.tak := (pmc_keeps ..).tak
@[simp] theorem Dev.pmc_plc (d : Dev) (die ev : Nat) (a b c : Option Nat) (n : Nat) : (d.pmc die ev a b c n).plc = d.plc := (pmc_keeps ..).plc
@[simp] theorem Dev.pmc_fab (d : Dev) (die ev : Nat) (a b c : Option Nat) (n : Nat) : (d.pmc die ev a b c n).fab = d.fab := (pmc_keeps ..).fab
@[simp] theorem Dev.pmc_duo (d : Dev) (die ev : Nat) (a b c : Option Nat) (n : Nat) : (d.pmc die ev a b c n).duo = d.duo := (pmc_keeps ..).duo
@[simp] theorem Dev.pmc_dma (d : Dev) (die ev : Nat) (a b c : Option Nat) (n : Nat) : (d.pmc die ev a b c n).dma = d.dma := (pmc_keeps ..).dma
@[simp] theorem Dev.pmc_sec (d : Dev) (die ev : Nat) (a b c : Option Nat) (n : Nat) : (d.pmc die ev a b c n).sec = d.sec := (pmc_keeps ..).sec
@[simp] theorem Dev.pmc_readData (d : Dev) (die ev : Nat) (a b c : Option Nat) (n : Nat) : (d.pmc die ev a b c n).readData = d.readData := (pmc_keeps ..).readData
@[simp] theorem Dev.pmc_fld (d : Dev) (die ev : Nat) (a b c : Option Nat) (n : Nat) (f : Fld) (w i j : Nat) (h : ¬ evFld f) :
    (d.pmc die ev a b c n).fld f w i j = d.fld f w i j := (pmc_keeps ..).fld f w i j h
@[simp] theorem Dev.pmc_wide (d : Dev) (die ev : Nat) (a b c : Option Nat) (n : Nat) (x : Wide) (w i j : Nat) (h : ¬ evWide x) :
    (d.pmc die ev a b c n).wide x w i j = d.wide x w i j := (pmc_keeps ..).wide x w i j h
@[simp] theorem Dev.pmc_inSafe (d : Dev) (die ev : Nat) (a b c : Option Nat) (n : Nat) (r : Reg) (w i j : Nat) :
    (d.pmc die ev a b c n).inSafe r w i j = d.inSafe r w i j := by simp [Dev.inSafe]

end Sys2Proof.Machine
end

