-- ==== Sys2Proof/Laws/Only.lean ====
section
/-! SUPPORT. How a piece of the device is shown to stay as it was: the steps by which `Only` is built up. -/

namespace Sys2Proof.Machine

def within {α : Type} [DecidableEq α] : Option (List α) → Option (List α) → Bool
  | _, none => true
  | none, some _ => false
  | some a, some b => a.all b.contains

theorem Only.refl {ps fs xs} (d : Dev) : Only ps fs xs d d :=
  ⟨fun p _ => by cases p <;> rfl, fun _ _ _ _ _ _ _ _ => rfl, fun _ _ _ _ _ _ _ _ => rfl⟩

theorem Part.same_trans {d t u : Dev} {p : Part} (h : p.same d t) (k : p.same t u) : p.same d u := by
  cases p <;> exact Eq.trans k h

theorem contains_false_of_all {α : Type} [DecidableEq α] {a b : List α} {x : α} (h : a.all b.contains = true)
    (k : b.contains x = false) : a.contains x = false := by
  rw [List.all_eq_true] at h
  cases e : a.contains x with
  | false => rfl
  | true => rw [List.contains_iff_mem] at e; exact absurd (h x e) (by rw [k]; decide)

theorem Only.step {ps qs fs gs xs ys} {d t u : Dev} (k : Only qs gs ys t u) (hp : qs.all ps.contains = true)
    (hf : within gs fs = true) (hx : within ys xs = true) (h : Only ps fs xs d t) : Only ps fs xs d u := by
  refine ⟨fun p hq => Part.same_trans (h.part p hq) (k.part p (contains_false_of_all hp hq)), ?_, ?_⟩
  · rintro l rfl f w i j hl he
    match gs, hf, k with
    | some g, hf, k => exact (k.fld g rfl f w i j (contains_false_of_all hf hl) he).trans (h.fld l rfl f w i j hl he)
  · rintro l rfl x w i j hl he
    match ys, hx, k with
    | some g, hx, k => exact (k.wide g rfl x w i j (contains_false_of_all hx hl) he).trans (h.wide l rfl x w i j hl he)

theorem Only.foldl {α : Type} {ps fs xs} {d t : Dev} (f : Dev → α → Dev) (h : ∀ e a, Only ps fs xs e (f e a)) (l :
      List α)
    (k : Only ps fs xs d t) : Only ps fs xs d (l.foldl f t) := by
  induction l generalizing t with
  | nil => exact k
  | cons a l ih =>
    refine ih (.step (h t a) ?_ ?_ ?_ k)
    · simp
    · cases fs <;> simp [within]
    · cases xs <;> simp [within]

theorem Only.ofEv {d t : Dev} (h : EvKeeps d t) : Only [.bkts, .obs] (some []) (some []) d t := by
  refine ⟨fun p hp => ?_, fun _ _ f w i j _ he => h.fld f w i j he, fun _ _ x w i j _ he => h.wide x w i j he⟩
  cases p
  case bkts => exact absurd hp (by decide)
  case obs => exact absurd hp (by decide)
  all_goals first
    | exact h.sup | exact h.boot | exact h.safe | exact h.snaps | exact h.errlog | exact h.tm | exact h.net | exact h.fw
    | exact h.tak | exact h.plc | exact h.fab | exact h.duo | exact h.dma | exact h.sec

theorem Dev.raise_only (d : Dev) (die code : Nat) (pl : List (Nat × Nat)) :
    Only [.bkts, .obs] (some []) (some []) d (d.raise die code pl) := .ofEv (raise_keeps ..)
theorem Dev.raiseOnce_only (d : Dev) (die code key : Nat) (pl : List (Nat × Nat)) :
    Only [.bkts, .obs] (some []) (some []) d (d.raiseOnce die code key pl) := .ofEv (raiseOnce_keeps ..)
theorem Dev.counted_only (d d0 : Dev) (r : Nat) :
    Only [.bkts, .obs] (some []) (some []) d (d.counted d0 r) := .ofEv (counted_keeps ..)
theorem Dev.beginIncident_only (d : Dev) (r c : Nat) (l : List EvRec) :
    Only [.bkts, .obs] (some []) (some []) d (d.beginIncident r c l) := .ofEv (beginIncident_keeps ..)
theorem Dev.pushRec_only (d : Dev) (r : Nat) (e : EvRec) :
    Only [.bkts, .obs] (some []) (some []) d (d.pushRec r e) := .ofEv (pushRec_keeps ..)
theorem Dev.pmc_only (d : Dev) (die ev : Nat) (a b c : Option Nat) (n : Nat) :
    Only [.bkts, .obs] (some []) (some []) d (d.pmc die ev a b c n) := .ofEv (pmc_keeps ..)

theorem Dev.setFld_only (d : Dev) (f : Fld) (w i j v : Nat) : Only [] (some [f]) (some []) d (d.setFld f w i j v) := by
  refine ⟨fun p _ => by cases p <;> rfl, ?_, fun _ _ _ _ _ _ _ _ => rfl⟩
  rintro l h g w' i' j' hg -
  cases h
  rw [Dev.fld_setFld, if_neg]
  rintro ⟨rfl, -⟩
  simp at hg
theorem Dev.setCd_only (d : Dev) (f : Fld) (v i j : Nat) : Only [] (some [f]) (some []) d (d.setCd f v i j) :=
      d.setFld_only ..
theorem Dev.setPd_only (d : Dev) (f : Fld) (n v i j : Nat) : Only [] (some [f]) (some []) d (d.setPd f n v i j) :=
  d.setFld_only ..
theorem Dev.setBit_only (d : Dev) (f : Fld) (w i j b : Nat) : Only [] (some [f]) (some []) d (d.setBit f w i j b) :=
  d.setFld_only ..
theorem Dev.clrBit_only (d : Dev) (f : Fld) (w i j b : Nat) : Only [] (some [f]) (some []) d (d.clrBit f w i j b) :=
  d.setFld_only ..
theorem Dev.setWide_only (d : Dev) (x : Wide) (w i j v : Nat) : Only [] (some []) (some [x]) d (d.setWide x w i j v)
      := by
  refine ⟨fun p _ => by cases p <;> rfl, fun _ _ _ _ _ _ _ _ => rfl, ?_⟩
  rintro l h y w' i' j' hg -
  cases h
  rw [Dev.wide_setWide, if_neg]
  rintro ⟨rfl, -⟩
  simp at hg
theorem Dev.bump_only (d : Dev) (x : Wide) (w i j n : Nat) : Only [] (some []) (some [x]) d (d.bump x w i j n) :=
  d.setWide_only ..

theorem Only.evFld' {ps fs xs} {d t : Dev} {f : Fld} (he : evFld f) (h : Only ps fs xs d t) (w i j v : Nat) :
    Only ps fs xs d (t.setFld f w i j v) := by
  refine ⟨fun p q => by have := h.part p q; cases p <;> exact this, ?_, ?_⟩
  · intro l e g w' i' j' hg hn
    rw [Dev.fld_setFld, if_neg (by rintro ⟨rfl, -⟩; exact hn he)]
    exact h.fld l e g w' i' j' hg hn
  · exact h.wide

theorem Only.evWide' {ps fs xs} {d t : Dev} {x : Wide} (he : evWide x) (h : Only ps fs xs d t) (w i j v : Nat) :
    Only ps fs xs d (t.setWide x w i j v) := by
  refine ⟨fun p q => by have := h.part p q; cases p <;> exact this, h.fld, ?_⟩
  intro l e g w' i' j' hg hn
  rw [Dev.wide_setWide, if_neg (by rintro ⟨rfl, -⟩; exact hn he)]
  exact h.wide l e g w' i' j' hg hn

theorem Only.foldlFst {α β : Type} {ps fs xs} {d : Dev} (f : Dev × β → α → Dev × β)
    (h : ∀ e a, Only ps fs xs e.1 (f e a).1) (l : List α) {t : Dev × β}
    (k : Only ps fs xs d t.1) : Only ps fs xs d (l.foldl f t).1 := by
  induction l generalizing t with
  | nil => exact k
  | cons a l ih =>
    refine ih (.step (h t a) ?_ ?_ ?_ k)
    · simp
    · cases fs <;> simp [within]
    · cases xs <;> simp [within]

theorem Only.foldlMem {α : Type} {ps fs xs} {d t : Dev} (f : Dev → α → Dev) (l : List α)
    (h : ∀ e, ∀ a ∈ l, Only ps fs xs e (f e a)) (k : Only ps fs xs d t) : Only ps fs xs d (l.foldl f t) := by
  induction l generalizing t with
  | nil => exact k
  | cons a l ih =>
    refine ih (fun e b hb => h e b (List.mem_cons_of_mem _ hb)) (.step (h t a List.mem_cons_self) ?_ ?_ ?_ k)
    · simp
    · cases fs <;> simp [within]
    · cases xs <;> simp [within]

/-- `Only` of the device there is. -/
def optOnly (ps : List Part) (fs : Option (List Fld)) (xs : Option (List Wide)) (d : Dev) : Option Dev → Prop
  | some t => Only ps fs xs d t
  | none => True
/-- `Only` of the device in the pair there is. -/
def optFstOnly {α : Type} (ps : List Part) (fs : Option (List Fld)) (xs : Option (List Wide)) (d : Dev) : Option (Dev
      × α) → Prop
  | some t => Only ps fs xs d t.1
  | none => True
/-- `Only` of the device a stage of a commit leaves. -/
def Staged.only (ps : List Part) (fs : Option (List Fld)) (xs : Option (List Wide)) (d : Dev) : Staged → Prop
  | .ok t _ => Only ps fs xs d t
  | _ => True
/-- `Only` of the device with which an instruction goes on. -/
def Eff.only (ps : List Part) (fs : Option (List Fld)) (xs : Option (List Wide)) (d : Dev) : Eff → Prop
  | .go t _ _ => Only ps fs xs d t
  | _ => True
theorem optOnly.of {ps fs xs} {d : Dev} {x : Option Dev} {t : Dev} (h : optOnly ps fs xs d x) (e : x = some t) :
    Only ps fs xs d t := by subst e; exact h
theorem optFstOnly.of {α : Type} {ps fs xs} {d : Dev} {x : Option (Dev × α)} {t : Dev × α} (h : optFstOnly ps fs xs d x)
    (e : x = some t) : Only ps fs xs d t.1 := by subst e; exact h
theorem Staged.only.of {ps fs xs} {d : Dev} {x : Staged} {t : Dev} {l : List Nat} (h : x.only ps fs xs d) (e : x = .ok
      t l) :
    Only ps fs xs d t := by subst e; exact h
theorem Eff.only.of {ps fs xs} {d : Dev} {x : Eff} {t : Dev} {g : Engine} {f : Frame} (h : x.only ps fs xs d)
    (e : x = .go t g f) : Only ps fs xs d t := by subst e; exact h
theorem Eff.only.go {ps fs xs} {d t : Dev} {g : Engine} {f : Frame} (h : Only ps fs xs d t) : Eff.only ps fs xs d (.go
      t g f) := h
theorem optOnly.some {ps fs xs} {d t : Dev} (h : Only ps fs xs d t) : optOnly ps fs xs d (some t) := h
theorem optFstOnly.some {α : Type} {ps fs xs} {d : Dev} {t : Dev × α} (h : Only ps fs xs d t.1) : optFstOnly ps fs xs
      d (some t) := h
theorem Staged.only.ok {ps fs xs} {d t : Dev} {l : List Nat} (h : Only ps fs xs d t) : Staged.only ps fs xs d (.ok t
      l) := h
theorem Staged.only.andThen {ps fs xs} {d : Dev} {x : Staged} {f : Dev → Staged} (h : x.only ps fs xs d)
    (k : ∀ e, (f e).only ps fs xs e) : (x.andThen f).only ps fs xs d := by
  cases x with
  | ok e l =>
    have h1 : Only ps fs xs d e := h
    have := k e
    simp only [Staged.andThen]
    cases hy : f e with
    | ok t u =>
      rw [hy] at this
      refine Only.step (show Only ps fs xs e t from this) ?_ ?_ ?_ h1
      · simp
      · cases fs <;> simp [within]
      · cases xs <;> simp [within]
    | _ => trivial
  | bad b => trivial
  | _ => simp only [Staged.andThen]; split <;> trivial
theorem Staged.only.andThen_const {ps fs xs} {d : Dev} {x y : Staged} (h : y.only ps fs xs d) :
    (x.andThen fun _ => y).only ps fs xs d := by
  cases x with
  | ok e l =>
    simp only [Staged.andThen]
    cases y with
    | ok t u => exact h
    | _ => trivial
  | bad b => trivial
  | _ => simp only [Staged.andThen]; split <;> trivial
theorem Staged.only.foldl {α : Type} {ps fs xs} {d : Dev} (f : Staged → α → Staged)
    (h : ∀ x a, x.only ps fs xs d → (f x a).only ps fs xs d) (l : List α) {x : Staged} (k : x.only ps fs xs d) :
    (l.foldl f x).only ps fs xs d := by
  induction l generalizing x with
  | nil => exact k
  | cons a l ih => exact ih (h x a k)
theorem optOnly.foldl {α : Type} {ps fs xs} {d : Dev} (f : Option Dev → α → Option Dev)
    (h : ∀ x a, optOnly ps fs xs d x → optOnly ps fs xs d (f x a)) (l : List α) {x : Option Dev} (k : optOnly ps fs xs
          d x) :
    optOnly ps fs xs d (l.foldl f x) := by
  induction l generalizing x with
  | nil => exact k
  | cons a l ih => exact ih (h x a k)
theorem optOnly.filter {ps fs xs} {d : Dev} {x : Option Dev} (p : Dev → Bool) (h : optOnly ps fs xs d x) :
    optOnly ps fs xs d (x.filter p) := by
  cases x with
  | none => trivial
  | some t => simp only [Option.filter]; split <;> trivial
theorem Staged.only.step {ps qs fs gs xs ys} {d t : Dev} {x : Staged} (k : x.only qs gs ys t) (hp : qs.all ps.contains
      = true)
    (hf : within gs fs = true) (hx : within ys xs = true) (h : Only ps fs xs d t) : x.only ps fs xs d := by
  cases x with
  | ok e l => exact Only.step (show Only qs gs ys t e from k) hp hf hx h
  | _ => trivial

theorem Dev.sendIrq_only (d : Dev) (v : Nat) : Only [] (some []) (some []) d (d.sendIrq v) := by
  unfold Dev.sendIrq
  split
  · exact ⟨fun p _ => by cases p <;> rfl, fun _ _ _ _ _ _ _ _ => rfl, fun _ _ _ _ _ _ _ _ => rfl⟩
  · exact .evFld' (by simp) (.refl _) ..
theorem Dev.irq_only (d : Dev) (v : Nat) : Only [] (some []) (some []) d (d.irq v) := by
  unfold Dev.irq
  split
  · split
    · exact .refl _
    · split
      · exact .step (Dev.sendIrq_only ..) rfl rfl rfl (.evFld' (by simp) (.refl _) ..)
      · exact .evFld' (by simp) (.refl _) ..
  · exact .refl _

/-- The device with its sup replaced. -/
def Dev.withSup (d : Dev) (x : Supply) : Dev := { d with sup := x }
theorem Dev.withSup_only (d : Dev) (x : Supply) : Only [.sup] (some []) (some []) d (d.withSup x) := by
  refine ⟨fun p h => ?_, fun _ _ _ _ _ _ _ _ => rfl, fun _ _ _ _ _ _ _ _ => rfl⟩
  cases p <;> first | rfl | exact absurd h (by decide)
/-- The device with its boot replaced. -/
def Dev.withBoot (d : Dev) (x : Boot) : Dev := { d with boot := x }
theorem Dev.withBoot_only (d : Dev) (x : Boot) : Only [.boot] (some []) (some []) d (d.withBoot x) := by
  refine ⟨fun p h => ?_, fun _ _ _ _ _ _ _ _ => rfl, fun _ _ _ _ _ _ _ _ => rfl⟩
  cases p <;> first | rfl | exact absurd h (by decide)
/-- The device with its safe replaced. -/
def Dev.withSafe (d : Dev) (x : List RKey) : Dev := { d with safe := x }
theorem Dev.withSafe_only (d : Dev) (x : List RKey) : Only [.safe] (some []) (some []) d (d.withSafe x) := by
  refine ⟨fun p h => ?_, fun _ _ _ _ _ _ _ _ => rfl, fun _ _ _ _ _ _ _ _ => rfl⟩
  cases p <;> first | rfl | exact absurd h (by decide)
/-- The device with its snaps replaced. -/
def Dev.withSnaps (d : Dev) (x : List (Nat × Snapshot)) : Dev := { d with snaps := x }
theorem Dev.withSnaps_only (d : Dev) (x : List (Nat × Snapshot)) : Only [.snaps] (some []) (some []) d (d.withSnaps x)
      := by
  refine ⟨fun p h => ?_, fun _ _ _ _ _ _ _ _ => rfl, fun _ _ _ _ _ _ _ _ => rfl⟩
  cases p <;> first | rfl | exact absurd h (by decide)
/-- The device with its errlog replaced. -/
def Dev.withErrlog (d : Dev) (x : List ErrEntry) : Dev := { d with errlog := x }
theorem Dev.withErrlog_only (d : Dev) (x : List ErrEntry) : Only [.errlog] (some []) (some []) d (d.withErrlog x) := by
  refine ⟨fun p h => ?_, fun _ _ _ _ _ _ _ _ => rfl, fun _ _ _ _ _ _ _ _ => rfl⟩
  cases p <;> first | rfl | exact absurd h (by decide)
/-- The device with its bkts replaced. -/
def Dev.withBkts (d : Dev) (x : List (BKey × Int)) : Dev := { d with bkts := x }
theorem Dev.withBkts_only (d : Dev) (x : List (BKey × Int)) : Only [.bkts] (some []) (some []) d (d.withBkts x) := by
  refine ⟨fun p h => ?_, fun _ _ _ _ _ _ _ _ => rfl, fun _ _ _ _ _ _ _ _ => rfl⟩
  cases p <;> first | rfl | exact absurd h (by decide)
/-- The device with its obs replaced. -/
def Dev.withObs (d : Dev) (x : Obs) : Dev := { d with obs := x }
theorem Dev.withObs_only (d : Dev) (x : Obs) : Only [.obs] (some []) (some []) d (d.withObs x) := by
  refine ⟨fun p h => ?_, fun _ _ _ _ _ _ _ _ => rfl, fun _ _ _ _ _ _ _ _ => rfl⟩
  cases p <;> first | rfl | exact absurd h (by decide)
/-- The device with its tm replaced. -/
def Dev.withTm (d : Dev) (x : Time) : Dev := { d with tm := x }
theorem Dev.withTm_only (d : Dev) (x : Time) : Only [.tm] (some []) (some []) d (d.withTm x) := by
  refine ⟨fun p h => ?_, fun _ _ _ _ _ _ _ _ => rfl, fun _ _ _ _ _ _ _ _ => rfl⟩
  cases p <;> first | rfl | exact absurd h (by decide)
/-- The device with its net replaced. -/
def Dev.withNet (d : Dev) (x : Net) : Dev := { d with net := x }
theorem Dev.withNet_only (d : Dev) (x : Net) : Only [.net] (some []) (some []) d (d.withNet x) := by
  refine ⟨fun p h => ?_, fun _ _ _ _ _ _ _ _ => rfl, fun _ _ _ _ _ _ _ _ => rfl⟩
  cases p <;> first | rfl | exact absurd h (by decide)
/-- The device with its fw replaced. -/
def Dev.withFw (d : Dev) (x : Vector Fw 4) : Dev := { d with fw := x }
theorem Dev.withFw_only (d : Dev) (x : Vector Fw 4) : Only [.fw] (some []) (some []) d (d.withFw x) := by
  refine ⟨fun p h => ?_, fun _ _ _ _ _ _ _ _ => rfl, fun _ _ _ _ _ _ _ _ => rfl⟩
  cases p <;> first | rfl | exact absurd h (by decide)
/-- The device with its tak replaced. -/
def Dev.withTak (d : Dev) (x : Takes) : Dev := { d with tak := x }
theorem Dev.withTak_only (d : Dev) (x : Takes) : Only [.tak] (some []) (some []) d (d.withTak x) := by
  refine ⟨fun p h => ?_, fun _ _ _ _ _ _ _ _ => rfl, fun _ _ _ _ _ _ _ _ => rfl⟩
  cases p <;> first | rfl | exact absurd h (by decide)
/-- The device with its plc replaced. -/
def Dev.withPlc (d : Dev) (x : Plc) : Dev := { d with plc := x }
theorem Dev.withPlc_only (d : Dev) (x : Plc) : Only [.plc] (some []) (some []) d (d.withPlc x) := by
  refine ⟨fun p h => ?_, fun _ _ _ _ _ _ _ _ => rfl, fun _ _ _ _ _ _ _ _ => rfl⟩
  cases p <;> first | rfl | exact absurd h (by decide)
/-- The device with its fab replaced. -/
def Dev.withFab (d : Dev) (x : Fab) : Dev := { d with fab := x }
theorem Dev.withFab_only (d : Dev) (x : Fab) : Only [.fab] (some []) (some []) d (d.withFab x) := by
  refine ⟨fun p h => ?_, fun _ _ _ _ _ _ _ _ => rfl, fun _ _ _ _ _ _ _ _ => rfl⟩
  cases p <;> first | rfl | exact absurd h (by decide)
/-- The device with its duo replaced. -/
def Dev.withDuo (d : Dev) (x : Duo) : Dev := { d with duo := x }
theorem Dev.withDuo_only (d : Dev) (x : Duo) : Only [.duo] (some []) (some []) d (d.withDuo x) := by
  refine ⟨fun p h => ?_, fun _ _ _ _ _ _ _ _ => rfl, fun _ _ _ _ _ _ _ _ => rfl⟩
  cases p <;> first | rfl | exact absurd h (by decide)
/-- The device with its dma replaced. -/
def Dev.withDma (d : Dev) (x : Dma) : Dev := { d with dma := x }
theorem Dev.withDma_only (d : Dev) (x : Dma) : Only [.dma] (some []) (some []) d (d.withDma x) := by
  refine ⟨fun p h => ?_, fun _ _ _ _ _ _ _ _ => rfl, fun _ _ _ _ _ _ _ _ => rfl⟩
  cases p <;> first | rfl | exact absurd h (by decide)
/-- The device with its sec replaced. -/
def Dev.withSec (d : Dev) (x : Sec) : Dev := { d with sec := x }
theorem Dev.withSec_only (d : Dev) (x : Sec) : Only [.sec] (some []) (some []) d (d.withSec x) := by
  refine ⟨fun p h => ?_, fun _ _ _ _ _ _ _ _ => rfl, fun _ _ _ _ _ _ _ _ => rfl⟩
  cases p <;> first | rfl | exact absurd h (by decide)
/-- The device with its out replaced. -/
def Dev.withOut (d : Dev) (x : List Out) : Dev := { d with out := x }
theorem Dev.withOut_only (d : Dev) (x : List Out) : Only [] (some []) (some []) d (d.withOut x) := by
  refine ⟨fun p h => ?_, fun _ _ _ _ _ _ _ _ => rfl, fun _ _ _ _ _ _ _ _ => rfl⟩
  cases p <;> first | rfl | exact absurd h (by decide)
/-- The device with its readData replaced. -/
def Dev.withReadData (d : Dev) (x : Option Nat) : Dev := { d with readData := x }
theorem Dev.withReadData_only (d : Dev) (x : Option Nat) : Only [] (some []) (some []) d (d.withReadData x) := by
  refine ⟨fun p h => ?_, fun _ _ _ _ _ _ _ _ => rfl, fun _ _ _ _ _ _ _ _ => rfl⟩
  cases p <;> first | rfl | exact absurd h (by decide)
theorem Dev.mk_bkts (d : Dev) (x0 : List (BKey × Int)) :
    { d with bkts := x0 } =
      (d.withBkts x0) := rfl
theorem Dev.mk_bkts_fw_plc (d : Dev) (x0 : List (BKey × Int)) (x1 : Vector Fw 4) (x2 : Plc) :
    { d with bkts := x0, fw := x1, plc := x2 } =
      (((d.withBkts x0).withFw x1).withPlc x2) := rfl
theorem Dev.mk_boot (d : Dev) (x0 : Boot) :
    { d with boot := x0 } =
      (d.withBoot x0) := rfl
theorem Dev.mk_dma (d : Dev) (x0 : Dma) :
    { d with dma := x0 } =
      (d.withDma x0) := rfl
theorem Dev.mk_dma_out (d : Dev) (x0 : Dma) (x1 : List Out) :
    { d with dma := x0, out := x1 } =
      ((d.withDma x0).withOut x1) := rfl
theorem Dev.mk_duo (d : Dev) (x0 : Duo) :
    { d with duo := x0 } =
      (d.withDuo x0) := rfl
theorem Dev.mk_errlog (d : Dev) (x0 : List ErrEntry) :
    { d with errlog := x0 } =
      (d.withErrlog x0) := rfl
theorem Dev.mk_fab (d : Dev) (x0 : Fab) :
    { d with fab := x0 } =
      (d.withFab x0) := rfl
theorem Dev.mk_fw (d : Dev) (x0 : Vector Fw 4) :
    { d with fw := x0 } =
      (d.withFw x0) := rfl
theorem Dev.mk_fw_plc (d : Dev) (x0 : Vector Fw 4) (x1 : Plc) :
    { d with fw := x0, plc := x1 } =
      ((d.withFw x0).withPlc x1) := rfl
theorem Dev.mk_net (d : Dev) (x0 : Net) :
    { d with net := x0 } =
      (d.withNet x0) := rfl
theorem Dev.mk_net_tak_plc (d : Dev) (x0 : Net) (x1 : Takes) (x2 : Plc) :
    { d with net := x0, tak := x1, plc := x2 } =
      (((d.withNet x0).withTak x1).withPlc x2) := rfl
theorem Dev.mk_obs (d : Dev) (x0 : Obs) :
    { d with obs := x0 } =
      (d.withObs x0) := rfl
theorem Dev.mk_obs_net (d : Dev) (x0 : Obs) (x1 : Net) :
    { d with obs := x0, net := x1 } =
      ((d.withObs x0).withNet x1) := rfl
theorem Dev.mk_obs_out (d : Dev) (x0 : Obs) (x1 : List Out) :
    { d with obs := x0, out := x1 } =
      ((d.withObs x0).withOut x1) := rfl
theorem Dev.mk_out (d : Dev) (x0 : List Out) :
    { d with out := x0 } =
      (d.withOut x0) := rfl
theorem Dev.mk_out_readData (d : Dev) (x0 : List Out) (x1 : Option Nat) :
    { d with out := x0, readData := x1 } =
      ((d.withOut x0).withReadData x1) := rfl
theorem Dev.mk_plc (d : Dev) (x0 : Plc) :
    { d with plc := x0 } =
      (d.withPlc x0) := rfl
theorem Dev.mk_readData (d : Dev) (x0 : Option Nat) :
    { d with readData := x0 } =
      (d.withReadData x0) := rfl
theorem Dev.mk_safe (d : Dev) (x0 : List RKey) :
    { d with safe := x0 } =
      (d.withSafe x0) := rfl
theorem Dev.mk_sec (d : Dev) (x0 : Sec) :
    { d with sec := x0 } =
      (d.withSec x0) := rfl
theorem Dev.mk_snaps (d : Dev) (x0 : List (Nat × Snapshot)) :
    { d with snaps := x0 } =
      (d.withSnaps x0) := rfl
theorem Dev.mk_sup (d : Dev) (x0 : Supply) :
    { d with sup := x0 } =
      (d.withSup x0) := rfl
theorem Dev.mk_sup_boot (d : Dev) (x0 : Supply) (x1 : Boot) :
    { d with sup := x0, boot := x1 } =
      ((d.withSup x0).withBoot x1) := rfl
theorem Dev.mk_tak (d : Dev) (x0 : Takes) :
    { d with tak := x0 } =
      (d.withTak x0) := rfl
theorem Dev.mk_tak_out (d : Dev) (x0 : Takes) (x1 : List Out) :
    { d with tak := x0, out := x1 } =
      ((d.withTak x0).withOut x1) := rfl
theorem Dev.mk_tm (d : Dev) (x0 : Time) :
    { d with tm := x0 } =
      (d.withTm x0) := rfl
theorem Dev.mk_tak_plc (d : Dev) (x0 : Takes) (x1 : Plc) :
    { d with tak := x0, plc := x1 } =
      ((d.withTak x0).withPlc x1) := rfl

end Sys2Proof.Machine
end

