-- ==== Sys2Proof/Laws/Frame1.lean ====
section
/-! SUPPORT. What the operations on the device may change, part 1: one lemma for each operation, the operations it rests on first. -/

namespace Sys2Proof.Machine

theorem Dev.abortEvent_only (d : Dev) (q : Nat) (cause : Nat) :
    Only [.bkts, .obs] (some []) (some []) d (Dev.abortEvent d q cause) := by
  unfold Dev.abortEvent
  try dsimp -proj only
  repeat' first
    | exact rfl
    | with_reducible first
        | exact .refl _ | apply Only.step (Dev.raiseOnce_only ..)

theorem Dev.setTx_only (d : Dev) (p : Nat) (x : PortTx) :
    Only [.net] (some []) (some []) d (Dev.setTx d p x) := by
  unfold Dev.setTx
  try simp -proj -zeta only [Dev.mk_net]
  try dsimp -proj only
  repeat' first
    | exact rfl
    | with_reducible first
        | exact .refl _ | apply Only.step (Dev.withNet_only ..)

theorem Dev.fpPfcDue_only (d : Dev) (p : Nat) (on : Nat) :
    Only [.net] (some []) (some []) d (Dev.fpPfcDue d p on) := by
  unfold Dev.fpPfcDue
  try dsimp -proj only
  repeat' first
    | exact rfl
    | with_reducible first
        | exact .refl _ | apply Only.step (Dev.setTx_only ..)
    | split

theorem Dev.bpTest_only (d : Dev) (p : Nat) :
    Only [.net] (some [.fpPortStatus_bpActive]) (some []) d (Dev.bpTest d p) := by
  unfold Dev.bpTest
  try dsimp -proj only
  repeat' first
    | exact rfl
    | with_reducible first
        | exact .refl _ | apply Only.step (Dev.fpPfcDue_only ..) | apply Only.step (Dev.setCd_only ..)
    | split

theorem Dev.countAccepted_only (d : Dev) (f : Frame) :
    Only [] (some []) none d (Dev.countAccepted d f) := by
  unfold Dev.countAccepted
  try dsimp -proj only
  repeat' first
    | exact rfl
    | with_reducible first
        | exact .refl _ | apply Only.step (Dev.bump_only ..) | refine .foldl _ ?_ _ ?_
    | (intro _ _; try dsimp -proj only)

theorem Dev.setFrame_only (d : Dev) (f : Frame) :
    Only [.net] (some []) (some []) d (Dev.setFrame d f) := by
  unfold Dev.setFrame
  try simp -proj -zeta only [Dev.mk_net]
  try dsimp -proj only
  repeat' first
    | exact rfl
    | with_reducible first
        | exact .refl _ | apply Only.step (Dev.withNet_only ..)

theorem Dev.countRed_only (d : Dev) (f : Frame) :
    Only [.bkts, .obs, .net, .plc] (some []) (some []) d (Dev.countRed d f) := by
  unfold Dev.countRed
  try simp -proj -zeta only [Dev.mk_plc]
  try dsimp -proj only
  repeat' first
    | exact rfl
    | with_reducible first
        | exact .refl _ | apply Only.step (Dev.raiseOnce_only ..) | apply Only.step (Dev.setFrame_only ..)
        | apply Only.step (Dev.withPlc_only ..)
    | split

theorem Dev.setFw_only (d : Dev) (n : Nat) (x : Fw) :
    Only [.fw] (some []) (some []) d (Dev.setFw d n x) := by
  unfold Dev.setFw
  try simp -proj -zeta only [Dev.mk_fw]
  try dsimp -proj only
  repeat' first
    | exact rfl
    | with_reducible first
        | exact .refl _ | apply Only.step (Dev.withFw_only ..)
    | split

theorem Dev.enqueue_only (d : Dev) (n : Nat) (r : LearnReq) :
    Only [.fw] (some []) (some [.fwLearnDrop]) d (Dev.enqueue d n r) := by
  unfold Dev.enqueue
  try dsimp -proj only
  repeat' first
    | exact rfl
    | with_reducible first
        | exact .refl _ | apply Only.step (Dev.bump_only ..) | apply Only.step (Dev.setFw_only ..)
    | split

theorem Dev.putEnt_only (d : Dev) (n : Nat) (i : Nat) (e : AddrEnt) :
    Only [.fw] (some []) (some []) d (Dev.putEnt d n i e) := by
  unfold Dev.putEnt
  try dsimp -proj only
  repeat' first
    | exact rfl
    | with_reducible first
        | exact .refl _ | apply Only.step (Dev.setFw_only ..)

theorem Dev.hitEnt_only (d : Dev) (n : Nat) (i : Nat) (e : AddrEnt) :
    Only [.fw] (some []) (some []) d (Dev.hitEnt d n i e) := by
  unfold Dev.hitEnt
  try dsimp -proj only
  repeat' first
    | exact rfl
    | with_reducible first
        | exact .refl _ | apply Only.step (Dev.putEnt_only ..)

theorem Dev.learn_only (d : Dev) (n : Nat) (r : LearnReq) :
    Only [.fw] (some []) (some [.fwLearnDrop]) d (Dev.learn d n r) := by
  unfold Dev.learn
  try dsimp -proj only
  repeat' first
    | exact rfl
    | with_reducible first
        | exact .refl _ | apply Only.step (Dev.enqueue_only ..) | apply Only.step (Dev.hitEnt_only ..)
    | split

theorem Dev.ingressLearn_only (d : Dev) (id : Nat) :
    Only [.net, .fw] (some []) (some [.fwLearnDrop]) d (Dev.ingressLearn d id) := by
  unfold Dev.ingressLearn
  try dsimp -proj only
  repeat' first
    | exact rfl
    | with_reducible first
        | exact .refl _ | apply Only.step (Dev.learn_only ..) | apply Only.step (Dev.setFrame_only ..)
    | split

theorem Dev.pauseDrop_only (d : Dev) (n : Nat) (inp : Nat) (c : Nat) :
    Only [.net] (some [.swPortStatus_xoff]) (some []) d (Dev.pauseDrop d n inp c) := by
  unfold Dev.pauseDrop
  try dsimp -proj only
  repeat' first
    | exact rfl
    | with_reducible first
        | exact .refl _ | apply Only.step (Dev.clrBit_only ..) | apply Only.step (Dev.setTx_only ..)
        | refine .foldl _ ?_ _ ?_
    | (intro _ _; try dsimp -proj only) | split

theorem Dev.pauseRaise_only (d : Dev) (n : Nat) (inp : Nat) (c : Nat) :
    Only [.bkts, .obs, .net] (some [.swPortStatus_xoff]) (some [.swDownBp]) d (Dev.pauseRaise d n inp c) := by
  unfold Dev.pauseRaise
  try dsimp -proj only
  repeat' first
    | exact rfl
    | with_reducible first
        | exact .refl _ | apply Only.step (Dev.bump_only ..) | apply Only.step (Dev.pmc_only ..)
        | apply Only.step (Dev.setBit_only ..) | apply Only.step (Dev.setTx_only ..) | refine .foldl _ ?_ _ ?_
    | (intro _ _; try dsimp -proj only) | split

theorem Dev.pauseTest_only (d : Dev) (n : Nat) (inp : Nat) (c : Nat) :
    Only [.bkts, .obs, .net] (some [.swPortStatus_xoff]) (some [.swDownBp]) d (Dev.pauseTest d n inp c) := by
  unfold Dev.pauseTest
  try dsimp -proj only
  repeat' first
    | exact rfl
    | with_reducible first
        | exact .refl _ | apply Only.step (Dev.pauseDrop_only ..) | apply Only.step (Dev.pauseRaise_only ..)
    | split

theorem Dev.pauseInput_only (d : Dev) (n : Nat) (inp : Nat) :
    Only [.bkts, .obs, .net] (some [.swPortStatus_downBp, .swPortStatus_xoff]) (some [.swDownBp]) d (Dev.pauseInput d
          n inp) := by
  unfold Dev.pauseInput
  try dsimp -proj only
  repeat' first
    | exact rfl
    | with_reducible first
        | exact .refl _ | apply Only.step (Dev.pauseTest_only ..) | apply Only.step (Dev.setPd_only ..)
        | refine .foldl _ ?_ _ ?_
    | (intro _ _; try dsimp -proj only) | split

theorem Dev.globalTest_only (d : Dev) (n : Nat) :
    Only [.bkts, .obs, .net] (some [.swPortStatus_downBp, .swPortStatus_xoff, .swStatus_globalXoff]) (some
          [.swDownBp]) d (Dev.globalTest d n) := by
  unfold Dev.globalTest
  try dsimp -proj only
  repeat' first
    | exact rfl
    | with_reducible first
        | exact .refl _ | apply Only.step (Dev.pauseInput_only ..) | apply Only.step (Dev.raise_only ..)
        | apply Only.step (Dev.setPd_only ..) | refine .foldl _ ?_ _ ?_
    | (intro _ _; try dsimp -proj only) | split

theorem Dev.cellTest_only (d : Dev) (n : Nat) (p : Nat) :
    Only [.bkts, .obs, .net] (some [.swPortStatus_downBp, .swPortStatus_xoff, .swStatus_globalXoff]) (some
          [.swDownBp]) d (Dev.cellTest d n p) := by
  unfold Dev.cellTest
  try dsimp -proj only
  repeat' first
    | exact rfl
    | with_reducible first
        | exact .refl _ | apply Only.step (Dev.globalTest_only ..) | apply Only.step (Dev.pauseInput_only ..)

theorem Dev.dropFrame_only (d : Dev) (id : Nat) :
    Only [.net] (some []) (some []) d (Dev.dropFrame d id) := by
  unfold Dev.dropFrame
  try simp -proj -zeta only [Dev.mk_net]
  try dsimp -proj only
  repeat' first
    | exact rfl
    | with_reducible first
        | exact .refl _ | apply Only.step (Dev.withNet_only ..)

theorem Dev.reap_only (d : Dev) (id : Nat) :
    Only [.bkts, .obs, .net] (some [.swPortStatus_downBp, .swPortStatus_xoff, .swStatus_globalXoff]) (some
          [.swDownBp]) d (Dev.reap d id) := by
  unfold Dev.reap
  try dsimp -proj only
  repeat' first
    | exact rfl
    | with_reducible first
        | exact .refl _ | apply Only.step (Dev.cellTest_only ..) | apply Only.step (Dev.dropFrame_only ..)
    | split

theorem Dev.bwAdd_only (d : Dev) (p : Nat) (tx : Bool) (len : Nat) :
    Only [.obs] (some []) (some []) d (Dev.bwAdd d p tx len) := by
  unfold Dev.bwAdd
  try simp -proj -zeta only [Dev.mk_obs]
  try dsimp -proj only
  repeat' first
    | exact rfl
    | with_reducible first
        | exact .refl _ | apply Only.step (Dev.withObs_only ..)
    | split

theorem Dev.stat_only (d : Dev) (p : Nat) (idx : Nat) (n : Nat) :
    Only [] (some []) (some [.obStat]) d (Dev.stat d p idx n) := by
  unfold Dev.stat
  try dsimp -proj only
  repeat' first
    | exact rfl
    | with_reducible first
        | exact .refl _ | apply Only.step (Dev.bump_only ..)
    | split

theorem Dev.rxStats_only (d : Dev) (p : Nat) (len : Nat) (mac : Nat) :
    Only [.obs] (some []) (some [.obStat]) d (Dev.rxStats d p len mac) := by
  unfold Dev.rxStats
  try dsimp -proj only
  repeat' first
    | exact rfl
    | with_reducible first
        | exact .refl _ | apply Only.step (Dev.bwAdd_only ..) | apply Only.step (Dev.stat_only ..)
    | split

theorem Dev.countFor_only (d : Dev) (f : Frame) (k : WKey) :
    Only [.net] (some []) none d (Dev.countFor d f k) := by
  unfold Dev.countFor
  try dsimp -proj only
  repeat' first
    | exact rfl
    | with_reducible first
        | exact .refl _ | apply Only.step (Dev.bump_only ..) | apply Only.step (Dev.setFrame_only ..)
    | split

theorem Dev.parityDrop_only (d : Dev) (f : Frame) (c : ClsRes) :
    Only [.net] (some []) none d (Dev.parityDrop d f c) := by
  unfold Dev.parityDrop
  try dsimp -proj only
  repeat' first
    | exact rfl
    | with_reducible first
        | exact .refl _ | apply Only.step (Dev.countFor_only ..) | apply Only.step (Dev.setFrame_only ..)

theorem Dev.alarmCl_only (d : Dev) (b : BadWord) :
    Only [.bkts, .obs] (some [.clInspectStatus_treeParitySticky, .clPipeStatus_paritySticky]) (some []) d (Dev.alarmCl
          d b) := by
  unfold Dev.alarmCl
  try dsimp -proj only
  repeat' first
    | exact rfl
    | with_reducible first
        | exact .refl _ | apply Only.step (Dev.raise_only ..) | apply Only.step (Dev.setPd_only ..)
    | split

theorem Dev.clParity_only (d : Dev) (f : Frame) (b : BadWord) :
    Only [.bkts, .obs] (some [.clInspectStatus_treeParitySticky, .clPipeStatus_paritySticky]) (some []) d
          (Dev.clParity d f b).1 := by
  unfold Dev.clParity
  try dsimp -proj only
  repeat' first
    | exact rfl
    | with_reducible first
        | exact .refl _ | apply Only.step (Dev.alarmCl_only ..)

theorem Dev.scan_only (d : Dev) (f : Frame) (c : ClsRes) (ended : Bool) (read : List BadWord) :
    optFstOnly [.bkts, .obs] (some [.clInspectStatus_treeParitySticky, .clPipeStatus_paritySticky]) (some []) d
          (Dev.scan d f c ended read) := by
  unfold Dev.scan
  try dsimp -proj only
  repeat' first
    | with_reducible first
        | refine optFstOnly.some ?_ | exact .refl _ | apply Only.step (Dev.clParity_only ..)
        | apply Only.step (Dev.pmc_only ..)
    | trivial | split

theorem Dev.slowNote_only (d : Dev) (n : Nat) (p : Nat) (k : Nat) :
    Only [.bkts, .obs] (some [.aeStatus_rateSticky, .clInspectStatus_scanWaitSticky, .clPipeStatus_rateSticky]) (some
          [.clScanWait]) d (Dev.slowNote d n p k) := by
  unfold Dev.slowNote
  try dsimp -proj only
  repeat' first
    | exact rfl
    | with_reducible first
        | exact .refl _ | apply Only.step (Dev.bump_only ..) | apply Only.step (Dev.raiseOnce_only ..)
        | apply Only.step (Dev.setBit_only ..) | apply Only.step (Dev.setPd_only ..)
    | split

theorem Dev.stall_only (d : Dev) (f : Frame) (k : Nat) :
    Only [.bkts, .obs, .net] (some [.aeStatus_rateSticky, .clInspectStatus_scanWaitSticky, .clPipeStatus_rateSticky,
          .swPortStatus_downBp, .swPortStatus_xoff, .swStatus_globalXoff]) (some [.clScanWait, .swDownBp]) d
          (Dev.stall d f k) := by
  unfold Dev.stall
  try dsimp -proj only
  repeat' first
    | exact rfl
    | with_reducible first
        | exact .refl _ | apply Only.step (Dev.cellTest_only ..) | apply Only.step (Dev.setFrame_only ..)
        | apply Only.step (Dev.slowNote_only ..)

theorem Dev.hostLoop_only (d : Dev) (f : Frame) :
    Only [.net] (some []) none d (Dev.hostLoop d f).1 := by
  unfold Dev.hostLoop
  try dsimp -proj only
  repeat' first
    | exact rfl
    | with_reducible first
        | exact .refl _ | apply Only.step (Dev.countFor_only ..) | apply Only.step (Dev.setFrame_only ..)
    | split

theorem Dev.outcome_only (d : Dev) (f : Frame) :
    Only [.net] (some []) none d (Dev.outcome d f) := by
  unfold Dev.outcome
  try dsimp -proj only
  repeat' first
    | exact rfl
    | with_reducible first
        | exact .refl _ | apply Only.step (Dev.countFor_only ..) | apply Only.step (Dev.hostLoop_only ..)
        | apply Only.step (Dev.setFrame_only ..)
    | split

theorem Dev.faultAction_only (d : Dev) (f : Frame) (act : Nat) (cause : Nat) :
    Only [.net] (some []) none d (Dev.faultAction d f act cause) := by
  unfold Dev.faultAction
  try dsimp -proj only
  repeat' first
    | exact rfl
    | with_reducible first
        | exact .refl _ | apply Only.step (Dev.hostLoop_only ..) | apply Only.step (Dev.outcome_only ..)
        | apply Only.step (Dev.setFrame_only ..)
    | split

theorem Dev.faultReport_only (d : Dev) (f : Frame) (cause : Nat) (addr : Nat) (prog : Nat) :
    Only [.bkts, .obs] (some [.aeFaultLast_addr, .aeFaultLast_cause, .aeFaultLast_prog, .aeStatus_faultSticky,
          .aeStatus_paritySticky]) (some [.aeCauseCount, .aeFaultCount]) d (Dev.faultReport d f cause addr prog) := by
  unfold Dev.faultReport
  try dsimp -proj only
  repeat' first
    | exact rfl
    | with_reducible first
        | exact .refl _ | apply Only.step (Dev.bump_only ..) | apply Only.step (Dev.pmc_only ..)
        | apply Only.step (Dev.raise_only ..) | apply Only.step (Dev.raiseOnce_only ..)
        | apply Only.step (Dev.setPd_only ..)
    | split

theorem Dev.drawBelow_only (d : Dev) (n : Nat) :
    Only [.net] (some []) (some []) d (Dev.drawBelow d n).2 := by
  unfold Dev.drawBelow
  try simp -proj -zeta only [Dev.mk_net]
  try dsimp -proj only
  repeat' first
    | exact rfl
    | with_reducible first
        | exact .refl _ | apply Only.step (Dev.withNet_only ..)

theorem Dev.sampleInterval_only (d : Dev) (n : Nat) :
    Only [.net] (some []) (some []) d (Dev.sampleInterval d n).2 := by
  unfold Dev.sampleInterval
  try dsimp -proj only
  repeat' first
    | exact rfl
    | with_reducible first
        | exact .refl _ | apply Only.step (Dev.drawBelow_only ..)
    | split

theorem Dev.sampleStart_only (d : Dev) (n : Nat) (p : Nat) :
    Only [.obs, .net] (some []) (some []) d (Dev.sampleStart d n p).2 := by
  unfold Dev.sampleStart
  try simp -proj -zeta only [Dev.mk_obs]
  try dsimp -proj only
  repeat' first
    | exact rfl
    | with_reducible first
        | exact .refl _ | apply Only.step (Dev.sampleInterval_only ..) | apply Only.step (Dev.withObs_only ..)
    | split

theorem Dev.startProgram_only (d : Dev) (f : Frame) :
    Only [.bkts, .obs, .net] (some [.aeFaultLast_addr, .aeFaultLast_cause, .aeFaultLast_prog, .aeStatus_faultSticky,
          .aeStatus_paritySticky]) none d (Dev.startProgram d f) := by
  unfold Dev.startProgram
  try simp -proj -zeta only [Dev.mk_net]
  try dsimp -proj only
  repeat' first
    | exact rfl
    | with_reducible first
        | exact .refl _ | apply Only.step (Dev.faultAction_only ..) | apply Only.step (Dev.faultReport_only ..)
        | apply Only.step (Dev.pmc_only ..) | apply Only.step (Dev.raise_only ..)
        | apply Only.step (Dev.sampleStart_only ..) | apply Only.step (Dev.setFrame_only ..)
        | apply Only.step (Dev.setPd_only ..) | apply Only.step (Dev.withNet_only ..)
    | split

theorem Dev.startOrWait_only (d : Dev) (f : Frame) :
    Only [.bkts, .obs, .net] (some [.aeFaultLast_addr, .aeFaultLast_cause, .aeFaultLast_prog, .aeStatus_faultSticky,
          .aeStatus_paritySticky, .aeStatus_rateSticky, .clInspectStatus_scanWaitSticky, .clPipeStatus_rateSticky,
          .swPortStatus_downBp, .swPortStatus_xoff, .swStatus_globalXoff]) none d (Dev.startOrWait d f) := by
  unfold Dev.startOrWait
  try dsimp -proj only
  repeat' first
    | exact rfl
    | with_reducible first
        | exact .refl _ | apply Only.step (Dev.setFrame_only ..) | apply Only.step (Dev.stall_only ..)
        | apply Only.step (Dev.startProgram_only ..)
    | split

theorem Dev.scanStep_only (d : Dev) (f : Frame) (read : List BadWord) :
    Only [.bkts, .obs, .net] (some [.aeFaultLast_addr, .aeFaultLast_cause, .aeFaultLast_prog, .aeStatus_faultSticky,
          .aeStatus_paritySticky, .aeStatus_rateSticky, .clInspectStatus_scanWaitSticky,
          .clInspectStatus_treeParitySticky, .clPipeStatus_paritySticky, .clPipeStatus_rateSticky,
          .swPortStatus_downBp, .swPortStatus_xoff, .swStatus_globalXoff]) none d (Dev.scanStep d f read) := by
  unfold Dev.scanStep
  try dsimp -proj only
  repeat' first
    | exact rfl
    | with_reducible first
        | exact .refl _ | apply Only.step (Dev.parityDrop_only ..)
        | apply Only.step (optFstOnly.of (Dev.scan_only ..) (by assumption)) | apply Only.step (Dev.setFrame_only ..)
        | apply Only.step (Dev.stall_only ..) | apply Only.step (Dev.startOrWait_only ..)
    | split

theorem Dev.countMatch_only (d : Dev) (n : Nat) (h : Nat) (id : Nat) :
    Only [.plc] (some []) (some []) d (Dev.countMatch d n h id) := by
  unfold Dev.countMatch
  try simp -proj -zeta only [Dev.mk_plc]
  try dsimp -proj only
  repeat' first
    | exact rfl
    | with_reducible first
        | exact .refl _ | apply Only.step (Dev.withPlc_only ..)

theorem Dev.search_only (d : Dev) (f : Frame) (read : List BadWord) :
    Only [.bkts, .obs, .plc] (some [.clInspectStatus_treeParitySticky, .clPipeStatus_paritySticky]) (some
          [.clMissCount]) d (Dev.search d f read).1 := by
  unfold Dev.search
  try dsimp -proj only
  repeat' first
    | exact rfl
    | with_reducible first
        | exact .refl _ | apply Only.step (Dev.bump_only ..) | apply Only.step (Dev.clParity_only ..)
        | apply Only.step (Dev.countMatch_only ..) | apply Only.step (Dev.pmc_only ..)
    | split

theorem Dev.lookStep_only (d : Dev) (f : Frame) (read : List BadWord) :
    Only [.bkts, .obs, .net, .plc] (some [.aeFaultLast_addr, .aeFaultLast_cause, .aeFaultLast_prog,
          .aeStatus_faultSticky, .aeStatus_paritySticky, .aeStatus_rateSticky, .clInspectStatus_scanWaitSticky,
          .clInspectStatus_treeParitySticky, .clPipeStatus_paritySticky, .clPipeStatus_rateSticky,
          .swPortStatus_downBp, .swPortStatus_xoff, .swStatus_globalXoff]) none d (Dev.lookStep d f read) := by
  unfold Dev.lookStep
  try dsimp -proj only
  repeat' first
    | exact rfl
    | with_reducible first
        | exact .refl _ | apply Only.step (Dev.parityDrop_only ..) | apply Only.step (Dev.scanStep_only ..)
        | apply Only.step (Dev.search_only ..) | apply Only.step (Dev.stall_only ..)
    | split

theorem Dev.graphAlarm_only (d : Dev) (n : Nat) (port : Nat) (addr : Nat) :
    Only [.bkts, .obs] (some [.psStatus_graphParitySticky]) (some []) d (Dev.graphAlarm d n port addr) := by
  unfold Dev.graphAlarm
  try dsimp -proj only
  repeat' first
    | exact rfl
    | with_reducible first
        | exact .refl _ | apply Only.step (Dev.raise_only ..) | apply Only.step (Dev.setPd_only ..)

theorem Dev.malCopy_only (d : Dev) (f : Frame) (a : MalAct) :
    Only [.bkts, .obs] (some [.psStatus_noSessionSticky]) (some [.psHostLoop]) d (Dev.malCopy d f a).1 := by
  unfold Dev.malCopy
  try dsimp -proj only
  repeat' first
    | exact rfl
    | with_reducible first
        | exact .refl _ | apply Only.step (Dev.bump_only ..) | apply Only.step (Dev.raise_only ..)
        | apply Only.step (Dev.setPd_only ..)
    | split

theorem Dev.malReport_only (d : Dev) (f : Frame) (a : MalAct) :
    Only [.bkts, .obs, .net] (some [.psPortStatus_exceededSticky, .psPortStatus_lastReason,
          .psPortStatus_malformedSticky]) (some [.psMalCount]) d (Dev.malReport d f a) := by
  unfold Dev.malReport
  try simp -proj -zeta only [Dev.mk_net]
  try dsimp -proj only
  repeat' first
    | exact rfl
    | with_reducible first
        | exact .refl _ | apply Only.step (Dev.bump_only ..) | apply Only.step (Dev.pmc_only ..)
        | apply Only.step (Dev.raise_only ..) | apply Only.step (Dev.setPd_only ..)
        | apply Only.step (Dev.withNet_only ..)
    | split

theorem Dev.malEarly_only (d : Dev) (f : Frame) (a : MalAct) :
    Only [.bkts, .obs, .net] (some [.psPortStatus_exceededSticky, .psPortStatus_lastReason,
          .psPortStatus_malformedSticky, .psStatus_noSessionSticky]) (some [.psHostLoop, .psMalCount]) d (Dev.malEarly
          d f a) := by
  unfold Dev.malEarly
  try dsimp -proj only
  repeat' first
    | exact rfl
    | with_reducible first
        | exact .refl _ | apply Only.step (Dev.malCopy_only ..) | apply Only.step (Dev.malReport_only ..)
        | apply Only.step (Dev.setFrame_only ..)
    | split

theorem Dev.verdict_only (d : Dev) (f : Frame) (r : ParseRes) :
    Only [.bkts, .obs, .net] (some [.psPortStatus_exceededSticky, .psPortStatus_lastReason,
          .psPortStatus_malformedSticky, .psStatus_graphParitySticky, .psStatus_noSessionSticky]) (some [.psHostLoop,
          .psMalCount]) d (Dev.verdict d f r) := by
  unfold Dev.verdict
  try dsimp -proj only
  repeat' first
    | exact rfl
    | with_reducible first
        | exact .refl _ | apply Only.step (Dev.graphAlarm_only ..) | apply Only.step (Dev.malEarly_only ..)
        | apply Only.step (Dev.setFrame_only ..)
    | split

theorem Dev.verdictSafe_only (d : Dev) (f : Frame) :
    Only [.bkts, .obs, .net] (some [.psPortStatus_exceededSticky, .psPortStatus_lastReason,
          .psPortStatus_malformedSticky, .psStatus_noSessionSticky]) (some [.psHostLoop, .psMalCount]) d
          (Dev.verdictSafe d f) := by
  unfold Dev.verdictSafe
  try dsimp -proj only
  repeat' first
    | exact rfl
    | with_reducible first
        | exact .refl _ | apply Only.step (Dev.malEarly_only ..) | apply Only.step (Dev.setFrame_only ..)
    | split

theorem Dev.parseNow_only (d : Dev) (f : Frame) (read : List BadWord) :
    Only [.bkts, .obs, .net, .plc] (some [.aeFaultLast_addr, .aeFaultLast_cause, .aeFaultLast_prog,
          .aeStatus_faultSticky, .aeStatus_paritySticky, .aeStatus_rateSticky, .clInspectStatus_scanWaitSticky,
          .clInspectStatus_treeParitySticky, .clPipeStatus_paritySticky, .clPipeStatus_rateSticky,
          .psPortStatus_exceededSticky, .psPortStatus_lastReason, .psPortStatus_malformedSticky,
          .psStatus_graphParitySticky, .psStatus_noSessionSticky, .swPortStatus_downBp, .swPortStatus_xoff,
          .swStatus_globalXoff]) none d (Dev.parseNow d f read) := by
  unfold Dev.parseNow
  try dsimp -proj only
  repeat' first
    | exact rfl
    | with_reducible first
        | exact .refl _ | apply Only.step (Dev.lookStep_only ..) | apply Only.step (Dev.pmc_only ..)
        | apply Only.step (Dev.verdict_only ..) | apply Only.step (Dev.verdictSafe_only ..)
    | split

theorem Dev.advance_only (d : Dev) (f : Frame) (read : List BadWord) :
    Only [.bkts, .obs, .net, .plc] (some [.aeFaultLast_addr, .aeFaultLast_cause, .aeFaultLast_prog,
          .aeStatus_faultSticky, .aeStatus_paritySticky, .aeStatus_rateSticky, .clInspectStatus_scanWaitSticky,
          .clInspectStatus_treeParitySticky, .clPipeStatus_paritySticky, .clPipeStatus_rateSticky,
          .psPortStatus_exceededSticky, .psPortStatus_lastReason, .psPortStatus_malformedSticky,
          .psStatus_graphParitySticky, .psStatus_noSessionSticky, .swPortStatus_downBp, .swPortStatus_xoff,
          .swStatus_globalXoff]) none d (Dev.advance d f read) := by
  unfold Dev.advance
  try dsimp -proj only
  repeat' first
    | exact rfl
    | with_reducible first
        | exact .refl _ | apply Only.step (Dev.lookStep_only ..) | apply Only.step (Dev.parseNow_only ..)
        | apply Only.step (Dev.scanStep_only ..) | apply Only.step (Dev.startOrWait_only ..)
    | split

theorem Dev.countAbort_only (d : Dev) (q : Nat) (cause : Nat) :
    Only [.bkts, .obs] (some []) (some [.swCtAbort]) d (Dev.countAbort d q cause) := by
  unfold Dev.countAbort
  try dsimp -proj only
  repeat' first
    | exact rfl
    | with_reducible first
        | exact .refl _ | apply Only.step (Dev.abortEvent_only ..) | apply Only.step (Dev.bump_only ..)

theorem Dev.idleTx_only (d : Dev) (q : Nat) :
    Only [.net] (some []) (some []) d (Dev.idleTx d q) := by
  unfold Dev.idleTx
  try dsimp -proj only
  repeat' first
    | exact rfl
    | with_reducible first
        | exact .refl _ | apply Only.step (Dev.setTx_only ..)

theorem Dev.setBucket_only (d : Dev) (k : BKey) (v : Int) :
    Only [.bkts] (some []) (some []) d (Dev.setBucket d k v) := by
  unfold Dev.setBucket
  try simp -proj -zeta only [Dev.mk_bkts]
  try dsimp -proj only
  repeat' first
    | exact rfl
    | with_reducible first
        | exact .refl _ | apply Only.step (Dev.withBkts_only ..)

theorem Dev.chargeTx_only (d : Dev) (q : Nat) (c : Nat) (wire : Nat) :
    Only [.bkts, .net] (some []) (some []) d (Dev.chargeTx d q c wire) := by
  unfold Dev.chargeTx
  try dsimp -proj only
  repeat' first
    | exact rfl
    | with_reducible first
        | exact .refl _ | apply Only.step (Dev.idleTx_only ..) | apply Only.step (Dev.setBucket_only ..)
        | apply Only.step (Dev.setTx_only ..)
    | split

theorem Dev.stopTx_only (d : Dev) (q : Nat) (c : Copy) :
    Only [.bkts, .net] (some []) (some []) d (Dev.stopTx d q c) := by
  unfold Dev.stopTx
  try dsimp -proj only
  repeat' first
    | exact rfl
    | with_reducible first
        | exact .refl _ | apply Only.step (Dev.chargeTx_only ..)

theorem Dev.capture_only (d : Dev) (n : Nat) (stamp : Nat) (port : Nat) (tag : Nat) (discarded : Bool) :
    Only [.bkts, .obs, .tm] (some [.tmDieStatus_capOverflowSticky]) (some [.tmCapOverflow]) d (Dev.capture d n stamp
          port tag discarded) := by
  unfold Dev.capture
  try simp -proj -zeta only [Dev.mk_tm]
  try dsimp -proj only
  repeat' first
    | exact rfl
    | with_reducible first
        | exact .refl _ | apply Only.step (Dev.bump_only ..) | apply Only.step (Dev.irq_only ..)
        | apply Only.step (Dev.raiseOnce_only ..) | apply Only.step (Dev.setPd_only ..)
        | apply Only.step (Dev.withTm_only ..)
    | split

theorem Dev.captureLost_only (d : Dev) (f : Frame) (port : Nat) :
    Only [.bkts, .obs, .tm] (some [.tmDieStatus_capOverflowSticky]) (some [.tmCapOverflow]) d (Dev.captureLost d f
          port) := by
  unfold Dev.captureLost
  try dsimp -proj only
  repeat' first
    | exact rfl
    | with_reducible first
        | exact .refl _ | apply Only.step (Dev.capture_only ..)
    | split

theorem Dev.setCopy_only (d : Dev) (c : Copy) :
    Only [.net] (some []) (some []) d (Dev.setCopy d c) := by
  unfold Dev.setCopy
  try simp -proj -zeta only [Dev.mk_net]
  try dsimp -proj only
  repeat' first
    | exact rfl
    | with_reducible first
        | exact .refl _ | apply Only.step (Dev.withNet_only ..)

theorem Dev.placeCopies_only (d : Dev) (x1 : List Copy) :
    Only [.net] (some []) (some []) d (Dev.placeCopies d x1) := by
  induction x1 generalizing d with
  | nil => exact .refl _
  | cons c cs ih =>
    unfold Dev.placeCopies
    split
    · exact .refl _
    · exact .step (ih ..) rfl rfl rfl (.step (Dev.setCopy_only ..) rfl rfl rfl (Dev.withNet_only d _))

theorem Dev.slotMeasure_only (d : Dev) (f : Frame) (c : Copy) :
    Only [.plc] (some []) (some []) d (Dev.slotMeasure d f c) := by
  unfold Dev.slotMeasure
  try simp -proj -zeta only [Dev.mk_plc]
  try dsimp -proj only
  repeat' first
    | exact rfl
    | with_reducible first
        | exact .refl _ | apply Only.step (Dev.withPlc_only ..)
    | split

theorem Dev.takeOut_only (d : Dev) (c : Copy) (sentOut : Bool) :
    Only [.bkts, .obs, .tm, .net, .plc] (some [.swPortStatus_downBp, .swPortStatus_xoff, .swStatus_globalXoff,
          .tmDieStatus_capOverflowSticky]) (some [.swDownBp, .tmCapOverflow]) d (Dev.takeOut d c sentOut) := by
  unfold Dev.takeOut
  try simp -proj -zeta only [Dev.mk_net]
  try dsimp -proj only
  repeat' first
    | exact rfl
    | with_reducible first
        | exact .refl _ | apply Only.step (Dev.captureLost_only ..) | apply Only.step (Dev.placeCopies_only ..)
        | apply Only.step (Dev.reap_only ..) | apply Only.step (Dev.slotMeasure_only ..)
        | apply Only.step (Dev.withNet_only ..)
    | split

theorem Dev.endBad_only (d : Dev) (f : Frame) (c : Copy) (cause : Nat) :
    Only [.bkts, .obs, .tm, .net, .plc] (some [.swPortStatus_downBp, .swPortStatus_xoff, .swStatus_globalXoff,
          .tmDieStatus_capOverflowSticky]) (some [.swCtAbort, .swCtDiscard, .swDownBp, .tmCapOverflow]) d (Dev.endBad
          d f c cause) := by
  unfold Dev.endBad
  try simp -proj -zeta only [Dev.mk_out]
  try dsimp -proj only
  repeat' first
    | exact rfl
    | with_reducible first
        | exact .refl _ | apply Only.step (Dev.abortEvent_only ..) | apply Only.step (Dev.bump_only ..)
        | apply Only.step (Dev.countAbort_only ..) | apply Only.step (Dev.stopTx_only ..)
        | apply Only.step (Dev.takeOut_only ..) | apply Only.step (Dev.withOut_only ..)
    | split

theorem Dev.badOutcome_only (d : Dev) (id : Nat) (cause : Nat) :
    Only [.bkts, .obs, .tm, .net, .plc] (some [.swPortStatus_downBp, .swPortStatus_xoff, .swStatus_globalXoff,
          .tmDieStatus_capOverflowSticky]) (some [.swCtAbort, .swCtDiscard, .swDownBp, .tmCapOverflow]) d
          (Dev.badOutcome d id cause) := by
  unfold Dev.badOutcome
  try dsimp -proj only
  repeat' first
    | exact rfl
    | with_reducible first
        | exact .refl _ | apply Only.step (Dev.endBad_only ..) | refine .foldl _ ?_ _ ?_
    | (intro _ _; try dsimp -proj only) | split

theorem Dev.moveLast_only (d : Dev) (f : Frame) :
    Only [.net] (some []) (some []) d (Dev.moveLast d f) := by
  unfold Dev.moveLast
  try simp -proj -zeta only [Dev.mk_net]
  try dsimp -proj only
  repeat' first
    | exact rfl
    | with_reducible first
        | exact .refl _ | apply Only.step (Dev.withNet_only ..)

theorem Dev.verdictLate_only (d : Dev) (f : Frame) (reason : Nat) (idx : Nat) (off : Nat) :
    Only [.bkts, .obs, .tm, .net, .plc] (some [.psPortStatus_exceededSticky, .psPortStatus_lastReason,
          .psPortStatus_malformedSticky, .psStatus_noSessionSticky, .swPortStatus_downBp, .swPortStatus_xoff,
          .swStatus_globalXoff, .tmDieStatus_capOverflowSticky]) (some [.psHostLoop, .psMalCount, .swCtAbort,
          .swCtDiscard, .swDownBp, .tmCapOverflow]) d (Dev.verdictLate d f reason idx off) := by
  unfold Dev.verdictLate
  try dsimp -proj only
  repeat' first
    | exact rfl
    | with_reducible first
        | exact .refl _ | apply Only.step (Dev.badOutcome_only ..) | apply Only.step (Dev.malCopy_only ..)
        | apply Only.step (Dev.malReport_only ..) | apply Only.step (Dev.moveLast_only ..)
        | apply Only.step (Dev.setFrame_only ..)
    | split

theorem Dev.tailLate_only (d : Dev) (f : Frame) :
    Only [.bkts, .obs, .tm, .net, .plc] (some [.psPortStatus_exceededSticky, .psPortStatus_lastReason,
          .psPortStatus_malformedSticky, .psStatus_noSessionSticky, .swPortStatus_downBp, .swPortStatus_xoff,
          .swStatus_globalXoff, .tmDieStatus_capOverflowSticky]) (some [.psHostLoop, .psMalCount, .swCtAbort,
          .swCtDiscard, .swDownBp, .tmCapOverflow]) d (Dev.tailLate d f) := by
  unfold Dev.tailLate
  try dsimp -proj only
  repeat' first
    | exact rfl
    | with_reducible first
        | exact .refl _ | apply Only.step (Dev.verdictLate_only ..)
    | split

theorem Dev.tailChecks_only (d : Dev) (f : Frame) (read : List BadWord) :
    Only [.bkts, .obs, .tm, .net, .plc] (some [.aeFaultLast_addr, .aeFaultLast_cause, .aeFaultLast_prog,
          .aeStatus_faultSticky, .aeStatus_paritySticky, .aeStatus_rateSticky, .clInspectStatus_scanWaitSticky,
          .clInspectStatus_treeParitySticky, .clPipeStatus_paritySticky, .clPipeStatus_rateSticky,
          .psPortStatus_exceededSticky, .psPortStatus_lastReason, .psPortStatus_malformedSticky,
          .psStatus_graphParitySticky, .psStatus_noSessionSticky, .swPortStatus_downBp, .swPortStatus_xoff,
          .swStatus_globalXoff, .tmDieStatus_capOverflowSticky]) none d (Dev.tailChecks d f read) := by
  unfold Dev.tailChecks
  try dsimp -proj only
  repeat' first
    | exact rfl
    | with_reducible first
        | exact .refl _ | apply Only.step (Dev.advance_only ..) | apply Only.step (Dev.malEarly_only ..)
        | apply Only.step (Dev.tailLate_only ..)
    | split

theorem Dev.tailHost_only (d : Dev) (id : Nat) :
    Only [.net] (some []) (some []) d (Dev.tailHost d id) := by
  unfold Dev.tailHost
  try dsimp -proj only
  repeat' first
    | exact rfl
    | with_reducible first
        | exact .refl _ | apply Only.step (Dev.moveLast_only ..) | apply Only.step (Dev.setFrame_only ..)
    | split

theorem Dev.tailKnown_only (d : Dev) (id : Nat) :
    Only [.net] (some []) none d (Dev.tailKnown d id) := by
  unfold Dev.tailKnown
  try dsimp -proj only
  repeat' first
    | exact rfl
    | with_reducible first
        | exact .refl _ | apply Only.step (Dev.bump_only ..) | apply Only.step (Dev.setFrame_only ..)
        | refine .foldl _ ?_ _ ?_
    | (intro _ _; try dsimp -proj only) | split

theorem Dev.accept_only (d : Dev) (f : Frame) (read : List BadWord) :
    Only [.bkts, .obs, .tm, .net, .fw, .plc] (some [.aeFaultLast_addr, .aeFaultLast_cause, .aeFaultLast_prog,
          .aeStatus_faultSticky, .aeStatus_paritySticky, .aeStatus_rateSticky, .clInspectStatus_scanWaitSticky,
          .clInspectStatus_treeParitySticky, .clPipeStatus_paritySticky, .clPipeStatus_rateSticky,
          .fpPortStatus_bpActive, .psPortStatus_exceededSticky, .psPortStatus_lastReason,
          .psPortStatus_malformedSticky, .psStatus_graphParitySticky, .psStatus_noSessionSticky, .swPortStatus_downBp,
          .swPortStatus_xoff, .swStatus_globalXoff, .tmDieStatus_capOverflowSticky]) none d (Dev.accept d f read) :=
          by
  unfold Dev.accept
  try dsimp -proj only
  repeat' first
    | exact rfl
    | with_reducible first
        | exact .refl _ | apply Only.step (Dev.bpTest_only ..) | apply Only.step (Dev.countAccepted_only ..)
        | apply Only.step (Dev.countRed_only ..) | apply Only.step (Dev.ingressLearn_only ..)
        | apply Only.step (Dev.reap_only ..) | apply Only.step (Dev.rxStats_only ..)
        | apply Only.step (Dev.setFrame_only ..) | apply Only.step (Dev.tailChecks_only ..)
        | apply Only.step (Dev.tailHost_only ..) | apply Only.step (Dev.tailKnown_only ..)
    | split

theorem Dev.dropTimer_only (d : Dev) (i : Nat) :
    Only [.tm] (some []) (some []) d (Dev.dropTimer d i) := by
  unfold Dev.dropTimer
  try simp -proj -zeta only [Dev.mk_tm]
  try dsimp -proj only
  repeat' first
    | exact rfl
    | with_reducible first
        | exact .refl _ | apply Only.step (Dev.withTm_only ..)

theorem Dev.dropCommit_only (d : Dev) (c : Commit) :
    Only [.tm, .tak] (some []) (some []) d (Dev.dropCommit d c) := by
  unfold Dev.dropCommit
  try simp -proj -zeta only [Dev.mk_tak]
  try dsimp -proj only
  repeat' first
    | exact rfl
    | with_reducible first
        | exact .refl _ | apply Only.step (Dev.dropTimer_only ..) | apply Only.step (Dev.withTak_only ..)
    | split

theorem Dev.tkCode_only (d : Dev) (code : Nat) :
    Only [] (some [.tkStatus_code]) (some []) d (Dev.tkCode d code) := by
  unfold Dev.tkCode
  try dsimp -proj only
  repeat' first
    | exact rfl
    | with_reducible first
        | exact .refl _ | apply Only.step (Dev.irq_only ..) | apply Only.step (Dev.setCd_only ..)

theorem Dev.endBatch_only (d : Dev) (code : Nat) (close : Bool) (late : Bool) :
    Only [.tak] (some [.tkCtl_commit, .tkStatus_batchOpen, .tkStatus_code, .tkStatus_late]) (some []) d (Dev.endBatch
          d code close late) := by
  unfold Dev.endBatch
  try simp -proj -zeta only [Dev.mk_tak]
  try dsimp -proj only
  repeat' first
    | exact rfl
    | with_reducible first
        | exact .refl _ | apply Only.step (Dev.setCd_only ..) | apply Only.step (Dev.tkCode_only ..)
        | apply Only.step (Dev.withTak_only ..)
    | split

theorem Dev.setCommit_only (d : Dev) (c : Commit) :
    Only [.tak] (some []) (some []) d (Dev.setCommit d c) := by
  unfold Dev.setCommit
  try simp -proj -zeta only [Dev.mk_tak]
  try dsimp -proj only
  repeat' first
    | exact rfl
    | with_reducible first
        | exact .refl _ | apply Only.step (Dev.withTak_only ..)

theorem Dev.activate_only (d : Dev) :
    Only [.tm, .tak] (some [.tkCtl_commit, .tkStatus_batchOpen, .tkStatus_code, .tkStatus_late]) (some []) d
          (Dev.activate d) := by
  unfold Dev.activate
  try dsimp -proj only
  repeat' first
    | exact rfl
    | with_reducible first
        | exact .refl _ | apply Only.step (Dev.dropCommit_only ..) | apply Only.step (Dev.endBatch_only ..)
        | apply Only.step (Dev.setCommit_only ..)
    | split

theorem Dev.addCopy_only (d : Dev) (c : Copy) :
    Only [.net] (some []) (some []) d (Dev.addCopy d c) := by
  unfold Dev.addCopy
  try simp -proj -zeta only [Dev.mk_net]
  try dsimp -proj only
  repeat' first
    | exact rfl
    | with_reducible first
        | exact .refl _ | apply Only.step (Dev.withNet_only ..)

theorem Dev.lnSet_only (d : Dev) (l : LaneId) (f : Fld) (v : Nat) : Only [] (some [f]) (some []) d (d.lnSet l f v) :=
  d.setFld_only ..

theorem Dev.lnEnd_only (d : Dev) (l : LaneId) (code : Nat) :
    Only [.bkts, .obs] (some [.lnTestStatus_code, .lnTestStatus_state]) (some []) d (Dev.lnEnd d l code) := by
  unfold Dev.lnEnd
  try dsimp -proj only
  repeat' first
    | exact rfl
    | with_reducible first
        | exact .refl _ | apply Only.step (Dev.lnSet_only ..) | apply Only.step (Dev.raise_only ..)

theorem Dev.lnBump_only (d : Dev) (l : LaneId) (x : Wide) (n : Nat) : Only [] (some []) (some [x]) d (d.lnBump l x n) :=
  d.bump_only ..

theorem Dev.lnCount_only (d : Dev) (l : LaneId) (c : Checked) :
    Only [] (some []) (some [.lnBitErrors, .lnBits, .lnSyncErrors]) d (Dev.lnCount d l c) := by
  unfold Dev.lnCount
  try dsimp -proj only
  repeat' first
    | exact rfl
    | with_reducible first
        | exact .refl _ | apply Only.step (Dev.lnBump_only ..)
    | split

theorem Dev.lnCounts_only (d : Dev) (l : LaneId) (near : Checked) (far : Checked) :
    Only [] (some []) (some [.lnBitErrors, .lnBits, .lnSyncErrors]) d (Dev.lnCounts d l near far) := by
  unfold Dev.lnCounts
  try dsimp -proj only
  repeat' first
    | exact rfl
    | with_reducible first
        | exact .refl _ | apply Only.step (Dev.lnCount_only ..)
    | split

theorem Dev.lnUnseen_only (d : Dev) (l : LaneId) :
    Only [.net] (some []) (some [.lnBitErrors, .lnBits, .lnSyncErrors]) d (Dev.lnUnseen d l) := by
  unfold Dev.lnUnseen
  try simp -proj -zeta only [Dev.mk_net]
  try dsimp -proj only
  repeat' first
    | exact rfl
    | with_reducible first
        | exact .refl _ | apply Only.step (Dev.lnCounts_only ..) | apply Only.step (Dev.withNet_only ..)

theorem Dev.lnCut_only (d : Dev) (l : LaneId) (code : Nat) :
    Only [.bkts, .obs, .net] (some [.lnTestStatus_code, .lnTestStatus_state]) (some [.lnBitErrors, .lnBits,
          .lnSyncErrors]) d (Dev.lnCut d l code) := by
  unfold Dev.lnCut
  try dsimp -proj only
  repeat' first
    | exact rfl
    | with_reducible first
        | exact .refl _ | apply Only.step (Dev.lnEnd_only ..) | apply Only.step (Dev.lnUnseen_only ..)
    | split

theorem Dev.endLaneRequests_only (d : Dev) (a : Nat) (b : Nat) (k : Nat) (code : Nat) :
    Only [.bkts, .obs, .net] (some [.fbLaneCtl_calibrate, .lnTestStatus_code, .lnTestStatus_state]) (some
          [.lnBitErrors, .lnBits, .lnSyncErrors]) d (Dev.endLaneRequests d a b k code) := by
  unfold Dev.endLaneRequests
  try dsimp -proj only
  repeat' first
    | exact rfl
    | with_reducible first
        | exact .refl _ | apply Only.step (Dev.lnCut_only ..) | apply Only.step (Dev.setPd_only ..)

theorem Dev.minServiceTest_only (d : Dev) (a : Nat) (b : Nat) (before : Nat) :
    Only [.bkts, .obs] (some [.fbLinkStatus_belowMinSticky]) (some []) d (Dev.minServiceTest d a b before) := by
  unfold Dev.minServiceTest
  try dsimp -proj only
  repeat' first
    | exact rfl
    | with_reducible first
        | exact .refl _ | apply Only.step (Dev.raise_only ..) | apply Only.step (Dev.setPd_only ..)
    | split

theorem Dev.setLaneX_only (d : Dev) (x : LaneX) :
    Only [.fab] (some []) (some []) d (Dev.setLaneX d x) := by
  unfold Dev.setLaneX
  try simp -proj -zeta only [Dev.mk_fab]
  try dsimp -proj only
  repeat' first
    | exact rfl
    | with_reducible first
        | exact .refl _ | apply Only.step (Dev.withFab_only ..)

theorem Dev.noteRemoval_only (d : Dev) (a : Nat) (b : Nat) (k : Nat) :
    Only [.bkts, .obs, .fab] (some [.fbLaneStatus_lastCause, .fbLaneStatus_removals]) (some []) d (Dev.noteRemoval d a
          b k) := by
  unfold Dev.noteRemoval
  try dsimp -proj only
  repeat' first
    | exact rfl
    | with_reducible first
        | exact .refl _ | apply Only.step (Dev.raise_only ..) | apply Only.step (Dev.setLaneX_only ..)
        | apply Only.step (Dev.setPd_only ..)
    | split

theorem Dev.setLane_only (d : Dev) (a : Nat) (b : Nat) (k : Nat) (v : Nat) :
    Only [] (some [.fbLaneStatus_state]) (some []) d (Dev.setLane d a b k v) := by
  unfold Dev.setLane
  try dsimp -proj only
  repeat' first
    | exact rfl
    | with_reducible first
        | exact .refl _ | apply Only.step (Dev.setPd_only ..)

theorem Dev.loseBegun_only (d : Dev) (a : Nat) (b : Nat) (k : Nat) :
    Only [.net] (some []) (some []) d (Dev.loseBegun d a b k) := by
  unfold Dev.loseBegun
  try simp -proj -zeta only [Dev.mk_net]
  try dsimp -proj only
  repeat' first
    | exact rfl
    | with_reducible first
        | exact .refl _ | apply Only.step (Dev.withNet_only ..)

theorem Dev.offer_only (d : Dev) (a : Nat) (b : Nat) :
    Only [.fab] (some [.fbLaneStatus_txIdle]) (some []) d (Dev.offer d a b) := by
  unfold Dev.offer
  try simp -proj -zeta only [Dev.mk_fab]
  try dsimp -proj only
  repeat' first
    | exact rfl
    | with_reducible first
        | exact .refl _ | apply Only.step (Dev.setPd_only ..) | apply Only.step (Dev.withFab_only ..)
        | refine .foldl _ ?_ _ ?_
    | (intro _ _; try dsimp -proj only) | split

theorem Dev.putFlight_only (d : Dev) (x : Flight) :
    Only [.net] (some []) (some []) d (Dev.putFlight d x) := by
  unfold Dev.putFlight
  try simp -proj -zeta only [Dev.mk_net]
  try dsimp -proj only
  repeat' first
    | exact rfl
    | with_reducible first
        | exact .refl _ | apply Only.step (Dev.withNet_only ..)

theorem Dev.relane_only (d : Dev) (x : Flight) :
    Only [.net, .fab] (some [.fbLaneStatus_txIdle]) (some []) d (Dev.relane d x) := by
  unfold Dev.relane
  try dsimp -proj only
  repeat' first
    | exact rfl
    | with_reducible first
        | exact .refl _ | apply Only.step (Dev.offer_only ..) | apply Only.step (Dev.putFlight_only ..)
    | split

theorem Dev.shed_only (d : Dev) (a : Nat) (b : Nat) (k : Nat) :
    Only [.net, .fab] (some [.fbLaneStatus_txIdle]) (some []) d (Dev.shed d a b k) := by
  unfold Dev.shed
  try simp -proj -zeta only [Dev.mk_net]
  try dsimp -proj only
  repeat' first
    | exact rfl
    | with_reducible first
        | exact .refl _ | apply Only.step (Dev.loseBegun_only ..) | apply Only.step (Dev.relane_only ..)
        | apply Only.step (Dev.withNet_only ..) | refine .foldl _ ?_ _ ?_
    | (intro _ _; try dsimp -proj only)

theorem Dev.leaveFor_only (d : Dev) (a : Nat) (b : Nat) (k : Nat) (v : Nat) :
    Only [.bkts, .obs, .net, .fab] (some [.fbLaneStatus_lastCause, .fbLaneStatus_removals, .fbLaneStatus_state,
          .fbLaneStatus_txIdle, .fbLinkStatus_belowMinSticky]) (some []) d (Dev.leaveFor d a b k v) := by
  unfold Dev.leaveFor
  try dsimp -proj only
  repeat' first
    | exact rfl
    | with_reducible first
        | exact .refl _ | apply Only.step (Dev.minServiceTest_only ..) | apply Only.step (Dev.noteRemoval_only ..)
        | apply Only.step (Dev.setLane_only ..) | apply Only.step (Dev.shed_only ..)
    | split

theorem Dev.pairTo_only (d : Dev) (a : Nat) (b : Nat) (k : Nat) (v : Nat) :
    Only [.bkts, .obs, .net, .fab] (some [.fbLaneStatus_lastCause, .fbLaneStatus_removals, .fbLaneStatus_state,
          .fbLaneStatus_txIdle, .fbLinkStatus_belowMinSticky]) (some []) d (Dev.pairTo d a b k v) := by
  unfold Dev.pairTo
  try dsimp -proj only
  repeat' first
    | exact rfl
    | with_reducible first
        | exact .refl _ | apply Only.step (Dev.leaveFor_only ..)

theorem Dev.drainLane_only (d : Dev) (a : Nat) (b : Nat) (k : Nat) (cause : Nat) (next : Nat) :
    Only [.bkts, .obs, .fab] (some [.fbLaneStatus_state, .fbLinkStatus_belowMinSticky]) (some []) d (Dev.drainLane d a
          b k cause next) := by
  unfold Dev.drainLane
  try dsimp -proj only
  repeat' first
    | exact rfl
    | with_reducible first
        | exact .refl _ | apply Only.step (Dev.minServiceTest_only ..) | apply Only.step (Dev.setLane_only ..)
        | apply Only.step (Dev.setLaneX_only ..)

theorem Dev.wearLane_only (d : Dev) (a : Nat) (b : Nat) (k : Nat) (cause : Nat) :
    Only [.bkts, .obs, .fab] (some [.fbLaneStatus_state, .fbLinkStatus_belowMinSticky]) (some []) d (Dev.wearLane d a
          b k cause) := by
  unfold Dev.wearLane
  try dsimp -proj only
  repeat' first
    | exact rfl
    | with_reducible first
        | exact .refl _ | apply Only.step (Dev.drainLane_only ..) | apply Only.step (Dev.setLaneX_only ..)
    | split

theorem Dev.wakeWaiting_only (d : Dev) (a : Nat) (b : Nat) :
    Only [.bkts, .obs, .fab] (some [.fbLaneStatus_state, .fbLinkStatus_belowMinSticky]) (some []) d (Dev.wakeWaiting d
          a b) := by
  unfold Dev.wakeWaiting
  try dsimp -proj only
  repeat' first
    | exact rfl
    | with_reducible first
        | exact .refl _ | apply Only.step (Dev.setLaneX_only ..) | apply Only.step (Dev.wearLane_only ..)
        | refine .foldl _ ?_ _ ?_
    | (intro _ _; try dsimp -proj only) | split

theorem Dev.laneLost_only (d : Dev) (a : Nat) (b : Nat) (k : Nat) :
    Only [.bkts, .obs, .net, .fab] (some [.fbLaneCtl_calibrate, .fbLaneStatus_lastCause, .fbLaneStatus_removals,
          .fbLaneStatus_state, .fbLaneStatus_txIdle, .fbLinkStatus_belowMinSticky, .lnTestStatus_code,
          .lnTestStatus_state]) (some [.lnBitErrors, .lnBits, .lnSyncErrors]) d (Dev.laneLost d a b k) := by
  unfold Dev.laneLost
  try dsimp -proj only
  repeat' first
    | exact rfl
    | with_reducible first
        | exact .refl _ | apply Only.step (Dev.endLaneRequests_only ..) | apply Only.step (Dev.pairTo_only ..)
        | apply Only.step (Dev.raise_only ..) | apply Only.step (Dev.wakeWaiting_only ..)

theorem Dev.noteHistory_only (d : Dev) (a : Nat) (b : Nat) (k : Nat) (cause : Nat) :
    Only [.fab] (some []) (some []) d (Dev.noteHistory d a b k cause).1 := by
  unfold Dev.noteHistory
  try dsimp -proj only
  repeat' first
    | exact rfl
    | with_reducible first
        | exact .refl _ | apply Only.step (Dev.setLaneX_only ..)
    | split

theorem Dev.runTests_only (d : Dev) (a : Nat) (b : Nat) (k : Nat) :
    Only [] (some [.lnTestStatus_state]) (some []) d (Dev.runTests d a b k) := by
  unfold Dev.runTests
  try dsimp -proj only
  repeat' first
    | exact rfl
    | with_reducible first
        | exact .refl _ | apply Only.step (Dev.lnSet_only ..)
    | split

theorem Dev.afterLeave_only (d : Dev) (a : Nat) (b : Nat) (k : Nat) :
    Only [.bkts, .obs, .net, .fab] (some [.fbLaneCtl_calibrate, .fbLaneStatus_lastCause, .fbLaneStatus_removals,
          .fbLaneStatus_state, .fbLaneStatus_txIdle, .fbLinkStatus_belowMinSticky, .lnTestStatus_code,
          .lnTestStatus_state]) (some [.lnBitErrors, .lnBits, .lnSyncErrors]) d (Dev.afterLeave d a b k) := by
  unfold Dev.afterLeave
  try dsimp -proj only
  repeat' first
    | exact rfl
    | with_reducible first
        | exact .refl _ | apply Only.step (Dev.laneLost_only ..) | apply Only.step (Dev.noteHistory_only ..)
        | apply Only.step (Dev.runTests_only ..)
    | split

theorem Dev.countPlace_only (d : Dev) (f : Frame) (k : WKey) :
    Only [.net] (some []) none d (Dev.countPlace d f k) := by
  unfold Dev.countPlace
  try dsimp -proj only
  repeat' first
    | exact rfl
    | with_reducible first
        | exact .refl _ | apply Only.step (Dev.bump_only ..) | apply Only.step (Dev.setFrame_only ..)
    | split

theorem Dev.discard_only (d : Dev) (c : Copy) (k : WKey) :
    Only [.bkts, .obs, .tm, .net, .plc] (some [.swPortStatus_downBp, .swPortStatus_xoff, .swStatus_globalXoff,
          .tmDieStatus_capOverflowSticky]) none d (Dev.discard d c k) := by
  unfold Dev.discard
  try dsimp -proj only
  repeat' first
    | exact rfl
    | with_reducible first
        | exact .refl _ | apply Only.step (Dev.bump_only ..) | apply Only.step (Dev.countPlace_only ..)
        | apply Only.step (Dev.takeOut_only ..)
    | split

theorem Dev.ageDiscard_only (d : Dev) (n : Nat) (c : Copy) :
    Only [.bkts, .obs, .tm, .net, .plc] (some [.swPortStatus_downBp, .swPortStatus_xoff, .swStatus_globalXoff,
          .tmDieStatus_capOverflowSticky]) none d (Dev.ageDiscard d n c) := by
  unfold Dev.ageDiscard
  try dsimp -proj only
  repeat' first
    | exact rfl
    | with_reducible first
        | exact .refl _ | apply Only.step (Dev.discard_only ..) | apply Only.step (Dev.raiseOnce_only ..)

theorem Dev.ageCheck_only (d : Dev) (n : Nat) (c : Copy) :
    Only [.bkts, .obs, .tm, .net, .plc] (some [.swPortStatus_downBp, .swPortStatus_xoff, .swStatus_globalXoff,
          .tmDieStatus_capOverflowSticky]) none d (Dev.ageCheck d n c) := by
  unfold Dev.ageCheck
  try dsimp -proj only
  repeat' first
    | exact rfl
    | with_reducible first
        | exact .refl _ | apply Only.step (Dev.ageDiscard_only ..)
    | split

theorem Dev.ageDeferred_only (d : Dev) (n : Nat) (m : Nat) (x3 : List Copy) :
    Only [.bkts, .obs, .tm, .net, .plc] (some [.swPortStatus_downBp, .swPortStatus_xoff, .swStatus_globalXoff,
          .tmDieStatus_capOverflowSticky]) (some [.miCounters, .swDownBp, .tmCapOverflow]) d (Dev.ageDeferred d n m
          x3) := by
  fun_induction Dev.ageDeferred d n m x3
  all_goals repeat' first
    | exact rfl
    | with_reducible first
        | exact .refl _ | apply Only.step (by assumption) | apply Only.step (Dev.bump_only ..)
        | apply Only.step (Dev.raiseOnce_only ..) | apply Only.step (Dev.takeOut_only ..)

theorem Dev.ageRequested_only (d : Dev) (n : Nat) (x2 : Nat) :
    Only [.bkts, .obs, .tm, .net, .plc] (some [.swPortStatus_downBp, .swPortStatus_xoff, .swStatus_globalXoff,
          .tmDieStatus_capOverflowSticky]) none d (Dev.ageRequested d n x2) := by
  fun_induction Dev.ageRequested d n x2
  all_goals repeat' first
    | exact rfl
    | with_reducible first
        | exact .refl _ | apply Only.step (by assumption) | apply Only.step (Dev.ageDiscard_only ..)

theorem Dev.freeEngine_only (d : Dev) (g : Engine) :
    Only [.net] (some []) (some []) d (Dev.freeEngine d g) := by
  unfold Dev.freeEngine
  try simp -proj -zeta only [Dev.mk_net]
  try dsimp -proj only
  repeat' first
    | exact rfl
    | with_reducible first
        | exact .refl _ | apply Only.step (Dev.withNet_only ..)

theorem Dev.keepSample_only (d : Dev) (n : Nat) (s : Sample) :
    Only [.bkts, .obs] (some [.obSampleStatus_fullSticky]) (some [.obSampleLost]) d (Dev.keepSample d n s) := by
  unfold Dev.keepSample
  try simp -proj -zeta only [Dev.mk_obs]
  try dsimp -proj only
  repeat' first
    | exact rfl
    | with_reducible first
        | exact .refl _ | apply Only.step (Dev.bump_only ..) | apply Only.step (Dev.raiseOnce_only ..)
        | apply Only.step (Dev.setPd_only ..) | apply Only.step (Dev.withObs_only ..)
    | split

theorem Dev.sampleEnd_only (d : Dev) (g : Engine) (f : Frame) (fault : Option Nat) :
    Only [.bkts, .obs, .net] (some [.obSampleStatus_fullSticky]) (some [.obSampleLost]) d (Dev.sampleEnd d g f fault)
          := by
  unfold Dev.sampleEnd
  try dsimp -proj only
  repeat' first
    | exact rfl
    | with_reducible first
        | exact .refl _ | apply Only.step (Dev.drawBelow_only ..) | apply Only.step (Dev.keepSample_only ..)
    | split

theorem Dev.startReady_only (d : Dev) (n : Nat) (p : Nat) :
    Only [.bkts, .obs, .net] (some [.aeFaultLast_addr, .aeFaultLast_cause, .aeFaultLast_prog, .aeStatus_faultSticky,
          .aeStatus_paritySticky]) none d (Dev.startReady d n p) := by
  unfold Dev.startReady
  try dsimp -proj only
  repeat' first
    | exact rfl
    | with_reducible first
        | exact .refl _ | apply Only.step (Dev.startProgram_only ..) | refine .foldl _ ?_ _ ?_
    | (intro _ _; try dsimp -proj only) | split

theorem Dev.endProgram_only (d : Dev) (g : Engine) (f : Frame) (fault : Option Nat) :
    Only [.bkts, .obs, .net] (some [.aeFaultLast_addr, .aeFaultLast_cause, .aeFaultLast_prog, .aeStatus_faultSticky,
          .aeStatus_paritySticky, .obSampleStatus_fullSticky]) none d (Dev.endProgram d g f fault) := by
  unfold Dev.endProgram
  try dsimp -proj only
  repeat' first
    | exact rfl
    | with_reducible first
        | exact .refl _ | apply Only.step (Dev.freeEngine_only ..) | apply Only.step (Dev.pmc_only ..)
        | apply Only.step (Dev.sampleEnd_only ..) | apply Only.step (Dev.startReady_only ..)

theorem Dev.progFault_only (d : Dev) (g : Engine) (f : Frame) (cause : Nat) :
    Only [.bkts, .obs, .net] (some [.aeFaultLast_addr, .aeFaultLast_cause, .aeFaultLast_prog, .aeStatus_faultSticky,
          .aeStatus_paritySticky, .obSampleStatus_fullSticky]) none d (Dev.progFault d g f cause) := by
  unfold Dev.progFault
  try dsimp -proj only
  repeat' first
    | exact rfl
    | with_reducible first
        | exact .refl _ | apply Only.step (Dev.endProgram_only ..) | apply Only.step (Dev.faultAction_only ..)
        | apply Only.step (Dev.faultReport_only ..)

theorem Dev.setEngine_only (d : Dev) (g : Engine) :
    Only [.net] (some []) (some []) d (Dev.setEngine d g) := by
  unfold Dev.setEngine
  try simp -proj -zeta only [Dev.mk_net]
  try dsimp -proj only
  repeat' first
    | exact rfl
    | with_reducible first
        | exact .refl _ | apply Only.step (Dev.withNet_only ..)

theorem Dev.issueIf_only {ps fs} {d : Dev} (n p e : Nat) (ok : Nat → Bool) (cost : Nat) (eff : Dev → Engine → Frame →
      Eff)
    (hp : [.bkts, .obs, .net].all ps.contains = true) (hf : within (some [.aeFaultLast_addr, .aeFaultLast_cause,
          .aeFaultLast_prog, .aeStatus_faultSticky, .aeStatus_paritySticky, .obSampleStatus_fullSticky]) fs = true)
    (h : ∀ g f, (eff d g f).only ps fs none d) : Only ps fs none d (d.issueIf n p e ok cost eff) := by
  have hn : [Part.net].all ps.contains = true := by simp at hp ⊢; simp [hp]
  have hb : [Part.bkts, Part.obs].all ps.contains = true := by simp at hp ⊢; simp [hp]
  have h0 : within (some []) fs = true := by cases fs <;> rfl
  unfold Dev.issueIf
  split
  · exact .refl _
  · split
    · exact .refl _
    · rename_i g _ _ f _
      split
      · exact .step (Dev.progFault_only ..) hp hf rfl (.refl _)
      · split
        · exact .refl _
        · split
          · exact .step (Dev.progFault_only ..) hp hf rfl (.refl _)
          · split
            · exact .step (Dev.pmc_only ..) hb h0 rfl (.step (Dev.setEngine_only ..) hn h0 rfl (.refl _))
            · exact .step (Dev.progFault_only ..) hp hf rfl (.refl _)
            · exact .step (Dev.endProgram_only ..) hp hf rfl (.step (Dev.outcome_only ..) (by simp at hp ⊢; simp [hp])
                  (by cases fs <;> rfl) rfl (.refl _))
            · rename_i d1 g1 f1 he
              exact .step (Dev.setEngine_only ..) hn h0 rfl (.step (Dev.setFrame_only ..) hn h0 rfl ((h g f).of he))

theorem Dev.issue_only {ps fs} {d : Dev} (n p e w cost : Nat) (eff : Dev → Engine → Frame → Eff)
    (hp : [.bkts, .obs, .net].all ps.contains = true) (hf : within (some [.aeFaultLast_addr, .aeFaultLast_cause,
          .aeFaultLast_prog, .aeStatus_faultSticky, .aeStatus_paritySticky, .obSampleStatus_fullSticky]) fs = true)
    (h : ∀ g f, (eff d g f).only ps fs none d) : Only ps fs none d (d.issue n p e w cost eff) :=
  Dev.issueIf_only n p e _ cost eff hp hf h

theorem Dev.alu_only (d : Dev) (n : Nat) (p : Nat) (e : Nat) (w : Nat) (rd : Fin 16) (v : Engine → Word) :
    Only [.bkts, .obs, .net] (some [.aeFaultLast_addr, .aeFaultLast_cause, .aeFaultLast_prog, .aeStatus_faultSticky,
          .aeStatus_paritySticky, .obSampleStatus_fullSticky]) none d (Dev.alu d n p e w rd v) := by
  unfold Dev.alu
  try dsimp -proj only
  repeat' first
    | exact rfl
    | with_reducible first
        | exact .refl _ | refine Dev.issue_only _ _ _ _ _ _ ?_ ?_ ?_ | refine Eff.only.go ?_
    | (intro _ _; try dsimp -proj only)

theorem Dev.putOut_only (d : Dev) (o : IntentOut) :
    Only [.plc] (some []) (some []) d (Dev.putOut d o) := by
  unfold Dev.putOut
  try simp -proj -zeta only [Dev.mk_plc]
  try dsimp -proj only
  repeat' first
    | exact rfl
    | with_reducible first
        | exact .refl _ | apply Only.step (Dev.withPlc_only ..)

theorem Dev.answer_only (d : Dev) (i : Intent) (room : Nat) (addr : Nat) :
    Only [.plc] (some []) (some []) d (Dev.answer d i room addr) := by
  unfold Dev.answer
  try simp -proj -zeta only [Dev.mk_out]
  try dsimp -proj only
  repeat' first
    | exact rfl
    | with_reducible first
        | exact .refl _ | apply Only.step (Dev.putOut_only ..) | apply Only.step (Dev.withOut_only ..)

theorem Dev.delEnt_only (d : Dev) (n : Nat) (i : Nat) :
    Only [.net, .fw] (some []) (some []) d (Dev.delEnt d n i) := by
  unfold Dev.delEnt
  try simp -proj -zeta only [Dev.mk_net]
  try dsimp -proj only
  repeat' first
    | exact rfl
    | with_reducible first
        | exact .refl _ | apply Only.step (Dev.setFw_only ..) | apply Only.step (Dev.withNet_only ..)

theorem Dev.moveEnt_only (d : Dev) (n : Nat) (src : Nat) (dst : Nat) :
    Only [.net, .fw] (some []) (some [.fwAged]) d (Dev.moveEnt d n src dst) := by
  unfold Dev.moveEnt
  try dsimp -proj only
  repeat' first
    | exact rfl
    | with_reducible first
        | exact .refl _ | apply Only.step (Dev.bump_only ..) | apply Only.step (Dev.delEnt_only ..)
        | apply Only.step (Dev.putEnt_only ..)
    | split

theorem Dev.carryOut_only (d : Dev) (n : Nat) (x2 : List Nat) :
    Only [.net, .fw] (some []) (some [.fwAged]) d (Dev.carryOut d n x2) := by
  fun_induction Dev.carryOut d n x2
  all_goals repeat' first
    | exact rfl
    | with_reducible first
        | exact .refl _ | apply Only.step (by assumption) | apply Only.step (Dev.moveEnt_only ..)

theorem Dev.fillTest_only (d : Dev) (n : Nat) :
    Only [.bkts, .obs, .fw] (some [.fwStatus_fillSticky]) (some []) d (Dev.fillTest d n) := by
  unfold Dev.fillTest
  try dsimp -proj only
  repeat' first
    | exact rfl
    | with_reducible first
        | exact .refl _ | apply Only.step (Dev.raise_only ..) | apply Only.step (Dev.setFw_only ..)
        | apply Only.step (Dev.setPd_only ..)
    | split

theorem Dev.applyLearn_only (d : Dev) (n : Nat) :
    Only [.bkts, .obs, .net, .fw] (some [.fwStatus_fillSticky, .fwStatus_learnFailSticky]) (some [.fwAged,
          .fwLearnCount, .fwLearnFail, .fwMove]) d (Dev.applyLearn d n) := by
  unfold Dev.applyLearn
  try dsimp -proj only
  repeat' first
    | exact rfl
    | with_reducible first
        | exact .refl _ | apply Only.step (Dev.bump_only ..) | apply Only.step (Dev.carryOut_only ..)
        | apply Only.step (Dev.fillTest_only ..) | apply Only.step (Dev.hitEnt_only ..)
        | apply Only.step (Dev.pmc_only ..) | apply Only.step (Dev.putEnt_only ..)
        | apply Only.step (Dev.raiseOnce_only ..) | apply Only.step (Dev.setFw_only ..)
        | apply Only.step (Dev.setPd_only ..)
    | split

theorem Dev.storeTogether_only (d : Dev) (r : Reg) (w : Nat) (i : Nat) (j : Nat) :
    Only [] (some [.swClassCtl_xon]) (some []) d (Dev.storeTogether d r w i j) := by
  unfold Dev.storeTogether
  try dsimp -proj only
  repeat' first
    | exact rfl
    | with_reducible first
        | exact .refl _ | apply Only.step (Dev.setFld_only ..)
    | split

theorem Dev.ovlRegister_only (d : Dev) (e : OvlEntry) (r : Reg) (w : Nat) (i : Nat) (j : Nat) :
    Only [] none (some []) d (Dev.ovlRegister d e r w i j) := by
  unfold Dev.ovlRegister
  try dsimp -proj only
  repeat' first
    | exact rfl
    | with_reducible first
        | exact .refl _ | apply Only.step (Dev.setFld_only ..) | apply Only.step (Dev.storeTogether_only ..)
        | refine .foldl _ ?_ _ ?_
    | (intro _ _; try dsimp -proj only) | split

theorem Dev.ovlEntry_only (d : Dev) (idx : Nat) (e : OvlEntry) :
    Only [.bkts, .obs] none (some []) d (Dev.ovlEntry d idx e) := by
  unfold Dev.ovlEntry
  try dsimp -proj only
  repeat' first
    | exact rfl
    | with_reducible first
        | exact .refl _ | apply Only.step (Dev.ovlRegister_only ..) | apply Only.step (Dev.raise_only ..)
        | apply Only.step (Dev.setCd_only ..) | refine .foldl _ ?_ _ ?_
    | (intro _ _; try dsimp -proj only) | split

theorem Dev.applyOverlay_only (d : Dev) (x1 : Nat) (x2 : List OvlEntry) :
    Only [.bkts, .obs] none (some []) d (Dev.applyOverlay d x1 x2) := by
  fun_induction Dev.applyOverlay d x1 x2
  all_goals repeat' first
    | exact rfl
    | with_reducible first
        | exact .refl _ | apply Only.step (by assumption) | apply Only.step (Dev.ovlEntry_only ..)

end Sys2Proof.Machine
end

