-- ==== Sys2Proof/Laws/Frame2.lean ====
section
/-! SUPPORT. What the operations on the device may change, part 2: one lemma for each operation, the operations it rests on first. -/

namespace Sys2Proof.Machine

theorem Dev.arriveCell_only (d : Dev) (c : Copy) (cell : Nat) (o : Nat) :
    Only [.net] (some []) (some []) d (Dev.arriveCell d c cell o) := by
  unfold Dev.arriveCell
  try dsimp -proj only
  repeat' first
    | exact rfl
    | with_reducible first
        | exact .refl _ | apply Only.step (Dev.placeCopies_only ..) | apply Only.step (Dev.setCopy_only ..)
    | split

theorem Dev.setBoot_only (d : Dev) (x : Boot) :
    Only [.boot] (some []) (some []) d (Dev.setBoot d x) := by
  unfold Dev.setBoot
  try simp -proj -zeta only [Dev.mk_boot]
  try dsimp -proj only
  repeat' first
    | exact rfl
    | with_reducible first
        | exact .refl _ | apply Only.step (Dev.withBoot_only ..)

theorem Dev.askSpill_only (d : Dev) (source : Nat) :
    Only [.boot] (some []) (some []) d (Dev.askSpill d source) := by
  unfold Dev.askSpill
  try dsimp -proj only
  repeat' first
    | exact rfl
    | with_reducible first
        | exact .refl _ | apply Only.step (Dev.setBoot_only ..)
    | split

theorem Dev.ctSend_only (d : Dev) (kind : Nat) (payload : List Nat) :
    Only [] (some []) (some []) d (Dev.ctSend d kind payload) := by
  unfold Dev.ctSend
  try simp -proj -zeta only [Dev.mk_out]
  try dsimp -proj only
  repeat' first
    | exact rfl
    | with_reducible first
        | exact .refl _ | apply Only.step (Dev.withOut_only ..)
    | split

theorem Dev.ctNext_only (d : Dev) (kind : Nat) (payload : List Nat) :
    Only [.duo] (some []) (some []) d (Dev.ctNext d kind payload) := by
  unfold Dev.ctNext
  try simp -proj -zeta only [Dev.mk_duo]
  try dsimp -proj only
  repeat' first
    | exact rfl
    | with_reducible first
        | exact .refl _ | apply Only.step (Dev.ctSend_only ..) | apply Only.step (Dev.withDuo_only ..)

theorem Dev.setDuo_only (d : Dev) (x : Duo) :
    Only [.duo] (some []) (some []) d (Dev.setDuo d x) := by
  unfold Dev.setDuo
  try simp -proj -zeta only [Dev.mk_duo]
  try dsimp -proj only
  repeat' first
    | exact rfl
    | with_reducible first
        | exact .refl _ | apply Only.step (Dev.withDuo_only ..)

theorem Dev.askTake_only (d : Dev) :
    Only [.duo] (some []) (some []) d (Dev.askTake d) := by
  unfold Dev.askTake
  try dsimp -proj only
  repeat' first
    | exact rfl
    | with_reducible first
        | exact .refl _ | apply Only.step (Dev.ctNext_only ..) | apply Only.step (Dev.setDuo_only ..)
    | split

theorem Dev.nextSlot_only (d : Dev) (n : Nat) :
    Only [.net] (some []) (some []) d (Dev.nextSlot d n).2 := by
  unfold Dev.nextSlot
  try simp -proj -zeta only [Dev.mk_net]
  try dsimp -proj only
  repeat' first
    | exact rfl
    | with_reducible first
        | exact .refl _ | apply Only.step (Dev.withNet_only ..)

theorem Dev.assignSlots_only (d : Dev) (f : Frame) (g : Option (Nat × Nat)) (x3 : List CopyReq) (x4 : Nat) (x5 : Bool) :
    Only [.net] (some []) (some []) d (Dev.assignSlots d f g x3 x4 x5).2 := by
  induction x3 generalizing d x4 x5 with
  | nil => exact .refl _
  | cons r rs ih =>
    simp -proj -zeta only [Dev.assignSlots]
    extract_lets mirror t t2 s t3
    split
    · exact ih ..
    · generalize mirror = m
      split
      · exact ih ..
      · exact .step (ih ..) rfl rfl rfl (Dev.nextSlot_only ..)

theorem Dev.badCell_only (d : Dev) (copy : Nat) :
    Only [.bkts, .obs, .tm, .net, .plc] (some [.swPortStatus_downBp, .swPortStatus_xoff, .swStatus_globalXoff,
          .tmDieStatus_capOverflowSticky]) (some [.swCtAbort, .swCtDiscard, .swDownBp, .tmCapOverflow]) d (Dev.badCell
          d copy) := by
  unfold Dev.badCell
  try dsimp -proj only
  repeat' first
    | exact rfl
    | with_reducible first
        | exact .refl _ | apply Only.step (Dev.endBad_only ..)
    | split

theorem Dev.dupEnter_only (d : Dev) (n : Nat) (b : List Byte) :
    Only [.fw] (some []) (some []) d (Dev.dupEnter d n b) := by
  unfold Dev.dupEnter
  try dsimp -proj only
  repeat' first
    | exact rfl
    | with_reducible first
        | exact .refl _ | apply Only.step (Dev.setFw_only ..)
    | split

theorem Dev.ptpSkip_only (d : Dev) (n : Nat) (q : Nat) (k : Work) :
    Only [.bkts, .obs] (some []) (some [.tmPtpSkipped]) d (Dev.ptpSkip d n q k) := by
  unfold Dev.ptpSkip
  try dsimp -proj only
  repeat' first
    | exact rfl
    | with_reducible first
        | exact .refl _ | apply Only.step (Dev.bump_only ..) | apply Only.step (Dev.raiseOnce_only ..)

theorem Dev.ptpEdit_only (d : Dev) (f : Frame) (c : Copy) (dep : Nat) (k : Work) :
    Only [.bkts, .obs] (some []) (some [.tmPtpSkipped, .tmPtpUpdated]) d (Dev.ptpEdit d f c dep k).1 := by
  unfold Dev.ptpEdit
  try dsimp -proj only
  repeat' first
    | exact rfl
    | with_reducible first
        | exact .refl _ | apply Only.step (Dev.bump_only ..) | apply Only.step (Dev.ptpSkip_only ..)
    | split

theorem Dev.recover_only (d : Dev) (n : Nat) (r : StreamRec) (b : List Byte) :
    Only [.fw] (some []) (some [.fwSrPassed, .fwSrTagless]) d (Dev.recover d n r b).1 := by
  unfold Dev.recover
  try dsimp -proj only
  repeat' first
    | exact rfl
    | with_reducible first
        | exact .refl _ | apply Only.step (Dev.bump_only ..) | apply Only.step (Dev.setFw_only ..)
    | split

theorem Dev.streamEdit_only (d : Dev) (n : Nat) (r : StreamRec) (k : Work) :
    Only [.fw] (some []) (some []) d (Dev.streamEdit d n r k).1 := by
  unfold Dev.streamEdit
  try dsimp -proj only
  repeat' first
    | exact rfl
    | with_reducible first
        | exact .refl _ | apply Only.step (Dev.setFw_only ..)
    | split

theorem Dev.dropSum_only (d : Dev) (p : Nat) (dir : Nat) :
    Only [.net] (some [.fpPortStatus_exceededSticky, .ptMacThresh_exceededSticky]) (some []) d (Dev.dropSum d p dir)
          := by
  unfold Dev.dropSum
  try simp -proj -zeta only [Dev.mk_net]
  try dsimp -proj only
  repeat' first
    | exact rfl
    | with_reducible first
        | exact .refl _ | apply Only.step (Dev.setCd_only ..) | apply Only.step (Dev.setPd_only ..)
        | apply Only.step (Dev.withNet_only ..)
    | split

theorem Dev.txDrop_only (d : Dev) (p : Nat) (idx : Nat) :
    Only [.net] (some [.fpPortStatus_exceededSticky, .ptMacThresh_exceededSticky]) (some [.obStat]) d (Dev.txDrop d p
          idx) := by
  unfold Dev.txDrop
  try dsimp -proj only
  repeat' first
    | exact rfl
    | with_reducible first
        | exact .refl _ | apply Only.step (Dev.dropSum_only ..) | apply Only.step (Dev.stat_only ..)
    | split

theorem Dev.tableAlarm_only (d : Dev) (b : BadWord) :
    Only [.bkts, .obs, .net] (some [.fwStatus_paritySticky]) (some [.fwParity]) d (Dev.tableAlarm d b) := by
  unfold Dev.tableAlarm
  try simp -proj -zeta only [Dev.mk_net]
  try dsimp -proj only
  repeat' first
    | exact rfl
    | with_reducible first
        | exact .refl _ | apply Only.step (Dev.bump_only ..) | apply Only.step (Dev.raise_only ..)
        | apply Only.step (Dev.setPd_only ..) | apply Only.step (Dev.withNet_only ..)
    | split

theorem Dev.vlanParity_only (d : Dev) (n : Nat) (vid : Nat) :
    Only [.bkts, .obs, .net] (some [.fwStatus_paritySticky]) (some [.fwParity]) d (Dev.vlanParity d n vid) := by
  unfold Dev.vlanParity
  try dsimp -proj only
  repeat' first
    | exact rfl
    | with_reducible first
        | exact .refl _ | apply Only.step (Dev.tableAlarm_only ..)
    | split

theorem Dev.beginCopy_only (d : Dev) (q : Nat) (f : Frame) (c : Copy) :
    Only [.bkts, .obs, .tm, .net, .fw, .plc] (some [.fpPortStatus_exceededSticky, .fwStatus_paritySticky,
          .ptMacThresh_exceededSticky, .swPortStatus_downBp, .swPortStatus_xoff, .swStatus_globalXoff,
          .tmDieStatus_capOverflowSticky]) none d (Dev.beginCopy d q f c).1 := by
  unfold Dev.beginCopy
  try dsimp -proj only
  repeat' first
    | exact rfl
    | with_reducible first
        | exact .refl _ | apply Only.step (Dev.ageDiscard_only ..) | apply Only.step (Dev.discard_only ..)
        | apply Only.step (Dev.dupEnter_only ..) | apply Only.step (Dev.ptpEdit_only ..)
        | apply Only.step (Dev.recover_only ..) | apply Only.step (Dev.setCopy_only ..)
        | apply Only.step (Dev.setTx_only ..) | apply Only.step (Dev.streamEdit_only ..)
        | apply Only.step (Dev.takeOut_only ..) | apply Only.step (Dev.txDrop_only ..)
        | apply Only.step (Dev.vlanParity_only ..)
    | (dsimp only) | split

theorem Dev.freeFrame_only (d : Dev) (id : Nat) :
    Only [.bkts, .obs, .net] (some [.aeFaultLast_addr, .aeFaultLast_cause, .aeFaultLast_prog, .aeStatus_faultSticky,
          .aeStatus_paritySticky]) none d (Dev.freeFrame d id) := by
  unfold Dev.freeFrame
  try dsimp -proj only
  repeat' first
    | exact rfl
    | with_reducible first
        | exact .refl _ | apply Only.step (Dev.freeEngine_only ..) | apply Only.step (Dev.startReady_only ..)
    | split

theorem Dev.macDrop_only (d : Dev) (p : Nat) (k : Nat) (n : Nat) :
    Only [.net] (some [.fpPortStatus_exceededSticky, .ptMacThresh_exceededSticky]) (some [.obStat]) d (Dev.macDrop d p
          k n) := by
  unfold Dev.macDrop
  try dsimp -proj only
  repeat' first
    | exact rfl
    | with_reducible first
        | exact .refl _ | apply Only.step (Dev.dropSum_only ..) | apply Only.step (Dev.stat_only ..)

theorem Dev.macDropFrame_only (d : Dev) (f : Frame) (k : Nat) (len : Nat) (cause : Nat) :
    Only [.bkts, .obs, .tm, .net, .plc] (some [.aeFaultLast_addr, .aeFaultLast_cause, .aeFaultLast_prog,
          .aeStatus_faultSticky, .aeStatus_paritySticky, .fpPortStatus_bpActive, .fpPortStatus_exceededSticky,
          .ptMacThresh_exceededSticky, .swPortStatus_downBp, .swPortStatus_xoff, .swStatus_globalXoff,
          .tmDieStatus_capOverflowSticky]) none d (Dev.macDropFrame d f k len cause) := by
  unfold Dev.macDropFrame
  try dsimp -proj only
  repeat' first
    | exact rfl
    | with_reducible first
        | exact .refl _ | apply Only.step (Dev.badOutcome_only ..) | apply Only.step (Dev.bpTest_only ..)
        | apply Only.step (Dev.cellTest_only ..) | apply Only.step (Dev.dropFrame_only ..)
        | apply Only.step (Dev.freeFrame_only ..) | apply Only.step (Dev.macDrop_only ..)
    | split

theorem Dev.cutReception_only (d : Dev) (p : Nat) (k : Nat) (cause : Nat) :
    Only [.bkts, .obs, .tm, .net, .plc] (some [.aeFaultLast_addr, .aeFaultLast_cause, .aeFaultLast_prog,
          .aeStatus_faultSticky, .aeStatus_paritySticky, .fpPortStatus_bpActive, .fpPortStatus_exceededSticky,
          .ptMacThresh_exceededSticky, .swPortStatus_downBp, .swPortStatus_xoff, .swStatus_globalXoff,
          .tmDieStatus_capOverflowSticky]) none d (Dev.cutReception d p k cause) := by
  unfold Dev.cutReception
  try dsimp -proj only
  repeat' first
    | exact rfl
    | with_reducible first
        | exact .refl _ | apply Only.step (Dev.macDropFrame_only ..)
    | split

theorem Dev.cutTransmission_only (d : Dev) (p : Nat) (idx : Nat) :
    Only [.bkts, .obs, .tm, .net, .plc] (some [.fpPortStatus_exceededSticky, .ptMacThresh_exceededSticky,
          .swPortStatus_downBp, .swPortStatus_xoff, .swStatus_globalXoff, .tmDieStatus_capOverflowSticky]) (some
          [.obStat, .swDownBp, .tmCapOverflow]) d (Dev.cutTransmission d p idx) := by
  unfold Dev.cutTransmission
  try simp -proj -zeta only [Dev.mk_out]
  try dsimp -proj only
  repeat' first
    | exact rfl
    | with_reducible first
        | exact .refl _ | apply Only.step (Dev.idleTx_only ..) | apply Only.step (Dev.stopTx_only ..)
        | apply Only.step (Dev.takeOut_only ..) | apply Only.step (Dev.txDrop_only ..)
        | apply Only.step (Dev.withOut_only ..)
    | split

theorem Dev.beginCut_only (d : Dev) (into : Nat) (rx : Nat) (tx : Nat) :
    Only [.boot, .bkts, .obs, .tm, .net, .plc] (some [.aeFaultLast_addr, .aeFaultLast_cause, .aeFaultLast_prog,
          .aeStatus_faultSticky, .aeStatus_paritySticky, .btSceneStatus_cutting, .fpPortStatus_bpActive,
          .fpPortStatus_exceededSticky, .ptMacThresh_exceededSticky, .swPortStatus_downBp, .swPortStatus_xoff,
          .swStatus_globalXoff, .tmDieStatus_capOverflowSticky]) none d (Dev.beginCut d into rx tx) := by
  unfold Dev.beginCut
  try dsimp -proj only
  repeat' first
    | exact rfl
    | with_reducible first
        | exact .refl _ | apply Only.step (Dev.cutReception_only ..) | apply Only.step (Dev.cutTransmission_only ..)
        | apply Only.step (Dev.setBoot_only ..) | apply Only.step (Dev.setCd_only ..) | refine .foldl _ ?_ _ ?_
    | (intro _ _; try dsimp -proj only) | split

theorem Dev.mapJobs_only (d : Dev) (f : TreeJob → TreeJob) :
    Only [.plc] (some []) (some []) d (Dev.mapJobs d f) := by
  unfold Dev.mapJobs
  try simp -proj -zeta only [Dev.mk_plc]
  try dsimp -proj only
  repeat' first
    | exact rfl
    | with_reducible first
        | exact .refl _ | apply Only.step (Dev.withPlc_only ..)

theorem Dev.beginFull_only (d : Dev) (j : TreeJob) :
    Only [.bkts, .obs, .plc] (some []) (some []) d (Dev.beginFull d j) := by
  unfold Dev.beginFull
  try dsimp -proj only
  repeat' first
    | exact rfl
    | with_reducible first
        | exact .refl _ | apply Only.step (Dev.mapJobs_only ..) | apply Only.step (Dev.raise_only ..)

theorem Dev.mapVers_only (d : Dev) (f : Ver → Option Ver) :
    Only [.fw, .plc] (some []) (some []) d (Dev.mapVers d f) := by
  unfold Dev.mapVers
  try simp -proj -zeta only [Dev.mk_fw_plc]
  try dsimp -proj only
  repeat' first
    | exact rfl
    | with_reducible first
        | exact .refl _ | apply Only.step (Dev.withFw_only ..) | apply Only.step (Dev.withPlc_only ..)

theorem Dev.reown_only (d : Dev) (a : Nat) (b : Nat) :
    Only [.fw, .plc] (some []) (some []) d (Dev.reown d a b) := by
  unfold Dev.reown
  try simp -proj -zeta only [Dev.mk_plc]
  try dsimp -proj only
  repeat' first
    | exact rfl
    | with_reducible first
        | exact .refl _ | apply Only.step (Dev.mapVers_only ..) | apply Only.step (Dev.withPlc_only ..)

theorem Dev.beginTrees_only (d : Dev) (i : Intent) (k : Nat) (ns : List Nat) :
    Only [.fw, .plc] (some []) (some []) d (Dev.beginTrees d i k ns) := by
  unfold Dev.beginTrees
  try simp -proj -zeta only [Dev.mk_plc]
  try dsimp -proj only
  repeat' first
    | exact rfl
    | with_reducible first
        | exact .refl _ | apply Only.step (Dev.mapJobs_only ..) | apply Only.step (Dev.reown_only ..)
        | apply Only.step (Dev.withPlc_only ..) | refine .foldl _ ?_ _ ?_
    | (intro _ _; try dsimp -proj only) | split

theorem Dev.pdRails_only (d : Dev) (on : Bool) :
    Only [] (some [.pwStatus_railOn]) (some []) d (Dev.pdRails d on) := by
  unfold Dev.pdRails
  try dsimp -proj only
  repeat' first
    | exact rfl
    | with_reducible first
        | exact .refl _ | apply Only.step (Dev.setFld_only ..)

theorem Dev.bistStart_only (d : Dev) :
    Only [] (some [.dvBistCtl_code, .pwStatus_railOn]) (some []) d (Dev.bistStart d) := by
  unfold Dev.bistStart
  try dsimp -proj only
  repeat' first
    | exact rfl
    | with_reducible first
        | exact .refl _ | apply Only.step (Dev.pdRails_only ..) | apply Only.step (Dev.setCd_only ..)
    | split

theorem Dev.blockRoom_only (d : Dev) (ns : List Nat) (h : Nat) (size : Nat) :
    Staged.only [] (some []) (some []) d (Dev.blockRoom d ns h size) := by
  unfold Dev.blockRoom
  try dsimp -proj only
  repeat' first
    | with_reducible first
        | refine Staged.only.ok ?_ | exact .refl _
    | trivial | split

theorem Dev.bookTimer_only (d : Dev) (i : Nat) (e : TaEntry) :
    Only [.tm] (some []) (some []) d (Dev.bookTimer d i e) := by
  unfold Dev.bookTimer
  try simp -proj -zeta only [Dev.mk_tm]
  try dsimp -proj only
  repeat' first
    | exact rfl
    | with_reducible first
        | exact .refl _ | apply Only.step (Dev.withTm_only ..)

theorem Dev.branch_only (d : Dev) (n : Nat) (p : Nat) (e : Nat) (w : Nat) (off : Nat) (c : Engine → Bool) :
    Only [.bkts, .obs, .net] (some [.aeFaultLast_addr, .aeFaultLast_cause, .aeFaultLast_prog, .aeStatus_faultSticky,
          .aeStatus_paritySticky, .obSampleStatus_fullSticky]) none d (Dev.branch d n p e w off c) := by
  unfold Dev.branch
  try dsimp -proj only
  repeat' first
    | exact rfl
    | with_reducible first
        | exact .refl _ | refine Dev.issue_only _ _ _ _ _ _ ?_ ?_ ?_ | refine Eff.only.go ?_
    | (intro _ _; try dsimp -proj only)

theorem Dev.setLink_only (d : Dev) (p : Nat) (v : Nat) :
    Only [] (some [.ptPortStatus_state]) (some []) d (Dev.setLink d p v) := by
  unfold Dev.setLink
  try dsimp -proj only
  repeat' first
    | exact rfl
    | with_reducible first
        | exact .refl _ | apply Only.step (Dev.setPd_only ..)

theorem Dev.groupBright_only (d : Dev) (g : Nat) :
    Only [] (some [.ptPortStatus_state]) (some []) d (Dev.groupBright d g) := by
  unfold Dev.groupBright
  try dsimp -proj only
  repeat' first
    | exact rfl
    | with_reducible first
        | exact .refl _ | apply Only.step (Dev.setLink_only ..) | refine .foldl _ ?_ _ ?_
    | (intro _ _; try dsimp -proj only) | split

theorem Dev.bringUp_only (d : Dev) (p : Nat) :
    Only [] (some [.ptPortStatus_state]) (some []) d (Dev.bringUp d p) := by
  unfold Dev.bringUp
  try dsimp -proj only
  repeat' first
    | exact rfl
    | with_reducible first
        | exact .refl _ | apply Only.step (Dev.groupBright_only ..) | apply Only.step (Dev.setLink_only ..)
    | split

theorem Dev.bwEnd_only (d : Dev) (q : Nat) :
    Only [.obs] (some []) (some [.obBw]) d (Dev.bwEnd d q) := by
  unfold Dev.bwEnd
  try simp -proj -zeta only [Dev.mk_obs]
  try dsimp -proj only
  repeat' first
    | exact rfl
    | with_reducible first
        | exact .refl _ | apply Only.step (Dev.setWide_only ..) | apply Only.step (Dev.withObs_only ..)

theorem Dev.bwNext_only (d : Dev) (q : Nat) (fresh : Bool) :
    Only [.obs] (some []) (some []) d (Dev.bwNext d q fresh) := by
  unfold Dev.bwNext
  try simp -proj -zeta only [Dev.mk_obs]
  try dsimp -proj only
  repeat' first
    | exact rfl
    | with_reducible first
        | exact .refl _ | apply Only.step (Dev.withObs_only ..)

theorem Dev.bwTick_only (d : Dev) (q : Nat) :
    Only [.obs] (some []) (some [.obBw]) d (Dev.bwTick d q) := by
  unfold Dev.bwTick
  try dsimp -proj only
  repeat' first
    | exact rfl
    | with_reducible first
        | exact .refl _ | apply Only.step (Dev.bwEnd_only ..) | apply Only.step (Dev.bwNext_only ..)
    | split

theorem Dev.putCam_only (d : Dev) (k : Nat) (n : Nat) (p : Nat) (size : Nat) (h : Nat) (x : CamItem × Nat) :
    Only [.plc] (some []) (some []) d (Dev.putCam d k n p size h x) := by
  unfold Dev.putCam
  try simp -proj -zeta only [Dev.mk_plc]
  try dsimp -proj only
  repeat' first
    | exact rfl
    | with_reducible first
        | exact .refl _ | apply Only.step (Dev.withPlc_only ..)
    | split

theorem Dev.camChange_only (d : Dev) (k : Nat) (b : Bool) (n : Nat) (p : Nat) (size : Nat) (h : Nat) (fs : List
      KeyField) (drops : List Nat) (adds : List NewRule) (base : Nat) :
    Staged.only [.net, .fw, .plc] (some []) (some []) d (Dev.camChange d k b n p size h fs drops adds base) := by
  unfold Dev.camChange
  try simp -proj -zeta only [Dev.mk_net, Dev.mk_plc]
  try dsimp -proj only
  repeat' first
    | with_reducible first
        | refine Staged.only.ok ?_ | exact .refl _ | apply Only.step (Dev.putCam_only ..)
        | apply Only.step (Dev.withNet_only ..) | apply Only.step (Dev.withPlc_only ..) | refine .foldl _ ?_ _ ?_
    | (intro _ _; try dsimp -proj only) | trivial | split

theorem Dev.camLeave_only (d : Dev) (k : Nat) (b : Bool) (n : Nat) (p : Nat) (h : Nat) :
    Only [.plc] (some []) (some []) d (Dev.camLeave d k b n p h) := by
  unfold Dev.camLeave
  try simp -proj -zeta only [Dev.mk_plc]
  try dsimp -proj only
  repeat' first
    | exact rfl
    | with_reducible first
        | exact .refl _ | apply Only.step (Dev.withPlc_only ..)

theorem Dev.issueClass_only (d : Dev) (o : Nat) (c : Nat) (x3 : Nat) :
    Only [.net] (some []) (some []) d (Dev.issueClass d o c x3).1 := by
  induction x3 generalizing d with
  | zero => exact .refl _
  | succ k ih =>
    unfold Dev.issueClass
    dsimp -proj only
    split
    · split
      · refine .step (ih (d.withNet _)) rfl rfl rfl (Dev.withNet_only ..)
      · exact .refl _
    · exact .refl _

theorem Dev.issueTokens_only (d : Dev) (n : Nat) :
    Only [.net] (some []) (some []) d (Dev.issueTokens d n) := by
  unfold Dev.issueTokens
  refine .foldl _ (fun e a => ?_) _ (.refl _)
  exact .foldlFst (fun (b : Dev × Nat) i => b.1.issueClass a (7 - i) b.2) (fun e i => Dev.issueClass_only ..) _ (.refl
        _)

theorem Dev.offers_only (d : Dev) (n : Nat) :
    Only [.fab] (some [.fbLaneStatus_txIdle]) (some []) d (Dev.offers d n) := by
  unfold Dev.offers
  try dsimp -proj only
  repeat' first
    | exact rfl
    | with_reducible first
        | exact .refl _ | apply Only.step (Dev.offer_only ..) | refine .foldl _ ?_ _ ?_
    | (intro _ _; try dsimp -proj only)

theorem Dev.sendCell_only (d : Dev) (n : Nat) (i : Nat) (o : Nat) (c : Nat) :
    Only [.bkts, .obs, .net, .fab] (some [.fbLaneStatus_txIdle, .swPortStatus_downBp, .swPortStatus_xoff,
          .swStatus_globalXoff]) (some [.swDownBp]) d (Dev.sendCell d n i o c) := by
  unfold Dev.sendCell
  split
  · exact .refl _
  · rename_i h _
    extract_lets e net d1 d2 last w d3
    have h1 : Only [.net] (some []) (some []) d d1 := Dev.withNet_only d _
    have h2 : Only [.bkts, .obs, .net] (some []) (some []) d d2 :=
      .step (Dev.pmc_only ..) rfl rfl rfl (.step h1 rfl rfl rfl (.refl _))
    have hw : Only [.bkts, .obs, .net, .fab] (some [.fbLaneStatus_txIdle, .swPortStatus_downBp, .swPortStatus_xoff,
          .swStatus_globalXoff]) (some [.swDownBp]) d w := .step (Dev.offer_only ..) rfl rfl rfl (.step h2 rfl rfl rfl
          (.refl _))
    have h3 : Only [.bkts, .obs, .net, .fab] (some [.fbLaneStatus_txIdle, .swPortStatus_downBp, .swPortStatus_xoff,
          .swStatus_globalXoff]) (some [.swDownBp]) d d3 := by
      clear_value w d2 d1
      unfold d3
      split
      · exact .step (Dev.arriveCell_only ..) rfl rfl rfl (.step h2 rfl rfl rfl (.refl _))
      · split
        · extract_lets x fab
          have hx : Only [.net] (some []) (some []) w x := .step (Dev.putFlight_only ..) rfl rfl rfl (Dev.setCopy_only
                ..)
          clear_value x
          exact .step (Dev.pmc_only ..) rfl rfl rfl (.step (Dev.withFab_only x _) rfl rfl rfl
            (.step hx rfl rfl rfl (.step hw rfl rfl rfl (.refl _))))
        · exact .step h1 rfl rfl rfl (.refl _)
    clear hw h1 h2
    clear_value d3
    split
    · exact .step (Dev.cellTest_only ..) rfl rfl rfl (.step h3 rfl rfl rfl (.refl _))
    · exact .step h3 rfl rfl rfl (.refl _)

theorem Dev.round_only (d0 : Dev) (n : Nat) (first : Bool) (free : List Nat) :
    Only [.bkts, .obs, .tm, .net, .plc, .fab] (some [.fbLaneStatus_txIdle, .swPortStatus_downBp, .swPortStatus_xoff,
          .swStatus_globalXoff, .tmDieStatus_capOverflowSticky]) none d0 (Dev.round d0 n first free).1 := by
  unfold Dev.round
  extract_lets d' rs d1 gs d2
  have h0 : Only [.bkts, .obs, .tm, .net, .plc] (some [.swPortStatus_downBp, .swPortStatus_xoff, .swStatus_globalXoff,
        .tmDieStatus_capOverflowSticky]) none d0 d' := Dev.ageRequested_only ..
  have h1 : Only [.bkts, .obs] (some []) (some []) d' d1 := .foldl _ (fun _ _ => Dev.pmc_only ..) _ (.refl _)
  have h2 : Only [.bkts, .obs] (some []) (some []) d' d2 := .foldl _ (fun _ _ => Dev.pmc_only ..) _ h1
  refine .foldlFst _ (fun e i => ?_) _ (.step h2 rfl rfl rfl (.step h0 rfl rfl rfl (.refl _)))
  clear h0 h1 h2
  clear_value d2 d'
  split
  · split
    · extract_lets x net y
      have hy : Only [.net] (some []) (some []) x y := by
        unfold y
        split
        · exact Dev.withNet_only x _
        · exact .refl _
      clear_value y
      dsimp only
      generalize hz : y.pmc n 0x14 none (some _) none 1 = z
      refine Only.step (Dev.sendCell_only z _ _ _ _) rfl rfl rfl ?_
      subst hz
      exact .step (Dev.pmc_only ..) rfl rfl rfl (.step hy rfl rfl rfl (.refl _))
    · exact .refl _
  · exact .refl _

theorem Dev.serveCut_only (d : Dev) (n : Nat) (x2 : List Nat) :
    Only [.bkts, .obs, .net, .fab] (some [.fbLaneStatus_txIdle, .swPortStatus_downBp, .swPortStatus_xoff,
          .swStatus_globalXoff]) (some [.swDownBp]) d (Dev.serveCut d n x2).1 := by
  fun_induction Dev.serveCut d n x2
  all_goals repeat' first
    | exact rfl
    | with_reducible first
        | exact .refl _ | apply Only.step (by assumption) | apply Only.step (Dev.sendCell_only ..)

theorem Dev.cellTime_only (d : Dev) (n : Nat) :
    Only [.bkts, .obs, .tm, .net, .plc, .fab] (some [.fbLaneStatus_txIdle, .swPortStatus_downBp, .swPortStatus_xoff,
          .swStatus_globalXoff, .tmDieStatus_capOverflowSticky]) none d (Dev.cellTime d n) := by
  unfold Dev.cellTime
  try simp -proj -zeta only [Dev.mk_net]
  try dsimp -proj only
  repeat' first
    | exact rfl
    | with_reducible first
        | exact .refl _ | apply Only.step (Dev.ageRequested_only ..) | apply Only.step (Dev.issueTokens_only ..)
        | apply Only.step (Dev.offers_only ..) | apply Only.step (Dev.round_only ..)
        | apply Only.step (Dev.serveCut_only ..) | apply Only.step (Dev.withNet_only ..)

theorem Dev.setChan_only (d : Dev) (k : Nat) (x : DmChan) :
    Only [.dma] (some []) (some []) d (Dev.setChan d k x) := by
  unfold Dev.setChan
  try simp -proj -zeta only [Dev.mk_dma]
  try dsimp -proj only
  repeat' first
    | exact rfl
    | with_reducible first
        | exact .refl _ | apply Only.step (Dev.withDma_only ..)
    | split

theorem Dev.chEnd_only (d : Dev) (k : Nat) (code : Nat) :
    Only [.bkts, .obs, .dma] (some [.dmChCtl_abort, .dmChCtl_start, .dmChStatus_code, .dmChStatus_state]) (some []) d
          (Dev.chEnd d k code) := by
  unfold Dev.chEnd
  try dsimp -proj only
  repeat' first
    | exact rfl
    | with_reducible first
        | exact .refl _ | apply Only.step (Dev.irq_only ..) | apply Only.step (Dev.raise_only ..)
        | apply Only.step (Dev.setCd_only ..) | apply Only.step (Dev.setChan_only ..)
    | split

theorem Dev.chIndex_only (d : Dev) (k : Nat) (i : Nat) :
    Only [] (some [.dmChIndex2_i2, .dmChIndex_i0, .dmChIndex_i1]) (some []) d (Dev.chIndex d k i) := by
  unfold Dev.chIndex
  try dsimp -proj only
  repeat' first
    | exact rfl
    | with_reducible first
        | exact .refl _ | apply Only.step (Dev.setCd_only ..)

theorem Dev.chHalt_only (d : Dev) (k : Nat) (code : Nat) :
    Only [.bkts, .obs, .dma] (some [.dmChCtl_abort, .dmChCtl_start, .dmChIndex2_i2, .dmChIndex_i0, .dmChIndex_i1,
          .dmChStatus_code, .dmChStatus_state]) (some []) d (Dev.chHalt d k code) := by
  unfold Dev.chHalt
  try dsimp -proj only
  repeat' first
    | exact rfl
    | with_reducible first
        | exact .refl _ | apply Only.step (Dev.chEnd_only ..) | apply Only.step (Dev.chIndex_only ..)
    | split

theorem Dev.chAbort_only (d : Dev) (k : Nat) :
    Only [.bkts, .obs, .dma] (some [.dmChCtl_abort, .dmChCtl_start, .dmChIndex2_i2, .dmChIndex_i0, .dmChIndex_i1,
          .dmChStatus_code, .dmChStatus_state]) (some []) d (Dev.chAbort d k) := by
  unfold Dev.chAbort
  try dsimp -proj only
  repeat' first
    | exact rfl
    | with_reducible first
        | exact .refl _ | apply Only.step (Dev.chHalt_only ..)

theorem Dev.chFetched_only (d : Dev) (k : Nat) (x : DmDesc) :
    Only [.bkts, .obs, .dma] (some [.dmChCtl_abort, .dmChCtl_start, .dmChStatus_code, .dmChStatus_overlap,
          .dmChStatus_state]) (some []) d (Dev.chFetched d k x) := by
  unfold Dev.chFetched
  try simp -proj -zeta only [Dev.mk_out]
  try dsimp -proj only
  repeat' first
    | exact rfl
    | with_reducible first
        | exact .refl _ | apply Only.step (Dev.chEnd_only ..) | apply Only.step (Dev.setCd_only ..)
        | apply Only.step (Dev.setChan_only ..) | apply Only.step (Dev.withOut_only ..)
    | split

theorem Dev.chFields_only (d : Dev) (k : Nat) (irq : Bool) (limit : Nat) :
    Only [] (some [.dmChCtl_irq, .dmChCtl_retryLimit]) (some []) d (Dev.chFields d k irq limit) := by
  unfold Dev.chFields
  try dsimp -proj only
  repeat' first
    | exact rfl
    | with_reducible first
        | exact .refl _ | apply Only.step (Dev.setCd_only ..)

theorem Dev.chRetried_only (d : Dev) (k : Nat) :
    Only [.dma] (some [.dmChStatus_retries]) (some []) d (Dev.chRetried d k) := by
  unfold Dev.chRetried
  try dsimp -proj only
  repeat' first
    | exact rfl
    | with_reducible first
        | exact .refl _ | apply Only.step (Dev.setCd_only ..) | apply Only.step (Dev.setChan_only ..)
    | split

theorem Dev.chRetry_only (d : Dev) (k : Nat) :
    Only [.dma] (some []) (some []) d (Dev.chRetry d k) := by
  unfold Dev.chRetry
  try dsimp -proj only
  repeat' first
    | exact rfl
    | with_reducible first
        | exact .refl _ | apply Only.step (Dev.setChan_only ..)
    | split

theorem Dev.chStart_only (d : Dev) (k : Nat) :
    Only [.bkts, .obs, .dma] (some [.dmChCtl_start, .dmChIndex2_i2, .dmChIndex_i0, .dmChIndex_i1, .dmChStatus_code,
          .dmChStatus_failDevice, .dmChStatus_failType, .dmChStatus_failWrite, .dmChStatus_overlap,
          .dmChStatus_retries, .dmChStatus_retryOk, .dmChStatus_state]) (some []) d (Dev.chStart d k) := by
  unfold Dev.chStart
  split
  · exact .step (Dev.raise_only ..) rfl rfl rfl (.refl _)
  · refine .step (Dev.setChan_only ..) rfl rfl rfl (.step (Dev.setCd_only ..) rfl rfl rfl (.step (Dev.setCd_only ..)
        rfl rfl rfl ?_))
    refine .foldlMem _ _ (fun e a h => ?_) (.refl _)
    refine .step (Dev.setCd_only ..) rfl ?_ rfl (.refl _)
    revert a
    decide

theorem Dev.choose__only (d : Dev) (sb : Storyboard) (h : ImgHeader) (factory : Bool) :
    Only [.boot] (some [.btSceneStatus_phase]) (some []) d (Dev.choose_ d sb h factory) := by
  unfold Dev.choose_
  try dsimp -proj only
  repeat' first
    | exact rfl
    | with_reducible first
        | exact .refl _ | apply Only.step (Dev.setBoot_only ..) | apply Only.step (Dev.setCd_only ..)

theorem Dev.chooseFactory_only (d : Dev) :
    Only [.boot] (some [.btSceneStatus_phase, .imBootSeq_seq, .imBootStatus_bank, .imWriteStatus_target]) (some []) d
          (Dev.chooseFactory d) := by
  unfold Dev.chooseFactory
  try dsimp -proj only
  repeat' first
    | exact rfl
    | with_reducible first
        | exact .refl _ | apply Only.step (Dev.choose__only ..) | apply Only.step (Dev.setCd_only ..)

theorem Dev.fatal_only (d : Dev) (cause : Nat) (first : List EvRec) :
    Only [.boot, .bkts, .obs] (some [.obFatal_cause, .obFatal_fatalSticky]) (some []) d (Dev.fatal d cause first) := by
  unfold Dev.fatal
  try dsimp -proj only
  repeat' first
    | exact rfl
    | with_reducible first
        | exact .refl _ | apply Only.step (Dev.askSpill_only ..) | apply Only.step (Dev.beginIncident_only ..)
        | apply Only.step (Dev.raise_only ..) | apply Only.step (Dev.setCd_only ..) | refine .foldl _ ?_ _ ?_
    | (intro _ _; try dsimp -proj only) | split

theorem Dev.fatalEvent_only (d : Dev) (die : Nat) (code : Nat) (cause : Nat) (pl : List (Nat × Nat)) :
    Only [.boot, .bkts, .obs] (some [.obFatal_cause, .obFatal_fatalSticky]) (some []) d (Dev.fatalEvent d die code
          cause pl) := by
  unfold Dev.fatalEvent
  try dsimp -proj only
  repeat' first
    | exact rfl
    | with_reducible first
        | exact .refl _ | apply Only.step (Dev.fatal_only ..) | apply Only.step (Dev.raise_only ..)

theorem Dev.roleFlush_only (d : Dev) :
    Only [.bkts, .obs, .tm, .net, .plc] (some [.swPortStatus_downBp, .swPortStatus_xoff, .swStatus_globalXoff,
          .tmDieStatus_capOverflowSticky]) none d (Dev.roleFlush d) := by
  unfold Dev.roleFlush
  try simp -proj -zeta only [Dev.mk_out]
  try dsimp -proj only
  repeat' first
    | exact rfl
    | with_reducible first
        | exact .refl _ | apply Only.step (Dev.bump_only ..) | apply Only.step (Dev.discard_only ..)
        | apply Only.step (Dev.stopTx_only ..) | apply Only.step (Dev.takeOut_only ..)
        | apply Only.step (Dev.withOut_only ..) | refine .foldl _ ?_ _ ?_
    | (intro _ _; try dsimp -proj only) | split

theorem Dev.setRole_only (d : Dev) (r : Nat) :
    Only [.bkts, .obs] (some [.duStatus_role]) (some []) d (Dev.setRole d r) := by
  unfold Dev.setRole
  try dsimp -proj only
  repeat' first
    | exact rfl
    | with_reducible first
        | exact .refl _ | apply Only.step (Dev.irq_only ..) | apply Only.step (Dev.raise_only ..)
        | apply Only.step (Dev.setCd_only ..)
    | split

theorem Dev.leaveActive_only (d : Dev) (r : Nat) :
    Only [.bkts, .obs, .tm, .net, .plc, .duo] (some [.duStatus_role, .swPortStatus_downBp, .swPortStatus_xoff,
          .swStatus_globalXoff, .tmDieStatus_capOverflowSticky]) none d (Dev.leaveActive d r) := by
  unfold Dev.leaveActive
  try dsimp -proj only
  repeat' first
    | exact rfl
    | with_reducible first
        | exact .refl _ | apply Only.step (Dev.roleFlush_only ..) | apply Only.step (Dev.setDuo_only ..)
        | apply Only.step (Dev.setRole_only ..)
    | split

theorem Dev.enterFault_only (d : Dev) (cause : Nat) :
    Only [.boot, .bkts, .obs, .tm, .net, .plc, .duo] (some [.duStatus_faultCause, .duStatus_role, .obFatal_cause,
          .obFatal_fatalSticky, .swPortStatus_downBp, .swPortStatus_xoff, .swStatus_globalXoff,
          .tmDieStatus_capOverflowSticky]) none d (Dev.enterFault d cause) := by
  unfold Dev.enterFault
  try dsimp -proj only
  repeat' first
    | exact rfl
    | with_reducible first
        | exact .refl _ | apply Only.step (Dev.fatalEvent_only ..) | apply Only.step (Dev.leaveActive_only ..)
        | apply Only.step (Dev.setCd_only ..)

theorem Dev.claimCheck_only (d : Dev) (edge : Bool) :
    Only [.boot, .bkts, .obs, .tm, .net, .plc, .duo] (some [.duStatus_faultCause, .duStatus_role,
          .duStatus_takeoverSticky, .obFatal_cause, .obFatal_fatalSticky, .swPortStatus_downBp, .swPortStatus_xoff,
          .swStatus_globalXoff, .tmDieStatus_capOverflowSticky]) none d (Dev.claimCheck d edge) := by
  unfold Dev.claimCheck
  try dsimp -proj only
  repeat' first
    | exact rfl
    | with_reducible first
        | exact .refl _ | apply Only.step (Dev.bump_only ..) | apply Only.step (Dev.enterFault_only ..)
        | apply Only.step (Dev.raise_only ..) | apply Only.step (Dev.setCd_only ..)
        | apply Only.step (Dev.setDuo_only ..) | apply Only.step (Dev.setWide_only ..)
    | split

theorem Dev.setAligned_only (d : Dev) (n : Nat) (on : Bool) :
    Only [] (some [.tmDieStatus_aligned, .tmStatus_aligned]) (some []) d (Dev.setAligned d n on) := by
  unfold Dev.setAligned
  try dsimp -proj only
  repeat' first
    | exact rfl
    | with_reducible first
        | exact .refl _ | apply Only.step (Dev.clrBit_only ..) | apply Only.step (Dev.setBit_only ..)
        | apply Only.step (Dev.setPd_only ..)
    | split

theorem Dev.clapMissed_only (d : Dev) (n : Nat) :
    Only [.bkts, .obs] (some [.tmDieStatus_aligned, .tmDieStatus_missed, .tmStatus_aligned]) (some []) d
          (Dev.clapMissed d n) := by
  unfold Dev.clapMissed
  try dsimp -proj only
  repeat' first
    | exact rfl
    | with_reducible first
        | exact .refl _ | apply Only.step (Dev.raise_only ..) | apply Only.step (Dev.setAligned_only ..)
        | apply Only.step (Dev.setPd_only ..)
    | split

theorem Dev.clearHidden_only (d : Dev) :
    Only [.fw] (some []) (some []) d (Dev.clearHidden d) := by
  unfold Dev.clearHidden
  try simp -proj -zeta only [Dev.mk_fw]
  try dsimp -proj only
  repeat' first
    | exact rfl
    | with_reducible first
        | exact .refl _ | apply Only.step (Dev.withFw_only ..)

theorem Dev.clkBack_only (d : Dev) :
    Only [.bkts, .obs] (some [.tmStatus_timeclkLost]) (some []) d (Dev.clkBack d) := by
  unfold Dev.clkBack
  try dsimp -proj only
  repeat' first
    | exact rfl
    | with_reducible first
        | exact .refl _ | apply Only.step (Dev.irq_only ..) | apply Only.step (Dev.raise_only ..)
        | apply Only.step (Dev.setCd_only ..)
    | split

theorem Dev.clkLost_only (d : Dev) :
    Only [.bkts, .obs, .tm] (some [.tmStatus_timeclkLost, .tmStatus_timeclkLostSticky]) (some []) d (Dev.clkLost d) :=
          by
  unfold Dev.clkLost
  try simp -proj -zeta only [Dev.mk_tm]
  try dsimp -proj only
  repeat' first
    | exact rfl
    | with_reducible first
        | exact .refl _ | apply Only.step (Dev.irq_only ..) | apply Only.step (Dev.raise_only ..)
        | apply Only.step (Dev.setCd_only ..) | apply Only.step (Dev.withTm_only ..)
    | split

theorem Dev.endIntents_only (d : Dev) (k : Nat) (code : Nat) (take : Nat) :
    Only [.plc] (some []) (some []) d (Dev.endIntents d k code take) := by
  unfold Dev.endIntents
  try simp -proj -zeta only [Dev.mk_plc]
  try dsimp -proj only
  repeat' first
    | exact rfl
    | with_reducible first
        | exact .refl _ | apply Only.step (Dev.withPlc_only ..)

theorem Dev.endCommit_only (d : Dev) (c : Commit) :
    Only [.bkts, .obs, .tm, .tak, .plc] (some [.tkCtl_commit, .tkStatus_batchOpen, .tkStatus_code, .tkStatus_late])
          (some [.plMoveCount, .tkLateness]) d (Dev.endCommit d c) := by
  unfold Dev.endCommit
  try dsimp -proj only
  repeat' first
    | exact rfl
    | with_reducible first
        | exact .refl _ | apply Only.step (Dev.bump_only ..) | apply Only.step (Dev.dropCommit_only ..)
        | apply Only.step (Dev.endBatch_only ..) | apply Only.step (Dev.endIntents_only ..)
        | apply Only.step (Dev.raise_only ..) | apply Only.step (Dev.setWide_only ..)
    | split

theorem Dev.writeResult_only (d : Dev) (o : IntentOut) :
    Only [.bkts, .obs, .fw, .tak, .plc] (some [.plHead_head, .plStatus_failSticky, .plStatus_lastCode]) (some
          [.plDoneCount, .plFailCount]) d (Dev.writeResult d o) := by
  unfold Dev.writeResult
  try simp -proj -zeta only [Dev.mk_tak_out]
  try dsimp -proj only
  repeat' first
    | exact rfl
    | with_reducible first
        | exact .refl _ | apply Only.step (Dev.bump_only ..) | apply Only.step (Dev.irq_only ..)
        | apply Only.step (Dev.raise_only ..) | apply Only.step (Dev.reown_only ..)
        | apply Only.step (Dev.setCd_only ..) | apply Only.step (Dev.withOut_only ..)
        | apply Only.step (Dev.withTak_only ..)
    | split

theorem Dev.flushOut_only (d : Dev) (x1 : List IntentOut) :
    Only [.bkts, .obs, .fw, .tak, .plc] (some [.plHead_head, .plStatus_failSticky, .plStatus_lastCode]) (some
          [.plDoneCount, .plFailCount]) d (Dev.flushOut d x1) := by
  fun_induction Dev.flushOut d x1
  all_goals try simp -proj -zeta only [Dev.mk_plc]
  all_goals try dsimp -proj only
  all_goals repeat' first
    | exact rfl
    | with_reducible first
        | exact .refl _ | apply Only.step (by assumption) | apply Only.step (Dev.writeResult_only ..)
        | apply Only.step (Dev.withPlc_only ..)

theorem Dev.flushResults_only (d : Dev) :
    Only [.bkts, .obs, .fw, .tak, .plc] (some [.plHead_head, .plStatus_failSticky, .plStatus_lastCode]) (some
          [.plDoneCount, .plFailCount]) d (Dev.flushResults d) := by
  unfold Dev.flushResults
  try dsimp -proj only
  repeat' first
    | exact rfl
    | with_reducible first
        | exact .refl _ | apply Only.step (Dev.flushOut_only ..)

theorem Dev.confirm_only (d : Dev) :
    Only [.bkts, .obs, .tm, .fw, .tak, .plc] (some [.plHead_head, .plStatus_failSticky, .plStatus_lastCode,
          .tkCtl_commit, .tkStatus_batchOpen, .tkStatus_code, .tkStatus_late]) (some [.plDoneCount, .plFailCount,
          .plMoveCount, .tkCommitCount, .tkLateness]) d (Dev.confirm d) := by
  unfold Dev.confirm
  try dsimp -proj only
  repeat' first
    | exact rfl
    | with_reducible first
        | exact .refl _ | apply Only.step (Dev.bump_only ..) | apply Only.step (Dev.endCommit_only ..)
        | apply Only.step (Dev.flushResults_only ..) | apply Only.step (Dev.raise_only ..) | refine .foldl _ ?_ _ ?_
    | (intro _ _; try dsimp -proj only) | split

theorem Dev.contention_only (d : Dev) :
    Only [.boot, .bkts, .obs, .duo] (some [.duStatus_contentionSticky, .duStatus_splitSticky, .obFatal_cause,
          .obFatal_fatalSticky]) (some []) d (Dev.contention d) := by
  unfold Dev.contention
  try dsimp -proj only
  repeat' first
    | exact rfl
    | with_reducible first
        | exact .refl _ | apply Only.step (Dev.fatalEvent_only ..) | apply Only.step (Dev.setCd_only ..)
        | apply Only.step (Dev.setDuo_only ..)
    | split

theorem Dev.freshOwner_only (d : Dev) :
    Only [.tak] (some []) (some []) d (Dev.freshOwner d).2 := by
  unfold Dev.freshOwner
  try simp -proj -zeta only [Dev.mk_tak]
  try dsimp -proj only
  repeat' first
    | exact rfl
    | with_reducible first
        | exact .refl _ | apply Only.step (Dev.withTak_only ..)

theorem Dev.moveStatic_only (d : Dev) (k : Nat) (n : Nat) (src : Nat) (dst : Nat) (c : AddrEnt) :
    Only [.net, .fw] (some []) (some []) d (Dev.moveStatic d k n src dst c) := by
  unfold Dev.moveStatic
  try dsimp -proj only
  repeat' first
    | exact rfl
    | with_reducible first
        | exact .refl _ | apply Only.step (Dev.delEnt_only ..) | apply Only.step (Dev.putEnt_only ..)
    | split

theorem Dev.putObj_only (d : Dev) (k : Nat) (b : Bool) (h : Nat) (num : Nat) (plans : List (Nat × Nat)) (x : ObjData) :
    Only [.plc] (some []) (some []) d (Dev.putObj d k b h num plans x) := by
  unfold Dev.putObj
  try simp -proj -zeta only [Dev.mk_plc]
  try dsimp -proj only
  repeat' first
    | exact rfl
    | with_reducible first
        | exact .refl _ | apply Only.step (Dev.withPlc_only ..)

theorem Dev.stageMove_only (d : Dev) (k : Nat) (m : SeqMove) :
    optOnly [.net, .fw, .plc] (some []) (some []) d (Dev.stageMove d k m) := by
  unfold Dev.stageMove
  try simp -proj -zeta only [Dev.mk_plc]
  try dsimp -proj only
  repeat' first
    | with_reducible first
        | refine optOnly.some ?_ | exact .refl _ | apply Only.step (Dev.moveStatic_only ..)
        | apply Only.step (Dev.putCam_only ..) | apply Only.step (Dev.putObj_only ..)
        | apply Only.step (Dev.withPlc_only ..) | refine optOnly.foldl _ ?_ _ ?_ | refine optOnly.filter _ ?_
    | (intro _; try dsimp -proj only) | trivial | split

theorem Dev.move_only (d : Dev) (m : SeqMove) :
    Only [.tm, .net, .fw, .tak, .plc] (some [.tkCtl_commit, .tkStatus_batchOpen, .tkStatus_code, .tkStatus_late])
          (some []) d (Dev.move d m) := by
  unfold Dev.move
  try simp -proj -zeta only [Dev.mk_tak]
  try dsimp -proj only
  repeat' first
    | exact rfl
    | with_reducible first
        | exact .refl _ | apply Only.step (Dev.activate_only ..) | apply Only.step (Dev.freshOwner_only ..)
        | apply Only.step (optOnly.of (Dev.stageMove_only ..) (by assumption)) | apply Only.step (Dev.withTak_only ..)
    | split

theorem Dev.copyMeasure_only (d : Dev) (n : Nat) (h : Nat) :
    Only [.tm, .net, .fw, .tak, .plc] (some [.tkCtl_commit, .tkStatus_batchOpen, .tkStatus_code, .tkStatus_late])
          (some []) d (Dev.copyMeasure d n h) := by
  unfold Dev.copyMeasure
  extract_lets plc d1 plc2
  have h1 : Only [.plc] (some []) (some []) d d1 := Dev.withPlc_only d _
  clear_value d1
  split
  · split
    · exact .step (Dev.move_only ..) rfl rfl rfl (.step h1 rfl rfl rfl (.refl _))
    · split
      · exact .step h1 rfl rfl rfl (.refl _)
      · exact .step (Dev.withPlc_only d1 _) rfl rfl rfl (.step h1 rfl rfl rfl (.refl _))
  · exact .step h1 rfl rfl rfl (.refl _)

theorem Dev.countBlock_only (d : Dev) (h : Nat) (n : Nat) (i : Nat) (p : Nat) (b : Nat) :
    Only [.plc] (some []) (some []) d (Dev.countBlock d h n i p b) := by
  unfold Dev.countBlock
  try simp -proj -zeta only [Dev.mk_plc]
  try dsimp -proj only
  repeat' first
    | exact rfl
    | with_reducible first
        | exact .refl _ | apply Only.step (Dev.withPlc_only ..)

theorem Dev.countCollisions_only (d : Dev) (q : Nat) (c : Copy) :
    Only [] (some []) (some [.obStat]) d (Dev.countCollisions d q c) := by
  unfold Dev.countCollisions
  try dsimp -proj only
  repeat' first
    | exact rfl
    | with_reducible first
        | exact .refl _ | apply Only.step (Dev.stat_only ..)
    | split

theorem Dev.countMirror_only (d : Dev) (f : Frame) (k : CopyKind) :
    Only [.net] (some []) none d (Dev.countMirror d f k) := by
  unfold Dev.countMirror
  try dsimp -proj only
  repeat' first
    | exact rfl
    | with_reducible first
        | exact .refl _ | apply Only.step (Dev.countFor_only ..)
    | split

theorem Dev.countPair_only (d : Dev) (f : Frame) (r : CopyReq) :
    Only [.net] (some []) none d (Dev.countPair d f r) := by
  unfold Dev.countPair
  try dsimp -proj only
  repeat' first
    | exact rfl
    | with_reducible first
        | exact .refl _ | apply Only.step (Dev.countFor_only ..)
    | split

theorem Dev.countTail_only (d : Dev) (f : Frame) :
    Only [.net, .plc] (some []) (some []) d (Dev.countTail d f) := by
  unfold Dev.countTail
  try dsimp -proj only
  repeat' first
    | exact rfl
    | with_reducible first
        | exact .refl _ | apply Only.step (Dev.countBlock_only ..) | apply Only.step (Dev.setFrame_only ..)
        | refine .foldl _ ?_ _ ?_
    | (intro _ _; try dsimp -proj only)

theorem Dev.countUnqueued_only (d : Dev) (f : Frame) (r : CopyReq) (k : WKey) :
    Only [.bkts, .obs, .tm, .net] (some [.tmDieStatus_capOverflowSticky]) none d (Dev.countUnqueued d f r k) := by
  unfold Dev.countUnqueued
  try dsimp -proj only
  repeat' first
    | exact rfl
    | with_reducible first
        | exact .refl _ | apply Only.step (Dev.bump_only ..) | apply Only.step (Dev.captureLost_only ..)
        | apply Only.step (Dev.countPlace_only ..)
    | split

theorem Dev.ctTake_only {ps fs xs} {d0 d : Dev} (lane kind seq : Nat) (ok : Bool) (f : Dev → Dev)
    (hp : [.duo].all ps.contains = true) (hf : within (some []) fs = true) (hx : within (some [.duCtBadMsg]) xs = true)
    (h : Only ps fs xs d0 d) (k : ∀ e, Only ps fs xs d0 e → Only ps fs xs d0 (f e)) :
    Only ps fs xs d0 (d.ctTake lane kind seq ok f) := by
  unfold Dev.ctTake
  split
  · exact h
  · split
    · exact .step (Dev.bump_only ..) rfl hf hx h
    · split
      · exact h
      · refine k _ (.step (Dev.setDuo_only ..) hp hf ?_ h)
        cases xs <;> rfl

theorem Dev.cutBuckets_only (d : Dev) (d' : Dev) (n : Nat) :
    Only [.bkts] (some []) (some []) d' (Dev.cutBuckets d d' n) := by
  unfold Dev.cutBuckets
  try dsimp -proj only
  repeat' first
    | exact rfl
    | with_reducible first
        | exact .refl _ | apply Only.step (Dev.setBucket_only ..) | refine .foldl _ ?_ _ ?_
    | (intro _ _; try dsimp -proj only) | split

theorem Dev.pauseAll_only (d : Dev) :
    Only [.bkts, .obs, .net] (some [.swPortStatus_downBp, .swPortStatus_xoff]) (some [.swDownBp]) d (Dev.pauseAll d)
          := by
  unfold Dev.pauseAll
  try dsimp -proj only
  repeat' first
    | exact rfl
    | with_reducible first
        | exact .refl _ | apply Only.step (Dev.pauseInput_only ..) | refine .foldl _ ?_ _ ?_
    | (intro _ _; try dsimp -proj only)

theorem Dev.outputUp_only (d : Dev) (q : Nat) :
    Only [.bkts, .obs, .net] (some [.swPortStatus_discarding, .swPortStatus_downBp, .swPortStatus_holding,
          .swPortStatus_xoff]) (some [.swDownBp]) d (Dev.outputUp d q) := by
  unfold Dev.outputUp
  try dsimp -proj only
  repeat' first
    | exact rfl
    | with_reducible first
        | exact .refl _ | apply Only.step (Dev.pauseAll_only ..) | apply Only.step (Dev.raise_only ..)
        | apply Only.step (Dev.setPd_only ..)
    | split

theorem Dev.fieldUp_only (d : Dev) (p : Nat) :
    Only [.bkts, .obs, .net] (some [.fpPortStatus_up, .swPortStatus_discarding, .swPortStatus_downBp,
          .swPortStatus_holding, .swPortStatus_xoff]) (some [.swDownBp]) d (Dev.fieldUp d p) := by
  unfold Dev.fieldUp
  try dsimp -proj only
  repeat' first
    | exact rfl
    | with_reducible first
        | exact .refl _ | apply Only.step (Dev.outputUp_only ..) | apply Only.step (Dev.setCd_only ..)
    | split

theorem Dev.fieldsUp_only (d : Dev) :
    Only [.bkts, .obs, .net] (some [.fpPortStatus_up, .swPortStatus_discarding, .swPortStatus_downBp,
          .swPortStatus_holding, .swPortStatus_xoff]) (some [.swDownBp]) d (Dev.fieldsUp d) := by
  unfold Dev.fieldsUp
  try dsimp -proj only
  repeat' first
    | exact rfl
    | with_reducible first
        | exact .refl _ | apply Only.step (Dev.fieldUp_only ..) | refine .foldl _ ?_ _ ?_
    | (intro _ _; try dsimp -proj only) | split

theorem Dev.issueFlash_only (d : Dev) :
    Only [.boot] (some []) (some []) d (Dev.issueFlash d) := by
  unfold Dev.issueFlash
  try dsimp -proj only
  repeat' first
    | exact rfl
    | with_reducible first
        | exact .refl _ | apply Only.step (Dev.setBoot_only ..)
    | split

theorem Dev.phyIntFell_only (d : Dev) :
    Only [.bkts, .obs] (some [.fpStatus_phyInt, .fpStatus_phyIntSticky]) (some []) d (Dev.phyIntFell d) := by
  unfold Dev.phyIntFell
  try dsimp -proj only
  repeat' first
    | exact rfl
    | with_reducible first
        | exact .refl _ | apply Only.step (Dev.raise_only ..) | apply Only.step (Dev.setCd_only ..)

theorem Dev.seePhyInt_only (d : Dev) :
    Only [.bkts, .obs] (some [.fpStatus_phyInt, .fpStatus_phyIntSticky]) (some []) d (Dev.seePhyInt d) := by
  unfold Dev.seePhyInt
  try dsimp -proj only
  repeat' first
    | exact rfl
    | with_reducible first
        | exact .refl _ | apply Only.step (Dev.phyIntFell_only ..) | apply Only.step (Dev.setCd_only ..)
    | split

theorem Dev.flush_only (d : Dev) (n : Nat) (port : Option Nat) (fid : Option Nat) :
    Only [.bkts, .obs, .fw] (some [.fwStatus_fillSticky]) (some []) d (Dev.flush d n port fid).1 := by
  unfold Dev.flush
  try dsimp -proj only
  repeat' first
    | exact rfl
    | with_reducible first
        | exact .refl _ | apply Only.step (Dev.fillTest_only ..) | apply Only.step (Dev.setFw_only ..)

theorem Dev.flushPort_only (d : Dev) (n : Nat) (p : Nat) :
    Only [.bkts, .obs, .fw] (some [.fwStatus_fillSticky]) (some []) d (Dev.flushPort d n p) := by
  unfold Dev.flushPort
  try dsimp -proj only
  repeat' first
    | exact rfl
    | with_reducible first
        | exact .refl _ | apply Only.step (Dev.flush_only ..) | apply Only.step (Dev.raise_only ..)

theorem Dev.flushOnDown_only (d : Dev) (p : Nat) :
    Only [.bkts, .obs, .fw] (some [.fwStatus_fillSticky]) (some []) d (Dev.flushOnDown d p) := by
  unfold Dev.flushOnDown
  try dsimp -proj only
  repeat' first
    | exact rfl
    | with_reducible first
        | exact .refl _ | apply Only.step (Dev.flushPort_only ..) | apply Only.step (Dev.setFw_only ..)
        | refine .foldl _ ?_ _ ?_
    | (intro _ _; try dsimp -proj only) | split

theorem Dev.flushClass_only (d : Dev) (q : Nat) (c : Nat) :
    Only [.bkts, .obs, .tm, .net, .plc] (some [.swPortStatus_downBp, .swPortStatus_xoff, .swStatus_globalXoff,
          .tmDieStatus_capOverflowSticky]) none d (Dev.flushClass d q c) := by
  unfold Dev.flushClass
  try dsimp -proj only
  repeat' first
    | exact rfl
    | with_reducible first
        | exact .refl _ | apply Only.step (Dev.discard_only ..) | apply Only.step (Dev.raise_only ..)
        | refine .foldl _ ?_ _ ?_
    | (intro _ _; try dsimp -proj only) | split

theorem Dev.endHold_only (d : Dev) (q : Nat) (c : Nat) :
    Only [.bkts, .obs, .tm, .net, .plc] (some [.swPortStatus_discarding, .swPortStatus_downBp, .swPortStatus_holding,
          .swPortStatus_xoff, .swStatus_globalXoff, .tmDieStatus_capOverflowSticky]) none d (Dev.endHold d q c) := by
  unfold Dev.endHold
  try dsimp -proj only
  repeat' first
    | exact rfl
    | with_reducible first
        | exact .refl _ | apply Only.step (Dev.clrBit_only ..) | apply Only.step (Dev.flushClass_only ..)
        | apply Only.step (Dev.setBit_only ..)

theorem Dev.outputDown_only (d : Dev) (q : Nat) :
    Only [.bkts, .obs, .tm, .net, .plc] (some [.swPortStatus_discarding, .swPortStatus_downBp, .swPortStatus_holding,
          .swPortStatus_xoff, .swStatus_globalXoff, .tmDieStatus_capOverflowSticky]) none d (Dev.outputDown d q) := by
  unfold Dev.outputDown
  try dsimp -proj only
  repeat' first
    | exact rfl
    | with_reducible first
        | exact .refl _ | apply Only.step (Dev.endHold_only ..) | apply Only.step (Dev.pauseAll_only ..)
        | apply Only.step (Dev.raise_only ..) | apply Only.step (Dev.setBit_only ..) | refine .foldl _ ?_ _ ?_
    | (intro _ _; try dsimp -proj only) | split

theorem Dev.fieldDown_only (d : Dev) (p : Nat) :
    Only [.bkts, .obs, .tm, .net, .fw, .plc] (some [.fpPortStatus_up, .fwStatus_fillSticky, .swPortStatus_discarding,
          .swPortStatus_downBp, .swPortStatus_holding, .swPortStatus_xoff, .swStatus_globalXoff,
          .tmDieStatus_capOverflowSticky]) none d (Dev.fieldDown d p) := by
  unfold Dev.fieldDown
  try dsimp -proj only
  repeat' first
    | exact rfl
    | with_reducible first
        | exact .refl _ | apply Only.step (Dev.flushOnDown_only ..) | apply Only.step (Dev.outputDown_only ..)
        | apply Only.step (Dev.setCd_only ..)
    | split

theorem Dev.imageFailed_only (d : Dev) (code : Nat) :
    Only [.boot, .bkts, .obs] (some [.imWriteCtl_abort, .imWriteCtl_start, .imWriteStatus_code, .imWriteStatus_state])
          (some []) d (Dev.imageFailed d code) := by
  unfold Dev.imageFailed
  try dsimp -proj only
  repeat' first
    | exact rfl
    | with_reducible first
        | exact .refl _ | apply Only.step (Dev.irq_only ..) | apply Only.step (Dev.raise_only ..)
        | apply Only.step (Dev.setBoot_only ..) | apply Only.step (Dev.setCd_only ..)

theorem Dev.imageSpilled_only (d : Dev) :
    Only [.boot, .bkts, .obs] (some [.imWriteCtl_abort, .imWriteCtl_start, .imWriteStatus_code, .imWriteStatus_state])
          (some []) d (Dev.imageSpilled d) := by
  unfold Dev.imageSpilled
  try dsimp -proj only
  repeat' first
    | exact rfl
    | with_reducible first
        | exact .refl _ | apply Only.step (Dev.imageFailed_only ..) | apply Only.step (Dev.setBoot_only ..)
    | split

theorem Dev.spillCut_only (d : Dev) (source : Nat) :
    Only [.boot, .bkts, .obs, .tm, .net, .fw, .plc] (some [.aeFaultLast_addr, .aeFaultLast_cause, .aeFaultLast_prog,
          .aeStatus_faultSticky, .aeStatus_paritySticky, .btSceneStatus_cutting, .btSceneStatus_spillSticky,
          .fpPortStatus_bpActive, .fpPortStatus_exceededSticky, .fpPortStatus_up, .fwStatus_fillSticky,
          .imWriteCtl_abort, .imWriteCtl_start, .imWriteStatus_code, .imWriteStatus_state,
          .ptMacThresh_exceededSticky, .swPortStatus_discarding, .swPortStatus_downBp, .swPortStatus_holding,
          .swPortStatus_xoff, .swStatus_globalXoff, .tmDieStatus_capOverflowSticky]) none d (Dev.spillCut d source) :=
          by
  unfold Dev.spillCut
  try dsimp -proj only
  repeat' first
    | exact rfl
    | with_reducible first
        | exact .refl _ | apply Only.step (Dev.beginCut_only ..) | apply Only.step (Dev.fieldDown_only ..)
        | apply Only.step (Dev.imageSpilled_only ..) | apply Only.step (Dev.irq_only ..)
        | apply Only.step (Dev.raise_only ..) | apply Only.step (Dev.setBoot_only ..)
        | apply Only.step (Dev.setCd_only ..) | refine .foldl _ ?_ _ ?_
    | (intro _ _; try dsimp -proj only)

theorem Dev.spillStream_only (d : Dev) :
    Only [] (some []) (some []) d (Dev.spillStream d) := by
  unfold Dev.spillStream
  try simp -proj -zeta only [Dev.mk_out]
  try dsimp -proj only
  repeat' first
    | exact rfl
    | with_reducible first
        | exact .refl _ | apply Only.step (Dev.withOut_only ..)

theorem Dev.withRun_only (d : Dev) (t : Option Nat) :
    Only [.boot] (some []) (some []) d (Dev.withRun d t) := by
  unfold Dev.withRun
  try dsimp -proj only
  repeat' first
    | exact rfl
    | with_reducible first
        | exact .refl _ | apply Only.step (Dev.setBoot_only ..)

theorem Dev.cutComplete_only (d : Dev) :
    Only [.boot, .bkts, .obs, .tm, .net, .fw, .plc] (some [.aeFaultLast_addr, .aeFaultLast_cause, .aeFaultLast_prog,
          .aeStatus_faultSticky, .aeStatus_paritySticky, .btSceneStatus_cutting, .btSceneStatus_scene,
          .btSceneStatus_spillSticky, .fpPortStatus_bpActive, .fpPortStatus_exceededSticky, .fpPortStatus_up,
          .fpStatus_phyInt, .fpStatus_phyIntSticky, .fwStatus_fillSticky, .imWriteCtl_abort, .imWriteCtl_start,
          .imWriteStatus_code, .imWriteStatus_state, .ptMacThresh_exceededSticky, .swPortStatus_discarding,
          .swPortStatus_downBp, .swPortStatus_holding, .swPortStatus_xoff, .swStatus_globalXoff,
          .tmDieStatus_capOverflowSticky]) none d (Dev.cutComplete d) := by
  unfold Dev.cutComplete
  try dsimp -proj only
  repeat' first
    | exact rfl
    | with_reducible first
        | exact .refl _ | apply Only.step (Dev.bump_only ..) | apply Only.step (Dev.fieldsUp_only ..)
        | apply Only.step (Dev.issueFlash_only ..) | apply Only.step (Dev.seePhyInt_only ..)
        | apply Only.step (Dev.setBoot_only ..) | apply Only.step (Dev.setCd_only ..)
        | apply Only.step (Dev.spillCut_only ..) | apply Only.step (Dev.spillStream_only ..)
        | apply Only.step (Dev.withRun_only ..)
    | split

theorem Dev.cutFrames_only (d : Dev) (p : Nat) (cause : Nat) :
    Only [.bkts, .obs, .tm, .net, .plc] (some [.aeFaultLast_addr, .aeFaultLast_cause, .aeFaultLast_prog,
          .aeStatus_faultSticky, .aeStatus_paritySticky, .fpPortStatus_bpActive, .fpPortStatus_exceededSticky,
          .ptMacThresh_exceededSticky, .swPortStatus_downBp, .swPortStatus_xoff, .swStatus_globalXoff,
          .tmDieStatus_capOverflowSticky]) none d (Dev.cutFrames d p cause) := by
  unfold Dev.cutFrames
  try dsimp -proj only
  repeat' first
    | exact rfl
    | with_reducible first
        | exact .refl _ | apply Only.step (Dev.cutReception_only ..) | apply Only.step (Dev.cutTransmission_only ..)
    | split

theorem Dev.cutawayBegin_only (d : Dev) :
    Only [.boot, .bkts, .obs, .tm, .net, .plc] (some [.aeFaultLast_addr, .aeFaultLast_cause, .aeFaultLast_prog,
          .aeStatus_faultSticky, .aeStatus_paritySticky, .btSceneStatus_cutting, .fpPortStatus_bpActive,
          .fpPortStatus_exceededSticky, .ptMacThresh_exceededSticky, .swPortStatus_downBp, .swPortStatus_xoff,
          .swStatus_globalXoff, .tmDieStatus_capOverflowSticky]) none d (Dev.cutawayBegin d) := by
  unfold Dev.cutawayBegin
  try dsimp -proj only
  repeat' first
    | exact rfl
    | with_reducible first
        | exact .refl _ | apply Only.step (Dev.beginCut_only ..) | apply Only.step (Dev.bump_only ..)
        | apply Only.step (Dev.setBoot_only ..)
    | split

theorem Dev.defer_only (d : Dev) (f : Frame) (m : Nat) (r : CopyReq) :
    Only [.bkts, .obs, .net] (some []) none d (Dev.defer d f m r) := by
  unfold Dev.defer
  try dsimp -proj only
  repeat' first
    | exact rfl
    | with_reducible first
        | exact .refl _ | apply Only.step (Dev.addCopy_only ..) | apply Only.step (Dev.countFor_only ..)
        | apply Only.step (Dev.raiseOnce_only ..)

theorem Dev.setRing_only (d : Dev) (r : Nat) (x : Ring) :
    Only [.obs] (some []) (some []) d (Dev.setRing d r x) := by
  unfold Dev.setRing
  try simp -proj -zeta only [Dev.mk_obs]
  try dsimp -proj only
  repeat' first
    | exact rfl
    | with_reducible first
        | exact .refl _ | apply Only.step (Dev.withObs_only ..)

theorem Dev.deliver_only (d : Dev) (r : Nat) (e : EvRec) (late : Bool) :
    Only [.obs] (some [.obDWptr_wptr]) (some [.obDDelivered, .obDLateOrder]) d (Dev.deliver d r e late) := by
  unfold Dev.deliver
  try simp -proj -zeta only [Dev.mk_obs_out]
  try dsimp -proj only
  repeat' first
    | exact rfl
    | with_reducible first
        | exact .refl _ | apply Only.step (Dev.bump_only ..) | apply Only.step (Dev.irq_only ..)
        | apply Only.step (Dev.setCd_only ..) | apply Only.step (Dev.setRing_only ..)
        | apply Only.step (Dev.withObs_only ..) | apply Only.step (Dev.withOut_only ..)
    | split

theorem Dev.disagree_only (d : Dev) (on : Bool) :
    Only [.bkts, .obs, .duo] (some [.duStatus_interlockLostSticky]) (some []) d (Dev.disagree d on) := by
  unfold Dev.disagree
  try dsimp -proj only
  repeat' first
    | exact rfl
    | with_reducible first
        | exact .refl _ | apply Only.step (Dev.raise_only ..) | apply Only.step (Dev.setCd_only ..)
        | apply Only.step (Dev.setDuo_only ..)
    | split

theorem Dev.linkDown_only (d : Dev) (p : Nat) (cause : Nat) :
    Only [.bkts, .obs, .tm, .net, .fw, .plc] (some [.aeFaultLast_addr, .aeFaultLast_cause, .aeFaultLast_prog,
          .aeStatus_faultSticky, .aeStatus_paritySticky, .fpPortStatus_bpActive, .fpPortStatus_exceededSticky,
          .fwStatus_fillSticky, .ptMacThresh_exceededSticky, .ptPortStatus_downCount, .ptPortStatus_lastCause,
          .ptPortStatus_state, .swPortStatus_discarding, .swPortStatus_downBp, .swPortStatus_holding,
          .swPortStatus_xoff, .swStatus_globalXoff, .tmDieStatus_capOverflowSticky]) none d (Dev.linkDown d p cause)
          := by
  unfold Dev.linkDown
  try dsimp -proj only
  repeat' first
    | exact rfl
    | with_reducible first
        | exact .refl _ | apply Only.step (Dev.cutFrames_only ..) | apply Only.step (Dev.flushOnDown_only ..)
        | apply Only.step (Dev.outputDown_only ..) | apply Only.step (Dev.raise_only ..)
        | apply Only.step (Dev.setLink_only ..) | apply Only.step (Dev.setPd_only ..)

end Sys2Proof.Machine
end

