-- ==== Sys2Proof/Laws/Frame3.lean ====
section
/-! SUPPORT. What the operations on the device may change, part 3: one lemma for each operation, the operations it rests on first. -/

namespace Sys2Proof.Machine

theorem Dev.linkCause_only (d : Dev) (p : Nat) (cause : Nat) :
    Only [.bkts, .obs, .tm, .net, .fw, .plc] (some [.aeFaultLast_addr, .aeFaultLast_cause, .aeFaultLast_prog,
          .aeStatus_faultSticky, .aeStatus_paritySticky, .fpPortStatus_bpActive, .fpPortStatus_exceededSticky,
          .fwStatus_fillSticky, .ptMacThresh_exceededSticky, .ptPortStatus_downCount, .ptPortStatus_lastCause,
          .ptPortStatus_state, .swPortStatus_discarding, .swPortStatus_downBp, .swPortStatus_holding,
          .swPortStatus_xoff, .swStatus_globalXoff, .tmDieStatus_capOverflowSticky]) none d (Dev.linkCause d p cause)
          := by
  unfold Dev.linkCause
  try dsimp -proj only
  repeat' first
    | exact rfl
    | with_reducible first
        | exact .refl _ | apply Only.step (Dev.linkDown_only ..) | apply Only.step (Dev.setLink_only ..)
    | split

theorem Dev.finishDisable_only (d : Dev) (p : Nat) :
    Only [.bkts, .obs, .tm, .net, .fw, .plc] (some [.aeFaultLast_addr, .aeFaultLast_cause, .aeFaultLast_prog,
          .aeStatus_faultSticky, .aeStatus_paritySticky, .fpPortStatus_bpActive, .fpPortStatus_exceededSticky,
          .fwStatus_fillSticky, .ptMacThresh_exceededSticky, .ptPortStatus_downCount, .ptPortStatus_lastCause,
          .ptPortStatus_state, .swPortStatus_discarding, .swPortStatus_downBp, .swPortStatus_holding,
          .swPortStatus_xoff, .swStatus_globalXoff, .tmDieStatus_capOverflowSticky]) none d (Dev.finishDisable d p) :=
          by
  unfold Dev.finishDisable
  try dsimp -proj only
  repeat' first
    | exact rfl
    | with_reducible first
        | exact .refl _ | apply Only.step (Dev.linkCause_only ..)
    | split

theorem Dev.downCause_only (d : Dev) (p : Nat) (cause : Nat) :
    Only [.bkts, .obs, .tm, .net, .fw, .plc] (some [.aeFaultLast_addr, .aeFaultLast_cause, .aeFaultLast_prog,
          .aeStatus_faultSticky, .aeStatus_paritySticky, .fpPortStatus_bpActive, .fpPortStatus_exceededSticky,
          .fwStatus_fillSticky, .ptMacThresh_exceededSticky, .ptPortStatus_downCount, .ptPortStatus_lastCause,
          .ptPortStatus_state, .swPortStatus_discarding, .swPortStatus_downBp, .swPortStatus_holding,
          .swPortStatus_xoff, .swStatus_globalXoff, .tmDieStatus_capOverflowSticky]) none d (Dev.downCause d p cause)
          := by
  unfold Dev.downCause
  try dsimp -proj only
  repeat' first
    | exact rfl
    | with_reducible first
        | exact .refl _ | apply Only.step (Dev.cutFrames_only ..) | apply Only.step (Dev.finishDisable_only ..)
        | apply Only.step (Dev.linkCause_only ..) | apply Only.step (Dev.setLink_only ..)
    | split

theorem Dev.drawSeq_only (d : Dev) (n : Nat) (i : Nat) :
    Only [] (some []) (some [.aeSeq]) d (Dev.drawSeq d n i).2 := by
  unfold Dev.drawSeq
  try dsimp -proj only
  repeat' first
    | exact rfl
    | with_reducible first
        | exact .refl _ | apply Only.step (Dev.setWide_only ..)

theorem Dev.drawRtag_only (d : Dev) (f : Frame) :
    Only [] (some []) (some [.aeSeq]) d (Dev.drawRtag d f).1 := by
  unfold Dev.drawRtag
  try dsimp -proj only
  repeat' first
    | exact rfl
    | with_reducible first
        | exact .refl _ | apply Only.step (Dev.drawSeq_only ..)
    | split

theorem Dev.driftFabric_only (d : Dev) (a : Nat) (b : Nat) (k : Nat) (m : Nat) :
    Only [.bkts, .obs, .fab] (some [.fbLaneStatus_state, .fbLinkStatus_belowMinSticky, .lnTestStatus_margin]) (some
          []) d (Dev.driftFabric d a b k m) := by
  unfold Dev.driftFabric
  try dsimp -proj only
  repeat' first
    | exact rfl
    | with_reducible first
        | exact .refl _ | apply Only.step (Dev.setLaneX_only ..) | apply Only.step (Dev.setPd_only ..)
        | apply Only.step (Dev.wearLane_only ..)
    | split

theorem Dev.driftOther_only (d : Dev) (die : Nat) (key : Nat) (kind : Nat) (i : Nat) (w : Nat) (steps : Nat) (m : Nat) :
    Only [.bkts, .obs, .fab] (some [.lnTestStatus_baseline, .lnTestStatus_margin]) (some []) d (Dev.driftOther d die
          key kind i w steps m) := by
  unfold Dev.driftOther
  try simp -proj -zeta only [Dev.mk_fab]
  try dsimp -proj only
  repeat' first
    | exact rfl
    | with_reducible first
        | exact .refl _ | apply Only.step (Dev.raise_only ..) | apply Only.step (Dev.setFld_only ..)
        | apply Only.step (Dev.withFab_only ..)
    | split

theorem Dev.dropJobs_only (d : Dev) (f : TreeJob → Bool) :
    Only [.plc] (some []) (some []) d (Dev.dropJobs d f) := by
  unfold Dev.dropJobs
  try simp -proj -zeta only [Dev.mk_plc]
  try dsimp -proj only
  repeat' first
    | exact rfl
    | with_reducible first
        | exact .refl _ | apply Only.step (Dev.withPlc_only ..)

theorem Dev.dropLane_only (d : Dev) (a : Nat) (b : Nat) (k : Nat) (cause : Nat) :
    Only [.bkts, .obs, .net, .fab] (some [.fbLaneCtl_calibrate, .fbLaneStatus_lastCause, .fbLaneStatus_removals,
          .fbLaneStatus_state, .fbLaneStatus_txIdle, .fbLinkStatus_belowMinSticky, .lnTestStatus_code,
          .lnTestStatus_state]) (some [.lnBitErrors, .lnBits, .lnSyncErrors]) d (Dev.dropLane d a b k cause) := by
  unfold Dev.dropLane
  try dsimp -proj only
  repeat' first
    | exact rfl
    | with_reducible first
        | exact .refl _ | apply Only.step (Dev.afterLeave_only ..) | apply Only.step (Dev.loseBegun_only ..)
        | apply Only.step (Dev.minServiceTest_only ..) | apply Only.step (Dev.noteRemoval_only ..)
        | apply Only.step (Dev.setLane_only ..) | apply Only.step (Dev.setLaneX_only ..)
        | apply Only.step (Dev.shed_only ..)

theorem Dev.duClaim_only (d : Dev) :
    Only [] (some [.duCtl_claim]) (some []) d (Dev.duClaim d) := by
  unfold Dev.duClaim
  try dsimp -proj only
  repeat' first
    | exact rfl
    | with_reducible first
        | exact .refl _ | apply Only.step (Dev.setCd_only ..)
    | split

theorem Dev.tryClear_only (d : Dev) :
    Only [.bkts, .obs, .duo] (some [.duStatus_faultCause, .duStatus_role]) (some []) d (Dev.tryClear d) := by
  unfold Dev.tryClear
  try dsimp -proj only
  repeat' first
    | exact rfl
    | with_reducible first
        | exact .refl _ | apply Only.step (Dev.setCd_only ..) | apply Only.step (Dev.setDuo_only ..)
        | apply Only.step (Dev.setRole_only ..)
    | split

theorem Dev.duClear_only (d : Dev) :
    Only [.bkts, .obs, .duo] (some [.duStatus_faultCause, .duStatus_role]) (some []) d (Dev.duClear d) := by
  unfold Dev.duClear
  try dsimp -proj only
  repeat' first
    | exact rfl
    | with_reducible first
        | exact .refl _ | apply Only.step (Dev.setDuo_only ..) | apply Only.step (Dev.tryClear_only ..)
    | split

theorem Dev.duFeed_only (d : Dev) :
    Only [.bkts, .obs, .duo] (some [.duStatus_faultCause, .duStatus_role]) (some []) d (Dev.duFeed d) := by
  unfold Dev.duFeed
  try dsimp -proj only
  repeat' first
    | exact rfl
    | with_reducible first
        | exact .refl _ | apply Only.step (Dev.setDuo_only ..) | apply Only.step (Dev.tryClear_only ..)

theorem Dev.duRelease_only (d : Dev) :
    Only [.bkts, .obs, .tm, .net, .plc, .duo] (some [.duCtl_claim, .duStatus_role, .swPortStatus_downBp,
          .swPortStatus_xoff, .swStatus_globalXoff, .tmDieStatus_capOverflowSticky]) none d (Dev.duRelease d) := by
  unfold Dev.duRelease
  try dsimp -proj only
  repeat' first
    | exact rfl
    | with_reducible first
        | exact .refl _ | apply Only.step (Dev.ctNext_only ..) | apply Only.step (Dev.leaveActive_only ..)
        | apply Only.step (Dev.setCd_only ..) | apply Only.step (Dev.setDuo_only ..)
    | split

theorem Dev.evalActive_only (d : Dev) :
    Only [.boot, .bkts, .obs, .tm, .net, .plc, .duo] (some [.duStatus_contentionSticky, .duStatus_faultCause,
          .duStatus_interlockLostSticky, .duStatus_role, .duStatus_splitSticky, .obFatal_cause, .obFatal_fatalSticky,
          .swPortStatus_downBp, .swPortStatus_xoff, .swStatus_globalXoff, .tmDieStatus_capOverflowSticky]) none d
          (Dev.evalActive d) := by
  unfold Dev.evalActive
  try dsimp -proj only
  repeat' first
    | exact rfl
    | with_reducible first
        | exact .refl _ | apply Only.step (Dev.contention_only ..) | apply Only.step (Dev.disagree_only ..)
        | apply Only.step (Dev.enterFault_only ..) | apply Only.step (Dev.leaveActive_only ..)
        | apply Only.step (Dev.setDuo_only ..)
    | split

theorem Dev.evalStandby_only (d : Dev) :
    Only [.bkts, .obs, .duo] (some [.duCtl_claim, .duStatus_interlockLostSticky, .duStatus_role]) (some []) d
          (Dev.evalStandby d) := by
  unfold Dev.evalStandby
  try dsimp -proj only
  repeat' first
    | exact rfl
    | with_reducible first
        | exact .refl _ | apply Only.step (Dev.disagree_only ..) | apply Only.step (Dev.setCd_only ..)
        | apply Only.step (Dev.setDuo_only ..) | apply Only.step (Dev.setRole_only ..)
    | split

theorem Dev.renumber_only (d : Dev) (by_ : Nat) :
    Only [.net, .fw, .tak, .plc] (some []) (some []) d (Dev.renumber d by_) := by
  unfold Dev.renumber
  try simp -proj -zeta only [Dev.mk_net_tak_plc]
  try dsimp -proj only
  repeat' first
    | exact rfl
    | with_reducible first
        | exact .refl _ | apply Only.step (Dev.mapVers_only ..) | apply Only.step (Dev.withNet_only ..)
        | apply Only.step (Dev.withPlc_only ..) | apply Only.step (Dev.withTak_only ..)

theorem Dev.flipHalf_only (d : Dev) (pattern : Bool) (n : Nat) (t : Nat) :
    Only [.plc] (some []) (some []) d (Dev.flipHalf d pattern n t) := by
  unfold Dev.flipHalf
  try simp -proj -zeta only [Dev.mk_plc]
  try dsimp -proj only
  repeat' first
    | exact rfl
    | with_reducible first
        | exact .refl _ | apply Only.step (Dev.withPlc_only ..)

theorem Dev.sealEvicts_only (d : Dev) (k : Nat) :
    Only [.fw, .plc] (some []) (some [.fwEvict]) d (Dev.sealEvicts d k) := by
  unfold Dev.sealEvicts
  try simp -proj -zeta only [Dev.mk_plc]
  try dsimp -proj only
  repeat' first
    | exact rfl
    | with_reducible first
        | exact .refl _ | apply Only.step (Dev.bump_only ..) | apply Only.step (Dev.putEnt_only ..)
        | apply Only.step (Dev.withPlc_only ..) | refine .foldl _ ?_ _ ?_
    | (intro _ _; try dsimp -proj only) | split

theorem Dev.sealCommit_only (d : Dev) (c : Commit) (n : Nat) (s : Nat) (late : Bool) :
    Only [.fw, .tak, .plc, .duo] (some []) (some [.duCommitCount, .fwEvict]) d (Dev.sealCommit d c n s late) := by
  unfold Dev.sealCommit
  try dsimp -proj only
  repeat' first
    | exact rfl
    | with_reducible first
        | exact .refl _ | apply Only.step (Dev.bump_only ..) | apply Only.step (Dev.ctNext_only ..)
        | apply Only.step (Dev.flipHalf_only ..) | apply Only.step (Dev.mapVers_only ..)
        | apply Only.step (Dev.sealEvicts_only ..) | apply Only.step (Dev.setCommit_only ..) | refine .foldl _ ?_ _ ?_
    | (intro _ _; try dsimp -proj only) | split

theorem Dev.sealPeer_only (d : Dev) (n : Nat) (s : Nat) (c : Nat) :
    Only [.fw, .tak, .plc, .duo] (some []) (some [.duCommitCount, .fwEvict]) d (Dev.sealPeer d n s c) := by
  unfold Dev.sealPeer
  try simp -proj -zeta only [Dev.mk_tak]
  try dsimp -proj only
  repeat' first
    | exact rfl
    | with_reducible first
        | exact .refl _ | apply Only.step (Dev.sealCommit_only ..) | apply Only.step (Dev.withTak_only ..)
        | refine .foldl _ ?_ _ ?_
    | (intro _ _; try dsimp -proj only)

theorem Dev.followTake_only (d : Dev) :
    Only [.net, .fw, .tak, .plc, .duo] (some []) (some [.duCommitCount, .fwEvict]) d (Dev.followTake d) := by
  unfold Dev.followTake
  try dsimp -proj only
  repeat' first
    | exact rfl
    | with_reducible first
        | exact .refl _ | apply Only.step (Dev.renumber_only ..) | apply Only.step (Dev.sealPeer_only ..)
        | apply Only.step (Dev.setDuo_only ..)
    | split

theorem Dev.lagUpdate_only (d : Dev) :
    Only [.bkts, .obs] (some [.duStatus_takeLag]) (some []) d (Dev.lagUpdate d) := by
  unfold Dev.lagUpdate
  try dsimp -proj only
  repeat' first
    | exact rfl
    | with_reducible first
        | exact .refl _ | apply Only.step (Dev.raise_only ..) | apply Only.step (Dev.setCd_only ..)
    | split

theorem Dev.leaveInit_only (d : Dev) :
    Only [.bkts, .obs] (some [.duStatus_role]) (some []) d (Dev.leaveInit d) := by
  unfold Dev.leaveInit
  try dsimp -proj only
  repeat' first
    | exact rfl
    | with_reducible first
        | exact .refl _ | apply Only.step (Dev.setRole_only ..)
    | split

theorem Dev.duoEval_only (d : Dev) (peer : Bool) (own : Bool) :
    Only [.boot, .bkts, .obs, .tm, .net, .fw, .tak, .plc, .duo] (some [.duCtl_claim, .duStatus_claimGood,
          .duStatus_contentionSticky, .duStatus_faultCause, .duStatus_interlockLostSticky, .duStatus_peerClaim,
          .duStatus_role, .duStatus_splitSticky, .duStatus_takeLag, .obFatal_cause, .obFatal_fatalSticky,
          .swPortStatus_downBp, .swPortStatus_xoff, .swStatus_globalXoff, .tmDieStatus_capOverflowSticky]) none d
          (Dev.duoEval d peer own) := by
  unfold Dev.duoEval
  try dsimp -proj only
  repeat' first
    | exact rfl
    | with_reducible first
        | exact .refl _ | assumption | apply Only.step (Dev.askTake_only ..) | apply Only.step (Dev.ctNext_only ..)
        | apply Only.step (Dev.evalActive_only ..) | apply Only.step (Dev.evalStandby_only ..)
        | apply Only.step (Dev.followTake_only ..) | apply Only.step (Dev.lagUpdate_only ..)
        | apply Only.step (Dev.leaveInit_only ..) | apply Only.step (Dev.setCd_only ..)
        | apply Only.step (Dev.setDuo_only ..) | refine .foldl _ ?_ _ ?_
    | (intro _ _; try dsimp -proj only) | (intro _; try dsimp -proj only) | trivial | (dsimp -proj only) | split

theorem Dev.dupCheck_only (d : Dev) (n : Nat) (p : Nat) (src : Nat) (s : Nat) :
    Only [.bkts, .obs, .fw] (some []) (some [.fwRedundancy]) d (Dev.dupCheck d n p src s).1 := by
  unfold Dev.dupCheck
  try dsimp -proj only
  repeat' first
    | exact rfl
    | with_reducible first
        | exact .refl _ | apply Only.step (Dev.bump_only ..) | apply Only.step (Dev.raiseOnce_only ..)
        | apply Only.step (Dev.setFw_only ..)
    | split

theorem Dev.dupReceive_only (d : Dev) (f : Frame) :
    Only [.bkts, .obs, .fw] (some []) (some [.fwRedundancy]) d (Dev.dupReceive d f).1 := by
  unfold Dev.dupReceive
  try dsimp -proj only
  repeat' first
    | exact rfl
    | with_reducible first
        | exact .refl _ | apply Only.step (Dev.bump_only ..) | apply Only.step (Dev.dupCheck_only ..)
        | apply Only.step (Dev.raiseOnce_only ..)
    | split

theorem Dev.lookupParity_only (d : Dev) (n : Nat) (key : Nat) :
    Only [.bkts, .obs, .net] (some [.fwStatus_paritySticky]) (some [.fwParity]) d (Dev.lookupParity d n key) := by
  unfold Dev.lookupParity
  try dsimp -proj only
  repeat' first
    | exact rfl
    | with_reducible first
        | exact .refl _ | apply Only.step (Dev.tableAlarm_only ..) | refine .foldl _ ?_ _ ?_
    | (intro _ _; try dsimp -proj only) | split

theorem Dev.egressLearn_only (d : Dev) (f : Frame) (c : Copy) :
    Only [.bkts, .obs, .net, .fw] (some [.fwStatus_paritySticky]) (some [.fwLearnDrop, .fwParity]) d (Dev.egressLearn
          d f c) := by
  unfold Dev.egressLearn
  try dsimp -proj only
  repeat' first
    | exact rfl
    | with_reducible first
        | exact .refl _ | apply Only.step (Dev.learn_only ..) | apply Only.step (Dev.lookupParity_only ..)
        | apply Only.step (Dev.setFrame_only ..)
    | split

theorem Dev.enablesSet_only (d : Dev) (was : Dev) :
    Only [] (some []) (some []) d (Dev.enablesSet d was) := by
  unfold Dev.enablesSet
  try dsimp -proj only
  repeat' first
    | exact rfl
    | with_reducible first
        | exact .refl _ | apply Only.step (Dev.sendIrq_only ..) | refine .foldl _ ?_ _ ?_
    | (intro _ _; try dsimp -proj only) | split

theorem Dev.setSec_only (d : Dev) (x : Sec) :
    Only [.sec] (some []) (some []) d (Dev.setSec d x) := by
  unfold Dev.setSec
  try simp -proj -zeta only [Dev.mk_sec]
  try dsimp -proj only
  repeat' first
    | exact rfl
    | with_reducible first
        | exact .refl _ | apply Only.step (Dev.withSec_only ..)

theorem Dev.endChallenge_only (d : Dev) :
    Only [.sec] (some []) (some [.scChallenge]) d (Dev.endChallenge d) := by
  unfold Dev.endChallenge
  try dsimp -proj only
  repeat' first
    | exact rfl
    | with_reducible first
        | exact .refl _ | apply Only.step (Dev.setSec_only ..) | apply Only.step (Dev.setWide_only ..)

theorem Dev.txStats_only (d : Dev) (p : Nat) (len : Nat) (mac : Nat) :
    Only [.obs] (some []) (some [.obStat]) d (Dev.txStats d p len mac) := by
  unfold Dev.txStats
  try dsimp -proj only
  repeat' first
    | exact rfl
    | with_reducible first
        | exact .refl _ | apply Only.step (Dev.bwAdd_only ..) | apply Only.step (Dev.stat_only ..)
    | split

theorem Dev.endCopy_only (d : Dev) (q : Nat) (f : Frame) (c : Copy) :
    Only [.bkts, .obs, .tm, .net, .fw, .plc, .dma] (some [.fpPortStatus_exceededSticky, .fwStatus_paritySticky,
          .ptMacThresh_exceededSticky, .swPortStatus_downBp, .swPortStatus_xoff, .swStatus_globalXoff,
          .tmDieStatus_capOverflowSticky]) (some [.fwLearnDrop, .fwParity, .obStat, .swDownBp, .tmCapOverflow]) d
          (Dev.endCopy d q f c) := by
  unfold Dev.endCopy
  try simp -proj -zeta only [Dev.mk_dma, Dev.mk_out]
  try dsimp -proj only
  repeat' first
    | exact rfl
    | with_reducible first
        | exact .refl _ | apply Only.step (Dev.capture_only ..) | apply Only.step (Dev.chargeTx_only ..)
        | apply Only.step (Dev.countCollisions_only ..) | apply Only.step (Dev.egressLearn_only ..)
        | apply Only.step (Dev.pmc_only ..) | apply Only.step (Dev.stopTx_only ..)
        | apply Only.step (Dev.takeOut_only ..) | apply Only.step (Dev.txDrop_only ..)
        | apply Only.step (Dev.txStats_only ..) | apply Only.step (Dev.withDma_only ..)
        | apply Only.step (Dev.withOut_only ..)
    | split

theorem Dev.endFull_only (d : Dev) (j : TreeJob) (code : Nat) (pct : Nat) :
    Only [.bkts, .obs] (some [.clTreeCtl_rebuild]) (some []) d (Dev.endFull d j code pct) := by
  unfold Dev.endFull
  try dsimp -proj only
  repeat' first
    | exact rfl
    | with_reducible first
        | exact .refl _ | apply Only.step (Dev.raise_only ..) | apply Only.step (Dev.setPd_only ..)
    | split

theorem Dev.endInterval_only (d : Dev) (n : Nat) :
    Only [.bkts, .obs, .net] (some []) (some []) d (Dev.endInterval d n) := by
  unfold Dev.endInterval
  try simp -proj -zeta only [Dev.mk_obs_net]
  try dsimp -proj only
  repeat' first
    | exact rfl
    | with_reducible first
        | exact .refl _ | apply Only.step (Dev.raise_only ..) | apply Only.step (Dev.withNet_only ..)
        | apply Only.step (Dev.withObs_only ..) | refine .foldl _ ?_ _ ?_
    | (intro _ _; try dsimp -proj only) | split

theorem Dev.endStatics_only (d : Dev) (h : Nat) (f : Ver → Ver) :
    Only [.fw, .plc] (some []) (some []) d (Dev.endStatics d h f) := by
  unfold Dev.endStatics
  try simp -proj -zeta only [Dev.mk_fw_plc]
  try dsimp -proj only
  repeat' first
    | exact rfl
    | with_reducible first
        | exact .refl _ | apply Only.step (Dev.withFw_only ..) | apply Only.step (Dev.withPlc_only ..)

theorem Dev.endObj_only (d : Dev) (k : Nat) (h : Nat) :
    Only [.fw, .plc] (some []) (some []) d (Dev.endObj d k h) := by
  unfold Dev.endObj
  try simp -proj -zeta only [Dev.mk_plc]
  try dsimp -proj only
  repeat' first
    | exact rfl
    | with_reducible first
        | exact .refl _ | apply Only.step (Dev.endStatics_only ..) | apply Only.step (Dev.withPlc_only ..)

theorem Dev.judgePairs_only (d : Dev) (n : Nat) :
    Only [.bkts, .obs] (some [.fwPrpCtl_pairErr]) (some []) d (Dev.judgePairs d n) := by
  unfold Dev.judgePairs
  try dsimp -proj only
  repeat' first
    | exact rfl
    | with_reducible first
        | exact .refl _ | apply Only.step (Dev.raise_only ..) | apply Only.step (Dev.setPd_only ..)
        | refine .foldl _ ?_ _ ?_
    | (intro _ _; try dsimp -proj only) | split

theorem Dev.laneOut_only (d : Dev) (a : Nat) (b : Nat) (k : Nat) (out : Bool) :
    Only [.bkts, .obs, .net, .fab] (some [.fbLaneCtl_calibrate, .fbLaneCtl_out, .fbLaneStatus_lastCause,
          .fbLaneStatus_removals, .fbLaneStatus_state, .fbLaneStatus_txIdle, .fbLinkStatus_belowMinSticky,
          .lnTestStatus_code, .lnTestStatus_state]) (some [.lnBitErrors, .lnBits, .lnSyncErrors]) d (Dev.laneOut d a b
          k out) := by
  unfold Dev.laneOut
  try dsimp -proj only
  repeat' first
    | exact rfl
    | with_reducible first
        | exact .refl _ | apply Only.step (Dev.drainLane_only ..) | apply Only.step (Dev.endLaneRequests_only ..)
        | apply Only.step (Dev.pairTo_only ..) | apply Only.step (Dev.setLaneX_only ..)
        | apply Only.step (Dev.setPd_only ..) | apply Only.step (Dev.wakeWaiting_only ..)
    | split

theorem Dev.groupDark_only (d : Dev) (g : Nat) :
    Only [.bkts, .obs, .tm, .net, .fw, .plc] (some [.aeFaultLast_addr, .aeFaultLast_cause, .aeFaultLast_prog,
          .aeStatus_faultSticky, .aeStatus_paritySticky, .fpPortStatus_bpActive, .fpPortStatus_exceededSticky,
          .fwStatus_fillSticky, .ptMacThresh_exceededSticky, .ptPortStatus_downCount, .ptPortStatus_lastCause,
          .ptPortStatus_state, .swPortStatus_discarding, .swPortStatus_downBp, .swPortStatus_holding,
          .swPortStatus_xoff, .swStatus_globalXoff, .tmDieStatus_capOverflowSticky]) none d (Dev.groupDark d g) := by
  unfold Dev.groupDark
  try dsimp -proj only
  repeat' first
    | exact rfl
    | with_reducible first
        | exact .refl _ | apply Only.step (Dev.linkCause_only ..) | refine .foldl _ ?_ _ ?_
    | (intro _ _; try dsimp -proj only) | split

theorem Dev.i2cWrite_only (d : Dev) (k : Nat) (reg : Nat) (value : Nat) :
    Only [] (some []) (some []) d (Dev.i2cWrite d k reg value) := by
  unfold Dev.i2cWrite
  try simp -proj -zeta only [Dev.mk_out]
  try dsimp -proj only
  repeat' first
    | exact rfl
    | with_reducible first
        | exact .refl _ | apply Only.step (Dev.withOut_only ..)

theorem Dev.setLight_only (d : Dev) (g : Nat) (v : Nat) :
    Only [.net] (some [.opFibreStatus_dark]) (some []) d (Dev.setLight d g v) := by
  unfold Dev.setLight
  try simp -proj -zeta only [Dev.mk_net]
  try dsimp -proj only
  repeat' first
    | exact rfl
    | with_reducible first
        | exact .refl _ | apply Only.step (Dev.setFld_only ..) | apply Only.step (Dev.withNet_only ..)

theorem Dev.lsEnUpdate_only (d : Dev) :
    Only [.bkts, .obs, .tm, .net, .fw, .plc] (some [.aeFaultLast_addr, .aeFaultLast_cause, .aeFaultLast_prog,
          .aeStatus_faultSticky, .aeStatus_paritySticky, .dvLaserCtl_lsEnState, .fpPortStatus_bpActive,
          .fpPortStatus_exceededSticky, .fwStatus_fillSticky, .opFibreStatus_dark, .ptMacThresh_exceededSticky,
          .ptPortStatus_downCount, .ptPortStatus_lastCause, .ptPortStatus_state, .swPortStatus_discarding,
          .swPortStatus_downBp, .swPortStatus_holding, .swPortStatus_xoff, .swStatus_globalXoff,
          .tmDieStatus_capOverflowSticky]) none d (Dev.lsEnUpdate d) := by
  unfold Dev.lsEnUpdate
  try dsimp -proj only
  repeat' first
    | exact rfl
    | with_reducible first
        | exact .refl _ | apply Only.step (Dev.groupDark_only ..) | apply Only.step (Dev.i2cWrite_only ..)
        | apply Only.step (Dev.setCd_only ..) | apply Only.step (Dev.setLight_only ..) | refine .foldl _ ?_ _ ?_
    | (intro _ _; try dsimp -proj only) | split

theorem Dev.setGate_only (d : Dev) (q : Nat) (g : GateSt) :
    Only [.net] (some []) (some []) d (Dev.setGate d q g) := by
  unfold Dev.setGate
  try simp -proj -zeta only [Dev.mk_net]
  try dsimp -proj only
  repeat' first
    | exact rfl
    | with_reducible first
        | exact .refl _ | apply Only.step (Dev.withNet_only ..)

theorem Dev.safeEffect_only (d : Dev) (r : Reg) (w : Nat) (i : Nat) (j : Nat) :
    Only [.bkts, .obs, .tm, .net, .fw, .plc, .fab, .dma] (some [.aeFaultLast_addr, .aeFaultLast_cause,
          .aeFaultLast_prog, .aeStatus_faultSticky, .aeStatus_paritySticky, .dmChCtl_abort, .dmChCtl_start,
          .dmChIndex2_i2, .dmChIndex_i0, .dmChIndex_i1, .dmChStatus_code, .dmChStatus_state, .dvLaserCtl_lsEnState,
          .egGateStatus_gates, .fbLaneCtl_calibrate, .fbLaneCtl_out, .fbLaneStatus_lastCause, .fbLaneStatus_removals,
          .fbLaneStatus_state, .fbLaneStatus_txIdle, .fbLinkStatus_belowMinSticky, .fpPortStatus_bpActive,
          .fpPortStatus_exceededSticky, .fpPortStatus_up, .fwPrpCtl_pairErr, .fwStatus_fillSticky, .lnTestStatus_code,
          .lnTestStatus_state, .opFibreStatus_dark, .ptMacThresh_exceededSticky, .ptPortStatus_downCount,
          .ptPortStatus_lastCause, .ptPortStatus_state, .swPortStatus_discarding, .swPortStatus_downBp,
          .swPortStatus_holding, .swPortStatus_xoff, .swStatus_globalXoff, .tmDieStatus_capOverflowSticky]) none d
          (Dev.safeEffect d r w i j) := by
  unfold Dev.safeEffect
  try dsimp -proj only
  repeat' first
    | exact rfl
    | with_reducible first
        | exact .refl _ | apply Only.step (Dev.chHalt_only ..) | apply Only.step (Dev.fieldDown_only ..)
        | apply Only.step (Dev.finishDisable_only ..) | apply Only.step (Dev.judgePairs_only ..)
        | apply Only.step (Dev.laneOut_only ..) | apply Only.step (Dev.lsEnUpdate_only ..)
        | apply Only.step (Dev.setGate_only ..) | apply Only.step (Dev.setPd_only ..)
    | split

theorem Dev.enterSafe_only (d : Dev) (w : Nat) (off : Nat) :
    Only [.safe, .bkts, .obs, .tm, .net, .fw, .plc, .fab, .dma] (some [.aeFaultLast_addr, .aeFaultLast_cause,
          .aeFaultLast_prog, .aeStatus_faultSticky, .aeStatus_paritySticky, .dmChCtl_abort, .dmChCtl_start,
          .dmChIndex2_i2, .dmChIndex_i0, .dmChIndex_i1, .dmChStatus_code, .dmChStatus_state, .dvLaserCtl_lsEnState,
          .egGateStatus_gates, .fbLaneCtl_calibrate, .fbLaneCtl_out, .fbLaneStatus_lastCause, .fbLaneStatus_removals,
          .fbLaneStatus_state, .fbLaneStatus_txIdle, .fbLinkStatus_belowMinSticky, .fpPortStatus_bpActive,
          .fpPortStatus_exceededSticky, .fpPortStatus_up, .fwPrpCtl_pairErr, .fwStatus_fillSticky,
          .hiParityStatus_sticky, .lnTestStatus_code, .lnTestStatus_state, .opFibreStatus_dark,
          .ptMacThresh_exceededSticky, .ptPortStatus_downCount, .ptPortStatus_lastCause, .ptPortStatus_state,
          .swPortStatus_discarding, .swPortStatus_downBp, .swPortStatus_holding, .swPortStatus_xoff,
          .swStatus_globalXoff, .tmDieStatus_capOverflowSticky]) none d (Dev.enterSafe d w off) := by
  unfold Dev.enterSafe
  try simp -proj -zeta only [Dev.mk_safe]
  try dsimp -proj only
  repeat' first
    | exact rfl
    | with_reducible first
        | exact .refl _ | apply Only.step (Dev.bump_only ..) | apply Only.step (Dev.irq_only ..)
        | apply Only.step (Dev.raise_only ..) | apply Only.step (Dev.safeEffect_only ..)
        | apply Only.step (Dev.setBit_only ..) | apply Only.step (Dev.setWide_only ..)
        | apply Only.step (Dev.withSafe_only ..)
    | split

theorem Dev.setPair_only (d : Dev) (a : Nat) (b : Nat) (k : Nat) (v : Nat) :
    Only [] (some [.fbLaneStatus_state]) (some []) d (Dev.setPair d a b k v) := by
  unfold Dev.setPair
  try dsimp -proj only
  repeat' first
    | exact rfl
    | with_reducible first
        | exact .refl _ | apply Only.step (Dev.setLane_only ..)

theorem Dev.takeUp_only (d : Dev) (a : Nat) (b : Nat) (k : Nat) :
    Only [.net] (some []) (some []) d (Dev.takeUp d a b k) := by
  unfold Dev.takeUp
  try simp -proj -zeta only [Dev.mk_net]
  try dsimp -proj only
  repeat' first
    | exact rfl
    | with_reducible first
        | exact .refl _ | apply Only.step (Dev.putFlight_only ..) | apply Only.step (Dev.withNet_only ..)
        | refine .foldl _ ?_ _ ?_
    | (intro _ _; try dsimp -proj only)

theorem Dev.enterService_only (d : Dev) (a : Nat) (b : Nat) (k : Nat) (ma : Nat) (mb : Nat) :
    Only [.bkts, .obs, .net, .fab] (some [.fbLaneCtl_calibrate, .fbLaneStatus_state, .fbLaneStatus_txIdle,
          .fbLinkStatus_belowMinSticky, .lnTestStatus_baseline, .lnTestStatus_code, .lnTestStatus_margin,
          .lnTestStatus_state]) (some [.lnBitErrors, .lnBits, .lnSyncErrors]) d (Dev.enterService d a b k ma mb) := by
  unfold Dev.enterService
  try dsimp -proj only
  repeat' first
    | exact rfl
    | with_reducible first
        | exact .refl _ | apply Only.step (Dev.endLaneRequests_only ..) | apply Only.step (Dev.raise_only ..)
        | apply Only.step (Dev.setLaneX_only ..) | apply Only.step (Dev.setPair_only ..)
        | apply Only.step (Dev.setPd_only ..) | apply Only.step (Dev.takeUp_only ..)
        | apply Only.step (Dev.wakeWaiting_only ..)

theorem Dev.lnTrained_only (d : Dev) (key : Nat) :
    Only [.fab] (some []) (some []) d (Dev.lnTrained d key) := by
  unfold Dev.lnTrained
  try simp -proj -zeta only [Dev.mk_fab]
  try dsimp -proj only
  repeat' first
    | exact rfl
    | with_reducible first
        | exact .refl _ | apply Only.step (Dev.withFab_only ..)

theorem Dev.pfcOnUp_only (d : Dev) (p : Nat) :
    Only [.net] (some []) (some []) d (Dev.pfcOnUp d p) := by
  unfold Dev.pfcOnUp
  try dsimp -proj only
  repeat' first
    | exact rfl
    | with_reducible first
        | exact .refl _ | apply Only.step (Dev.setTx_only ..)

theorem Dev.enterUp_only (d : Dev) (p : Nat) :
    Only [.bkts, .obs, .net, .fab] (some [.duStatus_role, .ptPortStatus_state, .swPortStatus_discarding,
          .swPortStatus_downBp, .swPortStatus_holding, .swPortStatus_xoff]) (some [.swDownBp]) d (Dev.enterUp d p) :=
          by
  unfold Dev.enterUp
  try simp -proj -zeta only [Dev.mk_net]
  try dsimp -proj only
  repeat' first
    | exact rfl
    | with_reducible first
        | exact .refl _ | apply Only.step (Dev.leaveInit_only ..) | apply Only.step (Dev.lnTrained_only ..)
        | apply Only.step (Dev.outputUp_only ..) | apply Only.step (Dev.pfcOnUp_only ..)
        | apply Only.step (Dev.raise_only ..) | apply Only.step (Dev.setLink_only ..)
        | apply Only.step (Dev.withNet_only ..) | refine .foldl _ ?_ _ ?_
    | (intro _ _; try dsimp -proj only)

theorem Dev.enterVoq_only (d : Dev) (f : Frame) (r : CopyReq) :
    Only [.bkts, .obs, .tm, .net] (some [.swPortStatus_downBp, .swPortStatus_xoff, .swStatus_globalXoff,
          .tmDieStatus_capOverflowSticky]) none d (Dev.enterVoq d f r) := by
  unfold Dev.enterVoq
  try dsimp -proj only
  repeat' first
    | exact rfl
    | with_reducible first
        | exact .refl _ | apply Only.step (Dev.addCopy_only ..) | apply Only.step (Dev.cellTest_only ..)
        | apply Only.step (Dev.countMirror_only ..) | apply Only.step (Dev.countPair_only ..)
        | apply Only.step (Dev.countUnqueued_only ..)
    | split

theorem Dev.laneError_only (d : Dev) (a : Nat) (b : Nat) (k : Nat) :
    Only [.bkts, .obs, .fab] (some [.fbLaneStatus_state, .fbLinkStatus_belowMinSticky]) (some [.fbCellErrors]) d
          (Dev.laneError d a b k) := by
  unfold Dev.laneError
  try dsimp -proj only
  repeat' first
    | exact rfl
    | with_reducible first
        | exact .refl _ | apply Only.step (Dev.bump_only ..) | apply Only.step (Dev.setLaneX_only ..)
        | apply Only.step (Dev.wearLane_only ..)
    | split

theorem Dev.fabricReceive_only (d : Dev) (a : Nat) (b : Nat) (k : Nat) (ok : Bool) :
    Only [.bkts, .obs, .tm, .net, .plc, .fab] (some [.fbLaneStatus_state, .fbLinkStatus_belowMinSticky,
          .swPortStatus_downBp, .swPortStatus_xoff, .swStatus_fabricErrSticky, .swStatus_globalXoff,
          .tmDieStatus_capOverflowSticky]) (some [.fbCellErrors, .swCtAbort, .swCtDiscard, .swDownBp,
          .swFabricCellError, .tmCapOverflow]) d (Dev.fabricReceive d a b k ok) := by
  unfold Dev.fabricReceive
  split
  · exact .refl _
  · rename_i x _ _
    extract_lets net d1 d2
    have h1 : Only [.bkts, .obs, .net] (some []) (some []) d d1 :=
      .step (Dev.pmc_only ..) rfl rfl rfl (.step (Dev.withNet_only d _) rfl rfl rfl (.refl _))
    have h2 : Only [.bkts, .obs, .net] (some [.swStatus_fabricErrSticky]) (some [.swFabricCellError]) d d2 := by
      clear_value d1
      unfold d2
      refine .step (Dev.raise_only ..) rfl rfl rfl ?_
      refine .step (Dev.setPd_only ..) rfl rfl rfl ?_
      exact .step (Dev.bump_only ..) rfl rfl rfl (.step h1 rfl rfl rfl (.refl _))
    clear_value d2 d1
    split
    · split
      · exact .step (Dev.arriveCell_only ..) rfl rfl rfl (.step h1 rfl rfl rfl (.refl _))
      · exact .step h1 rfl rfl rfl (.refl _)
    · exact .step (Dev.laneError_only ..) rfl rfl rfl (.step (Dev.badCell_only ..) rfl rfl rfl (.step h2 rfl rfl rfl
          (.refl _)))

theorem Dev.sweepRoom_only (d : Dev) :
    Only [.bkts, .fw, .plc] (some []) (some []) d (Dev.sweepRoom d) := by
  unfold Dev.sweepRoom
  try simp -proj -zeta only [Dev.mk_bkts_fw_plc]
  try dsimp -proj only
  repeat' first
    | exact rfl
    | with_reducible first
        | exact .refl _ | apply Only.step (Dev.withBkts_only ..) | apply Only.step (Dev.withFw_only ..)
        | apply Only.step (Dev.withPlc_only ..)

theorem Dev.giveUp_only (d : Dev) (k : Nat) :
    Only [.bkts, .fw, .plc] (some []) (some []) d (Dev.giveUp d k) := by
  unfold Dev.giveUp
  try simp -proj -zeta only [Dev.mk_plc]
  try dsimp -proj only
  repeat' first
    | exact rfl
    | with_reducible first
        | exact .refl _ | apply Only.step (Dev.mapVers_only ..) | apply Only.step (Dev.sweepRoom_only ..)
        | apply Only.step (Dev.withPlc_only ..)

theorem Dev.failCommit_only (d : Dev) (c : Commit) :
    Only [.bkts, .obs, .tm, .fw, .tak, .plc] (some [.tkCtl_commit, .tkStatus_batchOpen, .tkStatus_code,
          .tkStatus_late]) (some []) d (Dev.failCommit d c) := by
  unfold Dev.failCommit
  try simp -proj -zeta only [Dev.mk_plc]
  try dsimp -proj only
  repeat' first
    | exact rfl
    | with_reducible first
        | exact .refl _ | apply Only.step (Dev.dropCommit_only ..) | apply Only.step (Dev.endBatch_only ..)
        | apply Only.step (Dev.endIntents_only ..) | apply Only.step (Dev.giveUp_only ..)
        | apply Only.step (Dev.raise_only ..) | apply Only.step (Dev.withPlc_only ..)
    | split

theorem Dev.failIntent_only (d : Dev) (i : Intent) (b : Bad) :
    Only [.plc] (some []) (some []) d (Dev.failIntent d i b) := by
  unfold Dev.failIntent
  try dsimp -proj only
  repeat' first
    | exact rfl
    | with_reducible first
        | exact .refl _ | apply Only.step (Dev.putOut_only ..)

theorem Dev.fecStats_only (d : Dev) (p : Nat) (fec : Nat × Nat) :
    Only [] (some []) (some [.obStat]) d (Dev.fecStats d p fec) := by
  unfold Dev.fecStats
  try dsimp -proj only
  repeat' first
    | exact rfl
    | with_reducible first
        | exact .refl _ | apply Only.step (Dev.stat_only ..)
    | split

theorem Dev.fibreEnable_only (d : Dev) (k : Nat) :
    Only [.net] (some [.opFibreStatus_dark, .opReach_lit]) (some []) d (Dev.fibreEnable d k) := by
  unfold Dev.fibreEnable
  try dsimp -proj only
  repeat' first
    | exact rfl
    | with_reducible first
        | exact .refl _ | apply Only.step (Dev.i2cWrite_only ..) | apply Only.step (Dev.setFld_only ..)
        | apply Only.step (Dev.setLight_only ..) | refine .foldl _ ?_ _ ?_
    | (intro _ _; try dsimp -proj only) | split

theorem Dev.fieldDisable_only (d : Dev) (k : Nat) :
    Only [.bkts, .obs, .tm, .net, .fw, .plc] (some [.fpPortCtl_enable, .fpPortStatus_up, .fwStatus_fillSticky,
          .swPortStatus_discarding, .swPortStatus_downBp, .swPortStatus_holding, .swPortStatus_xoff,
          .swStatus_globalXoff, .tmDieStatus_capOverflowSticky]) none d (Dev.fieldDisable d k) := by
  unfold Dev.fieldDisable
  try dsimp -proj only
  repeat' first
    | exact rfl
    | with_reducible first
        | exact .refl _ | apply Only.step (Dev.fieldDown_only ..) | apply Only.step (Dev.setCd_only ..)

theorem Dev.fieldEnable_only (d : Dev) (k : Nat) :
    Only [.bkts, .obs, .net] (some [.fpPortCtl_enable, .fpPortStatus_up, .swPortStatus_discarding,
          .swPortStatus_downBp, .swPortStatus_holding, .swPortStatus_xoff]) (some [.swDownBp]) d (Dev.fieldEnable d k)
          := by
  unfold Dev.fieldEnable
  try dsimp -proj only
  repeat' first
    | exact rfl
    | with_reducible first
        | exact .refl _ | apply Only.step (Dev.fieldUp_only ..) | apply Only.step (Dev.setCd_only ..)
    | split

theorem Dev.storm_only (d : Dev) (f : Frame) :
    Only [.bkts, .obs, .net] (some []) none d (Dev.storm d f).1 := by
  unfold Dev.storm
  try dsimp -proj only
  repeat' first
    | exact rfl
    | with_reducible first
        | exact .refl _ | apply Only.step (Dev.countFor_only ..) | apply Only.step (Dev.raiseOnce_only ..)
        | apply Only.step (Dev.setBucket_only ..)
    | split

theorem Dev.floodCopies_only (d : Dev) (f : Frame) (member : Nat) :
    Only [.bkts, .obs, .net] (some []) none d (Dev.floodCopies d f member).1 := by
  unfold Dev.floodCopies
  try dsimp -proj only
  repeat' first
    | exact rfl
    | with_reducible first
        | exact .refl _ | apply Only.step (Dev.bump_only ..) | apply Only.step (Dev.countFor_only ..)
        | apply Only.step (Dev.storm_only ..)
    | split

theorem Dev.flushNotice_only (d : Dev) (n : Nat) (p : Nat) :
    Only [.bkts, .obs, .fw] (some [.fwStatus_fillSticky]) (some []) d (Dev.flushNotice d n p) := by
  unfold Dev.flushNotice
  try dsimp -proj only
  repeat' first
    | exact rfl
    | with_reducible first
        | exact .refl _ | apply Only.step (Dev.flushPort_only ..) | apply Only.step (Dev.setFw_only ..)
    | split

theorem Dev.flushStart_only (d : Dev) (n : Nat) (port : Nat) (fid : Nat) (byPort : Bool) (byFid : Bool) :
    Only [.bkts, .obs, .fw] (some [.fwFlush_byFid, .fwFlush_byPort, .fwFlush_fid, .fwFlush_port, .fwFlush_start,
          .fwStatus_fillSticky]) (some []) d (Dev.flushStart d n port fid byPort byFid) := by
  unfold Dev.flushStart
  try dsimp -proj only
  repeat' first
    | exact rfl
    | with_reducible first
        | exact .refl _ | apply Only.step (Dev.flush_only ..) | apply Only.step (Dev.setFw_only ..)
        | apply Only.step (Dev.setPd_only ..)
    | split

theorem Dev.pendStep_only (d : Dev) (delta : Int) (snap : Bool) :
    Only [.tm] (some [.tmStatus_stepPending]) (some []) d (Dev.pendStep d delta snap) := by
  unfold Dev.pendStep
  try simp -proj -zeta only [Dev.mk_tm]
  try dsimp -proj only
  repeat' first
    | exact rfl
    | with_reducible first
        | exact .refl _ | apply Only.step (Dev.setCd_only ..) | apply Only.step (Dev.withTm_only ..)

theorem Dev.followTime_only (d : Dev) (off : Int) :
    Only [.tm, .duo] (some [.duStatus_timeLocked, .tmStatus_incPending, .tmStatus_set, .tmStatus_stepPending]) (some
          [.duTimeOffset, .tmInc]) d (Dev.followTime d off) := by
  unfold Dev.followTime
  try simp -proj -zeta only [Dev.mk_tm]
  try dsimp -proj only
  repeat' first
    | exact rfl
    | with_reducible first
        | exact .refl _ | apply Only.step (Dev.pendStep_only ..) | apply Only.step (Dev.setCd_only ..)
        | apply Only.step (Dev.setDuo_only ..) | apply Only.step (Dev.setWide_only ..)
        | apply Only.step (Dev.withTm_only ..)
    | split

theorem Dev.readEffect_only (d : Dev) (r : Reg) (w : Nat) (i : Nat) (j : Nat) :
    Only [] none (some []) d (Dev.readEffect d r w i j) := by
  unfold Dev.readEffect
  try dsimp -proj only
  repeat' first
    | exact rfl
    | with_reducible first
        | exact .refl _ | apply Only.step (Dev.setFld_only ..) | refine .foldl _ ?_ _ ?_
    | (intro _ _; try dsimp -proj only) | split

theorem Dev.readReg_only (d : Dev) (alias_ : Nat) (w : Nat) (off : Nat) :
    Only [] none (some [.hiReadAbort]) d (Dev.readReg d alias_ w off).1 := by
  unfold Dev.readReg
  try dsimp -proj only
  repeat' first
    | exact rfl
    | with_reducible first
        | exact .refl _ | apply Only.step (Dev.bump_only ..) | apply Only.step (Dev.readEffect_only ..)
    | split

theorem Dev.hostRead_only (d : Dev) (alias_ : Nat) (w : Nat) (off : Nat) :
    Only [] none (some [.hiReadAbort]) d (Dev.hostRead d alias_ w off) := by
  unfold Dev.hostRead
  have h := Dev.readReg_only d alias_ w off
  split <;> rename_i e <;> rw [e] at h
  · exact .step (Dev.withReadData_only ..) rfl rfl rfl h
  · exact h

theorem Dev.formRead_only (d : Dev) (a : Nat) (form : AccForm) :
    Only [] none (some [.hiReadAbort]) d (Dev.formRead d a form) := by
  unfold Dev.formRead
  try simp -proj -zeta only [Dev.mk_readData]
  try dsimp -proj only
  repeat' first
    | exact rfl
    | with_reducible first
        | exact .refl _ | apply Only.step (Dev.bump_only ..) | apply Only.step (Dev.hostRead_only ..)
        | apply Only.step (Dev.withReadData_only ..)
    | split

theorem Dev.groupCopies_only (d : Dev) (f : Frame) (h : Nat) (ms : List Nat) :
    Only [.net] (some []) none d (Dev.groupCopies d f h ms).1 := by
  unfold Dev.groupCopies
  try dsimp -proj only
  repeat' first
    | exact rfl
    | with_reducible first
        | exact .refl _ | apply Only.step (Dev.countFor_only ..)
    | split

theorem Dev.lookupDest_only (d : Dev) (f : Frame) :
    Only [.bkts, .obs, .net, .fw] (some [.fwStatus_paritySticky]) none d (Dev.lookupDest d f).1 := by
  unfold Dev.lookupDest
  extract_lets n count v key d0
  have hc : ∀ e x, Only [.net] (some []) none e (count e x) := fun e x => Dev.countFor_only ..
  have h0 : Only [.bkts, .obs, .net] (some [.fwStatus_paritySticky]) (some [.fwParity]) d d0 :=
    .step (Dev.lookupParity_only ..) rfl rfl rfl (.step (Dev.pmc_only ..) rfl rfl rfl (.refl _))
  clear_value count d0
  split
  · exact .step (hc ..) rfl rfl rfl (.refl _)
  · split
    · rename_i i e _
      extract_lets d1 f1
      have h1 : Only [.bkts, .obs, .net, .fw] (some [.fwStatus_paritySticky]) none d d1 := by
        unfold d1
        split
        · exact .step (Dev.hitEnt_only ..) rfl rfl rfl (.step h0 rfl rfl rfl (.refl _))
        · exact .step h0 rfl rfl rfl (.refl _)
      clear_value d1 f1
      split
      · split
        · exact .step (hc ..) rfl rfl rfl h1
        · split
          · exact .step (hc ..) rfl rfl rfl h1
          · exact h1
      · split
        · split
          · exact .step (Dev.groupCopies_only ..) rfl rfl rfl h1
          · exact h1
        · exact .step (hc ..) rfl rfl rfl h1
      · exact .step (hc ..) rfl rfl rfl h1
      · exact h1
    · split
      · exact .step (Dev.floodCopies_only ..) rfl rfl rfl (.step h0 rfl rfl rfl (.refl _))
      · exact .step (hc ..) rfl rfl rfl (.step h0 rfl rfl rfl (.refl _))

theorem Dev.forwardCopies_only (d : Dev) (f : Frame) :
    Only [.bkts, .obs, .net, .fw] (some [.fwStatus_paritySticky]) none d (Dev.forwardCopies d f).1 := by
  unfold Dev.forwardCopies
  try dsimp -proj only
  repeat' first
    | exact rfl
    | with_reducible first
        | exact .refl _ | apply Only.step (Dev.countFor_only ..) | apply Only.step (Dev.groupCopies_only ..)
        | apply Only.step (Dev.lookupDest_only ..)
    | split

theorem Dev.ftbRelease_only (d : Dev) (r : Nat) :
    Only [.obs] (some []) (some []) d (Dev.ftbRelease d r) := by
  unfold Dev.ftbRelease
  try dsimp -proj only
  repeat' first
    | exact rfl
    | with_reducible first
        | exact .refl _ | apply Only.step (Dev.setRing_only ..)

theorem Dev.gateCancel_only (d : Dev) (q : Nat) (code : Nat) :
    Only [.tm, .net] (some [.egGateStatus_code]) (some []) d (Dev.gateCancel d q code) := by
  unfold Dev.gateCancel
  try dsimp -proj only
  repeat' first
    | exact rfl
    | with_reducible first
        | exact .refl _ | apply Only.step (Dev.dropTimer_only ..) | apply Only.step (Dev.setGate_only ..)
        | apply Only.step (Dev.setPd_only ..)
    | split

theorem Dev.gateRefuse_only (d : Dev) (q : Nat) (code : Nat) :
    Only [.bkts, .obs] (some [.egGateStatus_code]) (some []) d (Dev.gateRefuse d q code) := by
  unfold Dev.gateRefuse
  try dsimp -proj only
  repeat' first
    | exact rfl
    | with_reducible first
        | exact .refl _ | apply Only.step (Dev.raise_only ..) | apply Only.step (Dev.setPd_only ..)

theorem Dev.gateChange_only (d : Dev) (q : Nat) :
    Only [.bkts, .obs, .tm, .net] (some [.egGateStatus_code]) (some [.egGateChange]) d (Dev.gateChange d q) := by
  unfold Dev.gateChange
  try dsimp -proj only
  repeat' first
    | exact rfl
    | with_reducible first
        | exact .refl _ | apply Only.step (Dev.bookTimer_only ..) | apply Only.step (Dev.gateCancel_only ..)
        | apply Only.step (Dev.gateRefuse_only ..) | apply Only.step (Dev.setGate_only ..)
        | apply Only.step (Dev.setPd_only ..) | apply Only.step (Dev.setWide_only ..)
    | split

theorem Dev.gateEnable_only (d : Dev) (q : Nat) (en : Bool) :
    Only [.net] (some [.egGateCtl_gateEn, .egGateStatus_gates]) (some []) d (Dev.gateEnable d q en) := by
  unfold Dev.gateEnable
  try dsimp -proj only
  repeat' first
    | exact rfl
    | with_reducible first
        | exact .refl _ | apply Only.step (Dev.setGate_only ..) | apply Only.step (Dev.setPd_only ..)
    | split

theorem Dev.gateShow_only (d : Dev) (q : Nat) :
    Only [] (some [.egGateStatus_entry, .egGateStatus_gates]) (some []) d (Dev.gateShow d q) := by
  unfold Dev.gateShow
  try dsimp -proj only
  repeat' first
    | exact rfl
    | with_reducible first
        | exact .refl _ | apply Only.step (Dev.setPd_only ..)

theorem Dev.gateOperational_only (d : Dev) (q : Nat) (late : Bool) :
    Only [.bkts, .obs, .tm, .net] (some [.egGateStatus_code, .egGateStatus_entry, .egGateStatus_gates,
          .egGateStatus_operList]) (some []) d (Dev.gateOperational d q late) := by
  unfold Dev.gateOperational
  try dsimp -proj only
  repeat' first
    | exact rfl
    | with_reducible first
        | exact .refl _ | apply Only.step (Dev.dropTimer_only ..) | apply Only.step (Dev.gateShow_only ..)
        | apply Only.step (Dev.raise_only ..) | apply Only.step (Dev.setGate_only ..)
        | apply Only.step (Dev.setPd_only ..)
    | split

theorem Dev.gateOversize_only (d : Dev) (q : Nat) :
    Only [.bkts, .obs, .tm, .net, .plc] (some [.swPortStatus_downBp, .swPortStatus_xoff, .swStatus_globalXoff,
          .tmDieStatus_capOverflowSticky]) none d (Dev.gateOversize d q) := by
  unfold Dev.gateOversize
  try dsimp -proj only
  repeat' first
    | exact rfl
    | with_reducible first
        | exact .refl _ | apply Only.step (Dev.discard_only ..) | apply Only.step (Dev.raiseOnce_only ..)
        | refine .foldl _ ?_ _ ?_
    | (intro _ _; try dsimp -proj only) | split

theorem Dev.intentStaged_only (d : Dev) (k : Nat) :
    Only [.tm, .tak] (some [.tkCtl_commit, .tkStatus_batchOpen, .tkStatus_code, .tkStatus_late]) (some []) d
          (Dev.intentStaged d k) := by
  unfold Dev.intentStaged
  try simp -proj -zeta only [Dev.mk_tak]
  try dsimp -proj only
  repeat' first
    | exact rfl
    | with_reducible first
        | exact .refl _ | apply Only.step (Dev.activate_only ..) | apply Only.step (Dev.withTak_only ..)
    | split

theorem Dev.settle_only (d : Dev) (k : Nat) (batch : Bool) :
    Only [.bkts, .tm, .fw, .tak, .plc] (some [.tkCtl_commit, .tkStatus_batchOpen, .tkStatus_code, .tkStatus_late])
          (some []) d (Dev.settle d k batch) := by
  unfold Dev.settle
  try dsimp -proj only
  repeat' first
    | exact rfl
    | with_reducible first
        | exact .refl _ | apply Only.step (Dev.endIntents_only ..) | apply Only.step (Dev.giveUp_only ..)
        | apply Only.step (Dev.intentStaged_only ..) | apply Only.step (Dev.reown_only ..)
    | split

theorem Dev.meterRoom_only (d : Dev) (ns : List Nat) :
    Staged.only [] (some []) (some []) d (Dev.meterRoom d ns) := by
  unfold Dev.meterRoom
  try dsimp -proj only
  repeat' first
    | with_reducible first
        | refine Staged.only.ok ?_ | exact .refl _
    | trivial | split

theorem Dev.stageBind_only (d : Dev) (k : Nat) (b : Bool) (slot : Nat) (h : Nat) :
    Staged.only [.plc] (some []) (some []) d (Dev.stageBind d k b slot h) := by
  unfold Dev.stageBind
  try simp -proj -zeta only [Dev.mk_plc]
  try dsimp -proj only
  repeat' first
    | exact rfl
    | with_reducible first
        | refine Staged.only.ok ?_ | exact .refl _
        | apply Only.step (Staged.only.of (Dev.blockRoom_only ..) (by assumption))
        | apply Staged.only.step (Dev.blockRoom_only ..)
        | apply Only.step (Staged.only.of (Dev.meterRoom_only ..) (by assumption))
        | apply Staged.only.step (Dev.meterRoom_only ..) | apply Only.step (Dev.withPlc_only ..)
        | refine Staged.only.andThen_const ?_
    | split

theorem Dev.reclaimed_only (d : Dev) (n : Nat) :
    Only [.fw] (some []) (some []) d (Dev.reclaimed d n) := by
  unfold Dev.reclaimed
  try dsimp -proj only
  repeat' first
    | exact rfl
    | with_reducible first
        | exact .refl _ | apply Only.step (Dev.setFw_only ..)

theorem Dev.stageStaticOn_only (d : Dev) (k : Nat) (b : Bool) (n : Nat) (h : Nat) (r : StaticRec) :
    Staged.only [.bkts, .obs, .net, .fw, .plc] (some [.fwStatus_fillSticky]) (some [.fwAged]) d (Dev.stageStaticOn d k
          b n h r) := by
  unfold Dev.stageStaticOn
  try simp -proj -zeta only [Dev.mk_plc]
  try dsimp -proj only
  repeat' first
    | with_reducible first
        | refine Staged.only.ok ?_ | exact .refl _ | apply Only.step (Dev.carryOut_only ..)
        | apply Only.step (Dev.drawBelow_only ..) | apply Only.step (Dev.fillTest_only ..)
        | apply Only.step (Dev.putEnt_only ..) | apply Only.step (Dev.reclaimed_only ..)
        | apply Only.step (Dev.withPlc_only ..)
    | trivial | split

theorem Dev.stageStatic_only (d : Dev) (k : Nat) (b : Bool) (h : Nat) (r : StaticRec) :
    Staged.only [.bkts, .obs, .net, .fw, .plc] (some [.fwStatus_fillSticky]) (some [.fwAged]) d (Dev.stageStatic d k b
          h r) := by
  unfold Dev.stageStatic
  try dsimp -proj only
  repeat' first
    | exact rfl
    | with_reducible first
        | refine Staged.only.ok ?_ | exact .refl _ | assumption
        | apply Only.step (Staged.only.of (Dev.stageStaticOn_only ..) (by assumption))
        | apply Staged.only.step (Dev.stageStaticOn_only ..) | refine Staged.only.foldl _ ?_ _ ?_
        | refine Staged.only.andThen ?_ ?_
    | (intro _; try dsimp -proj only)

theorem Dev.stageObj_only (d : Dev) (k : Nat) (b : Bool) (h : Nat) (x : ObjData) (isNew : Bool) :
    Staged.only [.bkts, .obs, .net, .fw, .plc] (some [.fwStatus_fillSticky]) (some [.fwAged]) d (Dev.stageObj d k b h
          x isNew) := by
  unfold Dev.stageObj
  try dsimp -proj only
  repeat' first
    | with_reducible first
        | refine Staged.only.ok ?_ | exact .refl _
        | apply Only.step (Staged.only.of (Dev.blockRoom_only ..) (by assumption))
        | apply Staged.only.step (Dev.blockRoom_only ..) | apply Only.step (Dev.endStatics_only ..)
        | apply Only.step (Dev.putObj_only ..)
        | apply Only.step (Staged.only.of (Dev.stageStatic_only ..) (by assumption))
        | apply Staged.only.step (Dev.stageStatic_only ..) | refine Staged.only.andThen ?_ ?_
    | (intro _; try dsimp -proj only) | trivial | split

theorem Dev.putPats_only (d : Dev) (k : Nat) (b : Bool) (h : Nat) (drops : List Nat) (adds : List PatRec) :
    Only [.plc] (some []) (some []) d (Dev.putPats d k b h drops adds) := by
  unfold Dev.putPats
  try simp -proj -zeta only [Dev.mk_plc]
  try dsimp -proj only
  repeat' first
    | exact rfl
    | with_reducible first
        | exact .refl _ | apply Only.step (Dev.withPlc_only ..)

theorem Dev.stagePats_only (d : Dev) (k : Nat) (b : Bool) (h : Nat) (ports : List Nat) (drops : List Nat) (adds : List
      PatRec) (newObj : Bool) :
    Staged.only [.plc] (some []) (some []) d (Dev.stagePats d k b h ports drops adds newObj) := by
  unfold Dev.stagePats
  try dsimp -proj only
  repeat' first
    | with_reducible first
        | refine Staged.only.ok ?_ | exact .refl _ | apply Only.step (Dev.putObj_only ..)
        | apply Only.step (Dev.putPats_only ..)
    | trivial | split

theorem Dev.putRules_only (d : Dev) (k : Nat) (b : Bool) (h : Nat) (drops : List Nat) (adds : List RuleRec) :
    Only [.plc] (some []) (some []) d (Dev.putRules d k b h drops adds) := by
  unfold Dev.putRules
  try simp -proj -zeta only [Dev.mk_plc]
  try dsimp -proj only
  repeat' first
    | exact rfl
    | with_reducible first
        | exact .refl _ | apply Only.step (Dev.withPlc_only ..)

theorem Dev.stageCam_only (d : Dev) (k : Nat) (b : Bool) (h : Nat) (size : Nat) (fs : List KeyField) (old : List Nat)
      (ports : List Nat) (drops : List Nat) (before : List RuleRec) (adds : List RuleRec) :
    Staged.only [.net, .fw, .plc] (some []) (some []) d (Dev.stageCam d k b h size fs old ports drops before adds) := by
  unfold Dev.stageCam
  try dsimp -proj only
  repeat' first
    | exact rfl
    | with_reducible first
        | refine Staged.only.ok ?_ | exact .refl _ | assumption
        | apply Only.step (Staged.only.of (Dev.camChange_only ..) (by assumption))
        | apply Staged.only.step (Dev.camChange_only ..) | refine Staged.only.foldl _ ?_ _ ?_
        | refine Staged.only.andThen ?_ ?_
    | (intro _; try dsimp -proj only) | split

theorem Dev.takePorts_only (d : Dev) (k : Nat) (b : Bool) (from_ : Nat → Bool) (ports : List Nat) :
    Only [.plc] (some []) (some []) d (Dev.takePorts d k b from_ ports).1 := by
  unfold Dev.takePorts
  refine .foldlFst _ (fun e o => ?_) _ (.refl _)
  split
  · split
    · extract_lets rest d1 d2
      have h1 : Only [.plc] (some []) (some []) e.1 d1 := Dev.putObj_only ..
      show Only _ _ _ _ d2
      unfold d2
      split
      · exact h1
      · exact .foldl _ (fun _ _ => Dev.camLeave_only ..) _ h1
    · exact .refl _
  · exact .refl _

theorem Dev.treeRoom_only (d : Dev) (size : Nat) (limit : Nat) (old : List Nat) (ports : List Nat) (before : List
      RuleRec) (adds : List RuleRec) :
    Staged.only [] (some []) (some []) d (Dev.treeRoom d size limit old ports before adds) := by
  unfold Dev.treeRoom
  try dsimp -proj only
  repeat' first
    | with_reducible first
        | refine Staged.only.ok ?_ | exact .refl _
    | trivial | split

theorem Dev.yieldPorts_only (d : Dev) (h : Nat) :
    Only [.plc] (some []) (some []) d (Dev.yieldPorts d h) := by
  unfold Dev.yieldPorts
  try dsimp -proj only
  repeat' first
    | exact rfl
    | with_reducible first
        | exact .refl _ | apply Only.step (Dev.takePorts_only ..) | refine .foldl _ ?_ _ ?_
    | (intro _ _; try dsimp -proj only)

theorem Dev.stageRules_only (d : Dev) (k : Nat) (b : Bool) (h : Nat) (tree : Bool) (w : Nat) (fs : List KeyField) (old
      : List Nat) (ports : List Nat) (drops : List Nat) (adds : List RuleRec) (newObj : Bool) :
    Staged.only [.net, .fw, .plc] (some []) (some []) d (Dev.stageRules d k b h tree w fs old ports drops adds newObj)
          := by
  unfold Dev.stageRules
  try dsimp -proj only
  repeat' first
    | with_reducible first
        | refine Staged.only.ok ?_ | exact .refl _ | apply Only.step (Dev.camLeave_only ..)
        | apply Only.step (Dev.putObj_only ..) | apply Only.step (Dev.putRules_only ..)
        | apply Only.step (Staged.only.of (Dev.stageCam_only ..) (by assumption))
        | apply Staged.only.step (Dev.stageCam_only ..) | apply Only.step (Dev.takePorts_only ..)
        | apply Only.step (Staged.only.of (Dev.treeRoom_only ..) (by assumption))
        | apply Staged.only.step (Dev.treeRoom_only ..) | apply Only.step (Dev.yieldPorts_only ..)
        | refine Staged.only.andThen_const ?_ | refine Staged.only.andThen ?_ ?_ | refine .foldl _ ?_ _ ?_
    | (intro _; try dsimp -proj only) | trivial | split

theorem Dev.stage_only (d : Dev) (i : Intent) (k : Nat) :
    Staged.only [.bkts, .obs, .net, .fw, .plc] (some [.fwStatus_fillSticky]) (some [.fwAged]) d (Dev.stage d i k) := by
  unfold Dev.stage
  try dsimp -proj only
  repeat' first
    | exact rfl
    | with_reducible first
        | refine Staged.only.ok ?_ | exact .refl _ | apply Only.step (Dev.endObj_only ..)
        | apply Only.step (Staged.only.of (Dev.stageBind_only ..) (by assumption))
        | apply Staged.only.step (Dev.stageBind_only ..)
        | apply Only.step (Staged.only.of (Dev.stageObj_only ..) (by assumption))
        | apply Staged.only.step (Dev.stageObj_only ..)
        | apply Only.step (Staged.only.of (Dev.stagePats_only ..) (by assumption))
        | apply Staged.only.step (Dev.stagePats_only ..)
        | apply Only.step (Staged.only.of (Dev.stageRules_only ..) (by assumption))
        | apply Staged.only.step (Dev.stageRules_only ..)
    | split

theorem Dev.place_only (d : Dev) (i : Intent) :
    Only [.bkts, .obs, .tm, .net, .fw, .tak, .plc] (some [.fwStatus_fillSticky, .tkCtl_commit, .tkStatus_batchOpen,
          .tkStatus_code, .tkStatus_late]) (some [.fwAged]) d (Dev.place d i) := by
  unfold Dev.place
  try simp -proj -zeta only [Dev.mk_plc]
  try dsimp -proj only
  repeat' first
    | exact rfl
    | with_reducible first
        | exact .refl _ | apply Only.step (Dev.beginTrees_only ..) | apply Only.step (Dev.carryOut_only ..)
        | apply Only.step (Dev.failIntent_only ..) | apply Only.step (Dev.freshOwner_only ..)
        | apply Only.step (Dev.move_only ..) | apply Only.step (Dev.putOut_only ..)
        | apply Only.step (Dev.settle_only ..) | apply Only.step (Staged.only.of (Dev.stage_only ..) (by assumption))
        | apply Staged.only.step (Dev.stage_only ..) | apply Only.step (Dev.withPlc_only ..)
    | split

theorem Dev.runOne_only (d : Dev) (i : Intent) :
    Only [.bkts, .obs, .tm, .net, .fw, .tak, .plc] (some [.fwStatus_fillSticky, .tkCtl_commit, .tkStatus_batchOpen,
          .tkStatus_code, .tkStatus_late]) (some [.fwAged]) d (Dev.runOne d i) := by
  unfold Dev.runOne
  try simp -proj -zeta only [Dev.mk_plc]
  try dsimp -proj only
  repeat' first
    | exact rfl
    | with_reducible first
        | exact .refl _ | apply Only.step (Dev.answer_only ..) | apply Only.step (Dev.failIntent_only ..)
        | apply Only.step (Dev.place_only ..) | apply Only.step (Dev.withPlc_only ..)
    | split

theorem Dev.rerun_only (x0 : Nat) (x1 : Dev) :
    Only [.bkts, .obs, .tm, .net, .fw, .tak, .plc] (some [.fwStatus_fillSticky, .tkCtl_commit, .tkStatus_batchOpen,
          .tkStatus_code, .tkStatus_late]) (some [.fwAged]) x1 (Dev.rerun x0 x1) := by
  fun_induction Dev.rerun x0 x1
  all_goals repeat' first
    | exact rfl
    | with_reducible first
        | exact .refl _ | apply Only.step (by assumption) | apply Only.step (Dev.runOne_only ..)

theorem Dev.goOn_only (d : Dev) :
    Only [.bkts, .obs, .tm, .net, .fw, .tak, .plc] (some [.fwStatus_fillSticky, .plHead_head, .plStatus_failSticky,
          .plStatus_lastCode, .tkCtl_commit, .tkStatus_batchOpen, .tkStatus_code, .tkStatus_late]) (some [.fwAged,
          .plDoneCount, .plFailCount]) d (Dev.goOn d) := by
  unfold Dev.goOn
  try dsimp -proj only
  repeat' first
    | exact rfl
    | with_reducible first
        | exact .refl _ | apply Only.step (Dev.flushResults_only ..) | apply Only.step (Dev.rerun_only ..)

theorem Dev.hsrNumbers_only (d : Dev) (f : Frame) (drawn : List (Nat × Nat)) (x3 : List (CopyKind × Nat)) :
    Only [] (some []) (some [.aeSeq]) d (Dev.hsrNumbers d f drawn x3).2 := by
  fun_induction Dev.hsrNumbers d f drawn x3
  all_goals repeat' first
    | exact rfl
    | with_reducible first
        | exact .refl _ | apply Only.step (by assumption) | apply Only.step (Dev.drawSeq_only ..)

theorem Dev.portMirrors_only (d : Dev) (f : Frame) (outs : List Nat) (x3 : List (Nat × Nat × MirrorRec)) (x4 : List
      Nat) :
    Only [.net] (some []) none d (Dev.portMirrors d f outs x3 x4).1 := by
  fun_induction Dev.portMirrors d f outs x3 x4
  all_goals repeat' first
    | exact rfl
    | with_reducible first
        | exact .refl _ | apply Only.step (by assumption) | apply Only.step (Dev.countFor_only ..)

theorem Dev.planCopies_only (d : Dev) (f : Frame) (w : Fwd) :
    Only [.net] (some []) none d (Dev.planCopies d f w).1 := by
  unfold Dev.planCopies
  try dsimp -proj only
  repeat' first
    | exact rfl
    | with_reducible first
        | exact .refl _ | apply Only.step (Dev.assignSlots_only ..) | apply Only.step (Dev.hsrNumbers_only ..)
        | apply Only.step (Dev.portMirrors_only ..)

theorem Dev.putHanded_only (d : Dev) (f : Frame) :
    Only [.net] (some []) (some []) d (Dev.putHanded d f) := by
  unfold Dev.putHanded
  try dsimp -proj only
  repeat' first
    | exact rfl
    | with_reducible first
        | exact .refl _ | apply Only.step (Dev.moveLast_only ..)

theorem Dev.sourceLookup_only (d0 : Dev) (f : Frame) :
    Only [.bkts, .obs, .net] (some [.fwStatus_paritySticky]) (some [.fwConflict, .fwLearnLimitHit, .fwParity,
          .fwSrcMcast]) d0 (Dev.sourceLookup d0 f).1 := by
  unfold Dev.sourceLookup
  extract_lets n fid key _ pass d d1 lim
  have hv : Only [.bkts, .obs, .net] (some [.fwStatus_paritySticky]) (some [.fwParity]) d0 (d0.vlanParity n
        f.work.vid) := Dev.vlanParity_only ..
  have h0 : Only [.bkts, .obs, .net] (some [.fwStatus_paritySticky]) (some [.fwConflict, .fwLearnLimitHit, .fwParity,
        .fwSrcMcast]) d0 d :=
    .step (Dev.lookupParity_only ..) rfl rfl rfl (.step hv rfl rfl rfl (.refl _))
  clear_value d
  split
  · exact .step hv rfl rfl rfl (.refl _)
  · split
    · dsimp only
      split
      · exact .step (Dev.bump_only ..) rfl rfl rfl h0
      · exact h0
    · split
      · exact h0
      · split
        · split
          · exact .step (Dev.raiseOnce_only ..) rfl rfl rfl (.step (Dev.bump_only ..) rfl rfl rfl h0)
          · exact h0
        · split
          · exact .step (Dev.raiseOnce_only ..) rfl rfl rfl (.step (Dev.bump_only ..) rfl rfl rfl h0)
          · exact h0

end Sys2Proof.Machine
end

