-- ==== Sys2Proof/Laws/Frame4.lean ====
section
/-! SUPPORT. What the operations on the device may change, part 4: one lemma for each operation, the operations it rests on first. -/

namespace Sys2Proof.Machine

theorem Dev.handoffFull_only (d : Dev) (f : Frame) :
    Only [.bkts, .obs, .net, .fw, .plc] (some [.fwStatus_paritySticky]) none d (Dev.handoffFull d f) := by
  unfold Dev.handoffFull
  try dsimp -proj only
  repeat' first
    | exact rfl
    | with_reducible first
        | exact .refl _ | apply Only.step (Dev.countFor_only ..) | apply Only.step (Dev.countRed_only ..)
        | apply Only.step (Dev.drawRtag_only ..) | apply Only.step (Dev.dupReceive_only ..)
        | apply Only.step (Dev.forwardCopies_only ..) | apply Only.step (Dev.ingressLearn_only ..)
        | apply Only.step (Dev.planCopies_only ..) | apply Only.step (Dev.putHanded_only ..)
        | apply Only.step (Dev.sourceLookup_only ..)
    | split

theorem Dev.handoff_only (d : Dev) (f : Frame) :
    Only [.bkts, .obs, .net, .fw, .plc] (some [.fwStatus_paritySticky]) none d (Dev.handoff d f) := by
  unfold Dev.handoff
  try dsimp -proj only
  repeat' first
    | exact rfl
    | with_reducible first
        | exact .refl _ | apply Only.step (Dev.handoffFull_only ..) | apply Only.step (Dev.planCopies_only ..)
        | apply Only.step (Dev.putHanded_only ..)
    | split

theorem Dev.noteBad_only (d : Dev) (read : List BadWord) :
    Only [.net] (some []) (some []) d (Dev.noteBad d read) := by
  unfold Dev.noteBad
  try simp -proj -zeta only [Dev.mk_net]
  try dsimp -proj only
  repeat' first
    | exact rfl
    | with_reducible first
        | exact .refl _ | apply Only.step (Dev.withNet_only ..)

theorem Dev.startWalk_only (d : Dev) (f : Frame) (read : List BadWord) :
    Only [.bkts, .obs, .net, .plc] (some [.aeFaultLast_addr, .aeFaultLast_cause, .aeFaultLast_prog,
          .aeStatus_faultSticky, .aeStatus_paritySticky, .aeStatus_rateSticky, .clInspectStatus_scanWaitSticky,
          .clInspectStatus_treeParitySticky, .clPipeStatus_paritySticky, .clPipeStatus_rateSticky,
          .psPortStatus_exceededSticky, .psPortStatus_lastReason, .psPortStatus_malformedSticky,
          .psStatus_graphParitySticky, .psStatus_noSessionSticky, .swPortStatus_downBp, .swPortStatus_xoff,
          .swStatus_globalXoff]) none d (Dev.startWalk d f read) := by
  unfold Dev.startWalk
  try dsimp -proj only
  repeat' first
    | exact rfl
    | with_reducible first
        | exact .refl _ | apply Only.step (Dev.parseNow_only ..) | apply Only.step (Dev.setFrame_only ..)

theorem Dev.headArrival_only (d : Dev) (p : Nat) (head : List Byte) (back : Nat) (slow : Nat) (read : List BadWord) :
    Only [.bkts, .obs, .net, .plc] (some [.aeFaultLast_addr, .aeFaultLast_cause, .aeFaultLast_prog,
          .aeStatus_faultSticky, .aeStatus_paritySticky, .aeStatus_rateSticky, .clInspectStatus_scanWaitSticky,
          .clInspectStatus_treeParitySticky, .clPipeStatus_paritySticky, .clPipeStatus_rateSticky,
          .fpPortStatus_bpActive, .psPortStatus_exceededSticky, .psPortStatus_lastReason,
          .psPortStatus_malformedSticky, .psStatus_graphParitySticky, .psStatus_noSessionSticky, .swPortStatus_downBp,
          .swPortStatus_xoff, .swStatus_globalXoff]) none d (Dev.headArrival d p head back slow read) := by
  unfold Dev.headArrival
  try simp -proj -zeta only [Dev.mk_net, Dev.mk_out]
  try dsimp -proj only
  repeat' first
    | exact rfl
    | with_reducible first
        | exact .refl _ | apply Only.step (Dev.bpTest_only ..) | apply Only.step (Dev.noteBad_only ..)
        | apply Only.step (Dev.startWalk_only ..) | apply Only.step (Dev.withNet_only ..)
        | apply Only.step (Dev.withOut_only ..)
    | split

theorem Dev.hostFrame_only (d : Dev) (c : Nat) (x : TxDesc) (b : List Byte) (slow : Nat) (read : List BadWord) :
    Only [.bkts, .obs, .net, .plc] (some [.aeFaultLast_addr, .aeFaultLast_cause, .aeFaultLast_prog,
          .aeStatus_faultSticky, .aeStatus_paritySticky, .aeStatus_rateSticky, .clInspectStatus_scanWaitSticky,
          .clInspectStatus_treeParitySticky, .clPipeStatus_paritySticky, .clPipeStatus_rateSticky,
          .psPortStatus_exceededSticky, .psPortStatus_lastReason, .psPortStatus_malformedSticky,
          .psStatus_graphParitySticky, .psStatus_noSessionSticky, .swPortStatus_downBp, .swPortStatus_xoff,
          .swStatus_globalXoff]) none d (Dev.hostFrame d c x b slow read) := by
  unfold Dev.hostFrame
  try simp -proj -zeta only [Dev.mk_net]
  try dsimp -proj only
  repeat' first
    | exact rfl
    | with_reducible first
        | exact .refl _ | apply Only.step (Dev.noteBad_only ..) | apply Only.step (Dev.rxStats_only ..)
        | apply Only.step (Dev.startWalk_only ..) | apply Only.step (Dev.withNet_only ..)

theorem Dev.mark_only (d : Dev) (kc : BKey) (kp : BKey) (aware : Bool) (pre : Nat) (b : Nat) :
    Only [.bkts] (some []) (some []) d (Dev.mark d kc kp aware pre b).2 := by
  unfold Dev.mark
  try dsimp -proj only
  repeat' first
    | exact rfl
    | with_reducible first
        | exact .refl _ | apply Only.step (Dev.setBucket_only ..)

theorem Dev.hostPolice_only (d : Dev) (f : Frame) (r : CopyReq) :
    Only [.bkts, .obs] (some []) (some [.poHostDrop]) d (Dev.hostPolice d f r).1 := by
  unfold Dev.hostPolice
  try dsimp -proj only
  repeat' first
    | exact rfl
    | with_reducible first
        | exact .refl _ | apply Only.step (Dev.bump_only ..) | apply Only.step (Dev.mark_only ..)
        | apply Only.step (Dev.raiseOnce_only ..)
    | split

theorem Dev.i2cPoll_only (d : Dev) :
    Only [] (some []) (some []) d (Dev.i2cPoll d) := by
  unfold Dev.i2cPoll
  try simp -proj -zeta only [Dev.mk_out]
  try dsimp -proj only
  repeat' first
    | exact rfl
    | with_reducible first
        | exact .refl _ | apply Only.step (Dev.withOut_only ..)

theorem Dev.imageAbort_only (d : Dev) :
    Only [.boot] (some [.imWriteCtl_abort]) (some []) d (Dev.imageAbort d) := by
  unfold Dev.imageAbort
  try dsimp -proj only
  repeat' first
    | exact rfl
    | with_reducible first
        | exact .refl _ | apply Only.step (Dev.setBoot_only ..) | apply Only.step (Dev.setCd_only ..)
    | split

theorem Dev.imageDone_only (d : Dev) (w : ImgWrite) :
    Only [.boot, .bkts, .obs] (some [.imWriteCtl_abort, .imWriteCtl_start, .imWriteStatus_state]) (some []) d
          (Dev.imageDone d w) := by
  unfold Dev.imageDone
  try dsimp -proj only
  repeat' first
    | exact rfl
    | with_reducible first
        | exact .refl _ | apply Only.step (Dev.irq_only ..) | apply Only.step (Dev.raise_only ..)
        | apply Only.step (Dev.setBoot_only ..) | apply Only.step (Dev.setCd_only ..)

theorem Dev.imageState_only (d : Dev) (w : ImgWrite) (state : Nat) (todo : Nat) :
    Only [.boot] (some [.imWriteStatus_state]) (some []) d (Dev.imageState d w state todo) := by
  unfold Dev.imageState
  try dsimp -proj only
  repeat' first
    | exact rfl
    | with_reducible first
        | exact .refl _ | apply Only.step (Dev.setBoot_only ..) | apply Only.step (Dev.setCd_only ..)

theorem Dev.imageStop_only (d : Dev) (w : ImgWrite) (code : Nat) :
    Only [.boot, .bkts, .obs] (some [.imWriteCtl_abort, .imWriteCtl_start, .imWriteStatus_code, .imWriteStatus_state])
          (some []) d (Dev.imageStop d w code) := by
  unfold Dev.imageStop
  try dsimp -proj only
  repeat' first
    | exact rfl
    | with_reducible first
        | exact .refl _ | apply Only.step (Dev.imageFailed_only ..) | apply Only.step (Dev.setBoot_only ..)
    | split

theorem Dev.incidentEnd_only (d : Dev) (r : Nat) :
    Only [.bkts, .obs] (some []) (some []) d (Dev.incidentEnd d r) := by
  unfold Dev.incidentEnd
  try dsimp -proj only
  repeat' first
    | exact rfl
    | with_reducible first
        | exact .refl _ | apply Only.step (Dev.raise_only ..) | apply Only.step (Dev.setRing_only ..)
    | split

theorem Dev.injFields_only (d : Dev) (l : LaneId) (kind : Nat) (len : Nat) (count : Nat) :
    Only [] (some [.lnInjCtl_count, .lnInjCtl_kind, .lnInjCtl_len]) (some []) d (Dev.injFields d l kind len count) := by
  unfold Dev.injFields
  try dsimp -proj only
  repeat' first
    | exact rfl
    | with_reducible first
        | exact .refl _ | apply Only.step (Dev.lnSet_only ..)

theorem Dev.laneCalibrate_only (d : Dev) (a : Nat) (b : Nat) (k : Nat) :
    Only [.bkts, .obs, .net, .fab] (some [.fbLaneCtl_calibrate, .fbLaneStatus_lastCause, .fbLaneStatus_removals,
          .fbLaneStatus_state, .fbLaneStatus_txIdle, .fbLinkStatus_belowMinSticky, .lnTestStatus_code]) (some []) d
          (Dev.laneCalibrate d a b k) := by
  unfold Dev.laneCalibrate
  try dsimp -proj only
  repeat' first
    | exact rfl
    | with_reducible first
        | exact .refl _ | apply Only.step (Dev.drainLane_only ..) | apply Only.step (Dev.pairTo_only ..)
        | apply Only.step (Dev.setLaneX_only ..) | apply Only.step (Dev.setPd_only ..)
    | split

theorem Dev.laserForce_only (d : Dev) (v : Nat) :
    Only [.bkts, .obs, .tm, .net, .fw, .plc] (some [.aeFaultLast_addr, .aeFaultLast_cause, .aeFaultLast_prog,
          .aeStatus_faultSticky, .aeStatus_paritySticky, .dvLaserCtl_forceOff, .dvLaserCtl_lsEnState,
          .fpPortStatus_bpActive, .fpPortStatus_exceededSticky, .fwStatus_fillSticky, .opFibreStatus_dark,
          .ptMacThresh_exceededSticky, .ptPortStatus_downCount, .ptPortStatus_lastCause, .ptPortStatus_state,
          .swPortStatus_discarding, .swPortStatus_downBp, .swPortStatus_holding, .swPortStatus_xoff,
          .swStatus_globalXoff, .tmDieStatus_capOverflowSticky]) none d (Dev.laserForce d v) := by
  unfold Dev.laserForce
  try dsimp -proj only
  repeat' first
    | exact rfl
    | with_reducible first
        | exact .refl _ | apply Only.step (Dev.lsEnUpdate_only ..) | apply Only.step (Dev.setCd_only ..)

theorem Dev.leaveSafe_only (d : Dev) (r : Reg) (w : Nat) (i : Nat) (j : Nat) :
    Only [.safe, .bkts, .obs] (some []) (some []) d (Dev.leaveSafe d r w i j) := by
  unfold Dev.leaveSafe
  try simp -proj -zeta only [Dev.mk_safe]
  try dsimp -proj only
  repeat' first
    | exact rfl
    | with_reducible first
        | exact .refl _ | apply Only.step (Dev.raise_only ..) | apply Only.step (Dev.withSafe_only ..)
    | split

theorem Dev.linkStep_only (d : Dev) (p : Nat) (a : Nat) (b : Nat) :
    Only [] (some [.ptPortStatus_state]) (some []) d (Dev.linkStep d p a b) := by
  unfold Dev.linkStep
  try dsimp -proj only
  repeat' first
    | exact rfl
    | with_reducible first
        | exact .refl _ | apply Only.step (Dev.setLink_only ..)
    | split

theorem Dev.lnClear_only (d : Dev) (l : LaneId) :
    Only [] (some []) (some [.lnBitErrors, .lnBits, .lnSyncErrors]) d (Dev.lnClear d l) := by
  unfold Dev.lnClear
  try dsimp -proj only
  repeat' first
    | exact rfl
    | with_reducible first
        | exact .refl _ | apply Only.step (Dev.setWide_only ..)

theorem Dev.lnFields_only (d : Dev) (l : LaneId) (source : Nat) (loopback : Nat) (duration : Nat) :
    Only [] (some [.lnTestCtl_duration, .lnTestCtl_loopback, .lnTestCtl_source]) (some []) d (Dev.lnFields d l source
          loopback duration) := by
  unfold Dev.lnFields
  try dsimp -proj only
  repeat' first
    | exact rfl
    | with_reducible first
        | exact .refl _ | apply Only.step (Dev.lnSet_only ..)

theorem Dev.lnFinish_only (d : Dev) (l : LaneId) :
    Only [.bkts, .obs, .net, .fab] (some [.fbLaneStatus_lastCause, .fbLaneStatus_removals, .fbLaneStatus_state,
          .fbLaneStatus_txIdle, .fbLinkStatus_belowMinSticky, .lnTestStatus_code, .lnTestStatus_state]) (some []) d
          (Dev.lnFinish d l) := by
  unfold Dev.lnFinish
  try dsimp -proj only
  repeat' first
    | exact rfl
    | with_reducible first
        | exact .refl _ | apply Only.step (Dev.lnEnd_only ..) | apply Only.step (Dev.lnSet_only ..)
        | apply Only.step (Dev.pairTo_only ..)
    | split

theorem Dev.lnInject_only (d : Dev) (l : LaneId) (looped : Bool) :
    Only [.net] (some [.lnTestStatus_code]) (some [.lnBitErrors, .lnSyncErrors]) d (Dev.lnInject d l looped) := by
  unfold Dev.lnInject
  try simp -proj -zeta only [Dev.mk_net]
  try dsimp -proj only
  repeat' first
    | exact rfl
    | with_reducible first
        | exact .refl _ | apply Only.step (Dev.lnBump_only ..) | apply Only.step (Dev.lnSet_only ..)
        | apply Only.step (Dev.withNet_only ..)
    | split

theorem Dev.lnUnlock_only (d : Dev) (l : LaneId) :
    Only [] (some [.lnTestStatus_lock]) (some []) d (Dev.lnUnlock d l) := by
  unfold Dev.lnUnlock
  try dsimp -proj only
  repeat' first
    | exact rfl
    | with_reducible first
        | exact .refl _ | apply Only.step (Dev.lnSet_only ..)
    | split

theorem Dev.lnRun_only (d : Dev) (l : LaneId) :
    Only [] (some [.lnTestStatus_code, .lnTestStatus_lock, .lnTestStatus_state]) (some []) d (Dev.lnRun d l) := by
  unfold Dev.lnRun
  try dsimp -proj only
  repeat' first
    | exact rfl
    | with_reducible first
        | exact .refl _ | apply Only.step (Dev.lnSet_only ..) | apply Only.step (Dev.lnUnlock_only ..)

theorem Dev.lnStart_only (d : Dev) (l : LaneId) :
    Only [.bkts, .obs, .net, .fab] (some [.fbLaneStatus_lastCause, .fbLaneStatus_removals, .fbLaneStatus_state,
          .fbLaneStatus_txIdle, .fbLinkStatus_belowMinSticky, .lnTestStatus_code, .lnTestStatus_lock,
          .lnTestStatus_state]) (some []) d (Dev.lnStart d l) := by
  unfold Dev.lnStart
  try dsimp -proj only
  repeat' first
    | exact rfl
    | with_reducible first
        | exact .refl _ | apply Only.step (Dev.drainLane_only ..) | apply Only.step (Dev.lnRun_only ..)
        | apply Only.step (Dev.lnSet_only ..) | apply Only.step (Dev.lnUnlock_only ..)
        | apply Only.step (Dev.pairTo_only ..) | apply Only.step (Dev.setLaneX_only ..)
    | split

theorem Dev.restoreDefaults_only (d : Dev) :
    Only [] none none d (Dev.restoreDefaults d) := by
  refine ⟨fun p h => ?_, fun _ h => (nomatch h), fun _ h => (nomatch h)⟩
  cases p <;> rfl

theorem Dev.startCredits_only (d : Dev) (p : Nat) :
    Only [.bkts] (some []) (some []) d (Dev.startCredits d p) := by
  unfold Dev.startCredits
  try dsimp -proj only
  repeat' first
    | exact rfl
    | with_reducible first
        | exact .refl _ | apply Only.step (Dev.setBucket_only ..) | refine .foldl _ ?_ _ ?_
    | (intro _ _; try dsimp -proj only) | split

theorem Dev.startLoaded_only (d : Dev) :
    Only [.bkts, .obs, .tm] (some [.egGateStatus_gates, .fbLaneStatus_state, .fwPrpCtl_pairErr, .ptPortStatus_state])
          (some []) d (Dev.startLoaded d) := by
  unfold Dev.startLoaded
  try simp -proj -zeta only [Dev.mk_tm]
  try dsimp -proj only
  repeat' first
    | exact rfl
    | with_reducible first
        | exact .refl _ | apply Only.step (Dev.bringUp_only ..) | apply Only.step (Dev.judgePairs_only ..)
        | apply Only.step (Dev.setLane_only ..) | apply Only.step (Dev.setPd_only ..)
        | apply Only.step (Dev.startCredits_only ..) | apply Only.step (Dev.withTm_only ..) | refine .foldl _ ?_ _ ?_
    | (intro _ _; try dsimp -proj only) | split

theorem Dev.loaded_only (d : Dev) :
    Only [.boot, .bkts, .obs, .tm, .net, .fw, .tak, .plc] none none d (Dev.loaded d) := by
  unfold Dev.loaded
  try simp -proj -zeta only [Dev.mk_tak]
  try dsimp -proj only
  repeat' first
    | exact rfl
    | with_reducible first
        | exact .refl _ | apply Only.step (Dev.applyOverlay_only ..) | apply Only.step (Dev.beginCut_only ..)
        | apply Only.step (Dev.lsEnUpdate_only ..) | apply Only.step (Dev.raise_only ..)
        | apply Only.step (Dev.restoreDefaults_only ..) | apply Only.step (Dev.setBoot_only ..)
        | apply Only.step (Dev.setCd_only ..) | apply Only.step (Dev.setFld_only ..)
        | apply Only.step (Dev.setWide_only ..) | apply Only.step (Dev.startLoaded_only ..)
        | apply Only.step (Dev.withTak_only ..) | refine .foldl _ ?_ _ ?_
    | (intro _ _; try dsimp -proj only) | split

theorem Dev.logError_only (d : Dev) (type : Nat) (offset : Nat) (data : Nat) (source : Nat) (index : Nat) :
    Only [.errlog, .bkts, .obs] (some [.hiErrlogStatus_overflowSticky]) (some [.hiErrDropped]) d (Dev.logError d type
          offset data source index) := by
  unfold Dev.logError
  try simp -proj -zeta only [Dev.mk_errlog]
  try dsimp -proj only
  repeat' first
    | exact rfl
    | with_reducible first
        | exact .refl _ | apply Only.step (Dev.bump_only ..) | apply Only.step (Dev.irq_only ..)
        | apply Only.step (Dev.raiseOnce_only ..) | apply Only.step (Dev.setCd_only ..)
        | apply Only.step (Dev.withErrlog_only ..)
    | split

theorem Dev.longExit_only (d : Dev) (a : Nat) (b : Nat) (lanes : Nat) :
    Only [.bkts, .obs] (some []) (some []) d (Dev.longExit d a b lanes) := by
  unfold Dev.longExit
  try simp -proj -zeta only [Dev.mk_obs]
  try dsimp -proj only
  repeat' first
    | exact rfl
    | with_reducible first
        | exact .refl _ | apply Only.step (Dev.raise_only ..) | apply Only.step (Dev.withObs_only ..)
    | split

theorem Dev.loseFrames_only (d : Dev) (n : Nat) :
    Only [.bkts, .obs, .tm, .net, .plc] (some [.swPortStatus_downBp, .swPortStatus_xoff, .swStatus_globalXoff,
          .tmDieStatus_capOverflowSticky]) (some [.swDownBp, .tmCapOverflow]) d (Dev.loseFrames d n) := by
  unfold Dev.loseFrames
  try simp -proj -zeta only [Dev.mk_net]
  try dsimp -proj only
  repeat' first
    | exact rfl
    | with_reducible first
        | exact .refl _ | apply Only.step (Dev.takeOut_only ..) | apply Only.step (Dev.withNet_only ..)
        | refine .foldl _ ?_ _ ?_
    | (intro _ _; try dsimp -proj only)

theorem Dev.loseLinks_only (d : Dev) (n : Nat) :
    Only [.bkts, .obs, .net, .fab] (some [.fbLaneCtl_calibrate, .fbLaneStatus_lastCause, .fbLaneStatus_removals,
          .fbLaneStatus_state, .fbLaneStatus_txIdle, .fbLinkStatus_belowMinSticky, .lnTestStatus_code,
          .lnTestStatus_state]) (some [.lnBitErrors, .lnBits, .lnSyncErrors]) d (Dev.loseLinks d n) := by
  unfold Dev.loseLinks
  try dsimp -proj only
  repeat' first
    | exact rfl
    | with_reducible first
        | exact .refl _ | apply Only.step (Dev.dropLane_only ..) | refine .foldl _ ?_ _ ?_
    | (intro _ _; try dsimp -proj only) | split

theorem Dev.losePorts_only (d : Dev) (n : Nat) :
    Only [.bkts, .obs, .tm, .net, .fw, .plc] (some [.fpPortStatus_up, .fwStatus_fillSticky, .ptPortStatus_state,
          .swPortStatus_discarding, .swPortStatus_downBp, .swPortStatus_holding, .swPortStatus_xoff,
          .swStatus_globalXoff, .tmDieStatus_capOverflowSticky]) none d (Dev.losePorts d n) := by
  unfold Dev.losePorts
  try dsimp -proj only
  repeat' first
    | exact rfl
    | with_reducible first
        | exact .refl _ | apply Only.step (Dev.fieldDown_only ..) | apply Only.step (Dev.outputDown_only ..)
        | apply Only.step (Dev.setPd_only ..) | apply Only.step (Dev.setTx_only ..) | refine .foldl _ ?_ _ ?_
    | (intro _ _; try dsimp -proj only) | split

theorem Dev.takeSwitched_only (d : Dev) (t : Nat) (s : Nat) :
    Only [.tm, .tak, .plc] (some [.clInspectUse_nodePct]) (some [.tkSwitchTime]) d (Dev.takeSwitched d t s) := by
  unfold Dev.takeSwitched
  try simp -proj -zeta only [Dev.mk_plc, Dev.mk_tak]
  try dsimp -proj only
  repeat' first
    | exact rfl
    | with_reducible first
        | exact .refl _ | apply Only.step (Dev.dropTimer_only ..) | apply Only.step (Dev.setCommit_only ..)
        | apply Only.step (Dev.setPd_only ..) | apply Only.step (Dev.setWide_only ..)
        | apply Only.step (Dev.withPlc_only ..) | apply Only.step (Dev.withTak_only ..) | refine .foldl _ ?_ _ ?_
    | (intro _ _; try dsimp -proj only) | split

theorem Dev.loseDie_only (d : Dev) (n : Nat) :
    Only [.bkts, .obs, .tm, .net, .fw, .tak, .plc, .fab] (some [.clInspectUse_nodePct, .fbLaneCtl_calibrate,
          .fbLaneStatus_lastCause, .fbLaneStatus_removals, .fbLaneStatus_state, .fbLaneStatus_txIdle,
          .fbLinkStatus_belowMinSticky, .fpPortStatus_up, .fwStatus_fillSticky, .lnTestStatus_code,
          .lnTestStatus_state, .ptPortStatus_state, .pwStatus_railOn, .swPortStatus_discarding, .swPortStatus_downBp,
          .swPortStatus_holding, .swPortStatus_xoff, .swStatus_globalXoff, .tmDieStatus_capOverflowSticky]) none d
          (Dev.loseDie d n) := by
  unfold Dev.loseDie
  try dsimp -proj only
  repeat' first
    | exact rfl
    | with_reducible first
        | exact .refl _ | apply Only.step (Dev.clrBit_only ..) | apply Only.step (Dev.loseFrames_only ..)
        | apply Only.step (Dev.loseLinks_only ..) | apply Only.step (Dev.losePorts_only ..)
        | apply Only.step (Dev.setRing_only ..) | apply Only.step (Dev.takeSwitched_only ..)
    | split

theorem Dev.loseEngine_only (d : Dev) (k : Nat) :
    Only [.bkts, .obs, .tm, .net, .fw, .plc] (some [.aeFaultLast_addr, .aeFaultLast_cause, .aeFaultLast_prog,
          .aeStatus_faultSticky, .aeStatus_paritySticky, .fpPortStatus_bpActive, .fpPortStatus_exceededSticky,
          .fwStatus_fillSticky, .opFibreStatus_dark, .ptMacThresh_exceededSticky, .ptPortStatus_downCount,
          .ptPortStatus_lastCause, .ptPortStatus_state, .pwStatus_railOn, .swPortStatus_discarding,
          .swPortStatus_downBp, .swPortStatus_holding, .swPortStatus_xoff, .swStatus_globalXoff,
          .tmDieStatus_capOverflowSticky]) none d (Dev.loseEngine d k) := by
  unfold Dev.loseEngine
  try dsimp -proj only
  repeat' first
    | exact rfl
    | with_reducible first
        | exact .refl _ | apply Only.step (Dev.clrBit_only ..) | apply Only.step (Dev.groupDark_only ..)
        | apply Only.step (Dev.setLight_only ..) | refine .foldl _ ?_ _ ?_
    | (intro _ _; try dsimp -proj only) | split

theorem Dev.loseRail_only (d : Dev) (b : Nat) :
    Only [.bkts, .obs, .tm, .net, .fw, .tak, .plc, .fab] (some [.aeFaultLast_addr, .aeFaultLast_cause,
          .aeFaultLast_prog, .aeStatus_faultSticky, .aeStatus_paritySticky, .clInspectUse_nodePct,
          .fbLaneCtl_calibrate, .fbLaneStatus_lastCause, .fbLaneStatus_removals, .fbLaneStatus_state,
          .fbLaneStatus_txIdle, .fbLinkStatus_belowMinSticky, .fpPortStatus_bpActive, .fpPortStatus_exceededSticky,
          .fpPortStatus_up, .fwStatus_fillSticky, .lnTestStatus_code, .lnTestStatus_state, .opFibreStatus_dark,
          .ptMacThresh_exceededSticky, .ptPortStatus_downCount, .ptPortStatus_lastCause, .ptPortStatus_state,
          .pwStatus_railOn, .swPortStatus_discarding, .swPortStatus_downBp, .swPortStatus_holding, .swPortStatus_xoff,
          .swStatus_globalXoff, .tmDieStatus_capOverflowSticky]) none d (Dev.loseRail d b) := by
  unfold Dev.loseRail
  try dsimp -proj only
  repeat' first
    | exact rfl
    | with_reducible first
        | exact .refl _ | apply Only.step (Dev.loseDie_only ..) | apply Only.step (Dev.loseEngine_only ..)
    | split

theorem Dev.markDark_only (d : Dev) (g : Nat) (power : BitVec 16) :
    Only [.bkts, .obs, .tm, .net, .fw, .plc] (some [.aeFaultLast_addr, .aeFaultLast_cause, .aeFaultLast_prog,
          .aeStatus_faultSticky, .aeStatus_paritySticky, .fpPortStatus_bpActive, .fpPortStatus_exceededSticky,
          .fwStatus_fillSticky, .opFibreStatus_dark, .opFibreStatus_darkSticky, .ptMacThresh_exceededSticky,
          .ptPortStatus_downCount, .ptPortStatus_lastCause, .ptPortStatus_state, .swPortStatus_discarding,
          .swPortStatus_downBp, .swPortStatus_holding, .swPortStatus_xoff, .swStatus_globalXoff,
          .tmDieStatus_capOverflowSticky]) none d (Dev.markDark d g power) := by
  unfold Dev.markDark
  try dsimp -proj only
  repeat' first
    | exact rfl
    | with_reducible first
        | exact .refl _ | apply Only.step (Dev.groupDark_only ..) | apply Only.step (Dev.raise_only ..)
        | apply Only.step (Dev.setFld_only ..) | apply Only.step (Dev.setLight_only ..)

theorem Dev.measure_only (d : Dev) (temp : Nat) (hottest : Nat) :
    Only [] (some [.dvTherm_hottest, .dvTherm_temp]) (some []) d (Dev.measure d temp hottest) := by
  unfold Dev.measure
  try dsimp -proj only
  repeat' first
    | exact rfl
    | with_reducible first
        | exact .refl _ | apply Only.step (Dev.setCd_only ..)

theorem Dev.mendWord_only (d : Dev) (b : BadWord) :
    Only [.net] (some []) (some []) d (Dev.mendWord d b) := by
  unfold Dev.mendWord
  try simp -proj -zeta only [Dev.mk_net]
  try dsimp -proj only
  repeat' first
    | exact rfl
    | with_reducible first
        | exact .refl _ | apply Only.step (Dev.withNet_only ..)

theorem Dev.moreBytes_only (d : Dev) (p : Nat) (b : List Byte) (read : List BadWord) :
    Only [.bkts, .obs, .net, .plc] (some [.aeFaultLast_addr, .aeFaultLast_cause, .aeFaultLast_prog,
          .aeStatus_faultSticky, .aeStatus_paritySticky, .aeStatus_rateSticky, .clInspectStatus_scanWaitSticky,
          .clInspectStatus_treeParitySticky, .clPipeStatus_paritySticky, .clPipeStatus_rateSticky,
          .fpPortStatus_bpActive, .psPortStatus_exceededSticky, .psPortStatus_lastReason,
          .psPortStatus_malformedSticky, .psStatus_graphParitySticky, .psStatus_noSessionSticky, .swPortStatus_downBp,
          .swPortStatus_xoff, .swStatus_globalXoff]) none d (Dev.moreBytes d p b read) := by
  unfold Dev.moreBytes
  try dsimp -proj only
  repeat' first
    | exact rfl
    | with_reducible first
        | exact .refl _ | apply Only.step (Dev.advance_only ..) | apply Only.step (Dev.bpTest_only ..)
        | apply Only.step (Dev.setFrame_only ..)
    | split

theorem Dev.moveAgain_only (d : Dev) :
    Only [.tm, .net, .fw, .tak, .plc] (some [.tkCtl_commit, .tkStatus_batchOpen, .tkStatus_code, .tkStatus_late])
          (some []) d (Dev.moveAgain d) := by
  unfold Dev.moveAgain
  try simp -proj -zeta only [Dev.mk_plc]
  try dsimp -proj only
  repeat' first
    | exact rfl
    | with_reducible first
        | exact .refl _ | apply Only.step (Dev.move_only ..) | apply Only.step (Dev.withPlc_only ..)
        | refine .foldl _ ?_ _ ?_
    | (intro _ _; try dsimp -proj only) | split

theorem Dev.notAdmitted_only (d : Dev) (f : Frame) (k : WKey) :
    Only [.bkts, .obs, .net] (some [.swPortStatus_downBp, .swPortStatus_xoff, .swStatus_globalXoff]) none d
          (Dev.notAdmitted d f k) := by
  unfold Dev.notAdmitted
  try dsimp -proj only
  repeat' first
    | exact rfl
    | with_reducible first
        | exact .refl _ | apply Only.step (Dev.countFor_only ..) | apply Only.step (Dev.reap_only ..)
        | apply Only.step (Dev.setFrame_only ..)

theorem Dev.obSnap_only (d : Dev) (n : Nat) (s : Nat) :
    Only [] (some []) (some [.obSnap]) d (Dev.obSnap d n s) := by
  unfold Dev.obSnap
  try dsimp -proj only
  repeat' first
    | exact rfl
    | with_reducible first
        | exact .refl _ | apply Only.step (Dev.setWide_only ..) | refine .foldl _ ?_ _ ?_
    | (intro _ _; try dsimp -proj only)

theorem Dev.obTrigger_only (d : Dev) (r : Nat) :
    Only [.bkts, .obs] (some []) (some []) d (Dev.obTrigger d r) := by
  unfold Dev.obTrigger
  try dsimp -proj only
  repeat' first
    | exact rfl
    | with_reducible first
        | exact .refl _ | apply Only.step (Dev.beginIncident_only ..)
    | split

theorem Dev.ownMove_only (d : Dev) (m : SeqMove) :
    Only [.tm, .net, .fw, .tak, .plc] (some [.tkCtl_commit, .tkStatus_batchOpen, .tkStatus_code, .tkStatus_late])
          (some []) d (Dev.ownMove d m) := by
  unfold Dev.ownMove
  try simp -proj -zeta only [Dev.mk_plc]
  try dsimp -proj only
  repeat' first
    | exact rfl
    | with_reducible first
        | exact .refl _ | apply Only.step (Dev.move_only ..) | apply Only.step (Dev.withPlc_only ..)
    | split

theorem Dev.parkWindow_only (d : Dev) (a : Nat) (b : Nat) :
    Only [.fab] (some [.fbLaneStatus_txIdle]) (some []) d (Dev.parkWindow d a b) := by
  unfold Dev.parkWindow
  try simp -proj -zeta only [Dev.mk_fab]
  try dsimp -proj only
  repeat' first
    | exact rfl
    | with_reducible first
        | exact .refl _ | apply Only.step (Dev.setPd_only ..) | apply Only.step (Dev.withFab_only ..)
        | refine .foldl _ ?_ _ ?_
    | (intro _ _; try dsimp -proj only) | split

theorem Dev.peerNotice_only (d : Dev) (a : Nat) (b : Nat) (k : Nat) :
    Only [.bkts, .obs, .net, .fab] (some [.fbLaneStatus_lastCause, .fbLaneStatus_removals, .fbLaneStatus_state,
          .fbLaneStatus_txIdle, .fbLinkStatus_belowMinSticky]) (some []) d (Dev.peerNotice d a b k) := by
  unfold Dev.peerNotice
  try dsimp -proj only
  repeat' first
    | exact rfl
    | with_reducible first
        | exact .refl _ | apply Only.step (Dev.minServiceTest_only ..) | apply Only.step (Dev.noteRemoval_only ..)
        | apply Only.step (Dev.setLane_only ..) | apply Only.step (Dev.setLaneX_only ..)
        | apply Only.step (Dev.shed_only ..)
    | split

theorem Dev.perst_only (d : Dev) :
    Only [.sup, .dma] none none d (Dev.perst d) := by
  refine ⟨fun p h => ?_, fun _ h => (nomatch h), fun _ h => (nomatch h)⟩
  cases p <;> first | rfl | exact absurd h (by decide)

theorem Dev.pollSource_only (d : Dev) (k : Nat) (ack : Bool) :
    Only [.bkts, .obs, .net] (some []) (some []) d (Dev.pollSource d k ack) := by
  unfold Dev.pollSource
  try simp -proj -zeta only [Dev.mk_net]
  try dsimp -proj only
  repeat' first
    | exact rfl
    | with_reducible first
        | exact .refl _ | apply Only.step (Dev.raise_only ..) | apply Only.step (Dev.withNet_only ..)
    | split

theorem Dev.portDisable_only (d : Dev) (p : Nat) :
    Only [.bkts, .obs, .tm, .net, .fw, .plc] (some [.aeFaultLast_addr, .aeFaultLast_cause, .aeFaultLast_prog,
          .aeStatus_faultSticky, .aeStatus_paritySticky, .fpPortStatus_bpActive, .fpPortStatus_exceededSticky,
          .fwStatus_fillSticky, .ptMacThresh_exceededSticky, .ptPortCtl_enable, .ptPortStatus_downCount,
          .ptPortStatus_lastCause, .ptPortStatus_state, .swPortStatus_discarding, .swPortStatus_downBp,
          .swPortStatus_holding, .swPortStatus_xoff, .swStatus_globalXoff, .tmDieStatus_capOverflowSticky]) none d
          (Dev.portDisable d p) := by
  unfold Dev.portDisable
  try dsimp -proj only
  repeat' first
    | exact rfl
    | with_reducible first
        | exact .refl _ | apply Only.step (Dev.finishDisable_only ..) | apply Only.step (Dev.setPd_only ..)
    | split

theorem Dev.preemptTest_only (d : Dev) (p : Nat) :
    Only [.bkts, .obs, .net] (some [.lnTestStatus_code, .lnTestStatus_state]) (some [.lnBitErrors, .lnBits,
          .lnSyncErrors]) d (Dev.preemptTest d p) := by
  unfold Dev.preemptTest
  try dsimp -proj only
  repeat' first
    | exact rfl
    | with_reducible first
        | exact .refl _ | apply Only.step (Dev.lnCut_only ..)

theorem Dev.portEnable_only (d : Dev) (p : Nat) :
    Only [.bkts, .obs, .net] (some [.lnTestStatus_code, .lnTestStatus_state, .ptPortCtl_enable, .ptPortStatus_state])
          (some [.lnBitErrors, .lnBits, .lnSyncErrors]) d (Dev.portEnable d p) := by
  unfold Dev.portEnable
  try dsimp -proj only
  repeat' first
    | exact rfl
    | with_reducible first
        | exact .refl _ | apply Only.step (Dev.bringUp_only ..) | apply Only.step (Dev.preemptTest_only ..)
        | apply Only.step (Dev.setPd_only ..) | refine .foldl _ ?_ _ ?_
    | (intro _ _; try dsimp -proj only) | split

theorem Dev.powerNext_only (d : Dev) :
    Only [.boot, .tm] (some [.pwStatus_railOn]) (some []) d (Dev.powerNext d) := by
  unfold Dev.powerNext
  try simp -proj -zeta only [Dev.mk_tm]
  try dsimp -proj only
  repeat' first
    | exact rfl
    | with_reducible first
        | exact .refl _ | apply Only.step (Dev.setBit_only ..) | apply Only.step (Dev.setBoot_only ..)
        | apply Only.step (Dev.withTm_only ..)
    | split

theorem Dev.ppsEdge_only (d : Dev) :
    Only [.tm] (some [.tmStatus_stepPending]) (some [.tmPpsInCount, .tmPpsInIgnored, .tmPpsInStamp]) d (Dev.ppsEdge d)
          := by
  unfold Dev.ppsEdge
  try simp -proj -zeta only [Dev.mk_tm]
  try dsimp -proj only
  repeat' first
    | exact rfl
    | with_reducible first
        | exact .refl _ | apply Only.step (Dev.bump_only ..) | apply Only.step (Dev.irq_only ..)
        | apply Only.step (Dev.pendStep_only ..) | apply Only.step (Dev.setWide_only ..)
        | apply Only.step (Dev.withTm_only ..)
    | split

theorem Dev.ppsOut_only (d : Dev) (v : Bool) :
    Only [.tm] (some []) (some []) d (Dev.ppsOut d v) := by
  unfold Dev.ppsOut
  try simp -proj -zeta only [Dev.mk_tm]
  try dsimp -proj only
  repeat' first
    | exact rfl
    | with_reducible first
        | exact .refl _ | apply Only.step (Dev.withTm_only ..)

theorem Dev.ppsFall_only (d : Dev) :
    Only [.tm] (some []) (some []) d (Dev.ppsFall d) := by
  unfold Dev.ppsFall
  try simp -proj -zeta only [Dev.mk_tm]
  try dsimp -proj only
  repeat' first
    | exact rfl
    | with_reducible first
        | exact .refl _ | apply Only.step (Dev.ppsOut_only ..) | apply Only.step (Dev.withTm_only ..)
    | split

theorem Dev.ppsSecond_only (d : Dev) :
    Only [.tm] (some []) (some []) d (Dev.ppsSecond d) := by
  unfold Dev.ppsSecond
  try simp -proj -zeta only [Dev.mk_tm]
  try dsimp -proj only
  repeat' first
    | exact rfl
    | with_reducible first
        | exact .refl _ | apply Only.step (Dev.ppsOut_only ..) | apply Only.step (Dev.withTm_only ..)
    | split

theorem Dev.railFault_only (d : Dev) (b : Nat) :
    Only [.sup, .boot, .bkts, .obs, .tm, .net, .fw, .tak, .plc, .fab] (some [.aeFaultLast_addr, .aeFaultLast_cause,
          .aeFaultLast_prog, .aeStatus_faultSticky, .aeStatus_paritySticky, .clInspectUse_nodePct,
          .fbLaneCtl_calibrate, .fbLaneStatus_lastCause, .fbLaneStatus_removals, .fbLaneStatus_state,
          .fbLaneStatus_txIdle, .fbLinkStatus_belowMinSticky, .fpPortStatus_bpActive, .fpPortStatus_exceededSticky,
          .fpPortStatus_up, .fwStatus_fillSticky, .lnTestStatus_code, .lnTestStatus_state, .obFatal_cause,
          .obFatal_fatalSticky, .opFibreStatus_dark, .ptMacThresh_exceededSticky, .ptPortStatus_downCount,
          .ptPortStatus_lastCause, .ptPortStatus_state, .pwStatus_railFaultSticky, .pwStatus_railOn,
          .swPortStatus_discarding, .swPortStatus_downBp, .swPortStatus_holding, .swPortStatus_xoff,
          .swStatus_globalXoff, .tmDieStatus_capOverflowSticky]) none d (Dev.railFault d b) := by
  unfold Dev.railFault
  try simp -proj -zeta only [Dev.mk_sup]
  try dsimp -proj only
  repeat' first
    | exact rfl
    | with_reducible first
        | exact .refl _ | apply Only.step (Dev.fatalEvent_only ..) | apply Only.step (Dev.loseRail_only ..)
        | apply Only.step (Dev.setBit_only ..) | apply Only.step (Dev.withSup_only ..)
    | split

theorem Dev.rebuild_only (d : Dev) (n : Nat) :
    Only [.bkts, .obs, .tak, .plc] (some [.clTreeCtl_rebuild]) (some []) d (Dev.rebuild d n) := by
  unfold Dev.rebuild
  try simp -proj -zeta only [Dev.mk_plc]
  try dsimp -proj only
  repeat' first
    | exact rfl
    | with_reducible first
        | exact .refl _ | apply Only.step (Dev.beginFull_only ..) | apply Only.step (Dev.freshOwner_only ..)
        | apply Only.step (Dev.setPd_only ..) | apply Only.step (Dev.withPlc_only ..)
    | split

theorem Dev.retryWait_only (d : Dev) :
    Only [.bkts, .obs, .tm, .net, .fw, .tak, .plc] (some [.fwStatus_fillSticky, .tkCtl_commit, .tkStatus_batchOpen,
          .tkStatus_code, .tkStatus_late]) (some [.fwAged]) d (Dev.retryWait d) := by
  unfold Dev.retryWait
  try simp -proj -zeta only [Dev.mk_plc]
  try dsimp -proj only
  repeat' first
    | exact rfl
    | with_reducible first
        | exact .refl _ | apply Only.step (Dev.place_only ..) | apply Only.step (Dev.withPlc_only ..)
    | split

theorem Dev.reclaimDone_only (d : Dev) (t : Nat) :
    Only [.bkts, .obs, .tm, .net, .fw, .tak, .plc] (some [.fwStatus_fillSticky, .plHead_head, .plStatus_failSticky,
          .plStatus_lastCode, .tkCtl_commit, .tkStatus_batchOpen, .tkStatus_code, .tkStatus_late]) (some [.fwAged,
          .plDoneCount, .plFailCount]) d (Dev.reclaimDone d t) := by
  unfold Dev.reclaimDone
  try simp -proj -zeta only [Dev.mk_plc, Dev.mk_tak]
  try dsimp -proj only
  repeat' first
    | exact rfl
    | with_reducible first
        | exact .refl _ | apply Only.step (Dev.clearHidden_only ..) | apply Only.step (Dev.fillTest_only ..)
        | apply Only.step (Dev.goOn_only ..) | apply Only.step (Dev.mapVers_only ..)
        | apply Only.step (Dev.retryWait_only ..) | apply Only.step (Dev.sweepRoom_only ..)
        | apply Only.step (Dev.withPlc_only ..) | apply Only.step (Dev.withTak_only ..) | refine .foldl _ ?_ _ ?_
    | (intro _ _; try dsimp -proj only) | split

theorem Dev.redoAfter_only (d : Dev) (code : Nat) :
    Only [.bkts, .obs, .fw, .tak, .plc] (some [.clTreeCtl_rebuild]) (some []) d (Dev.redoAfter d code) := by
  unfold Dev.redoAfter
  try simp -proj -zeta only [Dev.mk_tak_plc]
  try dsimp -proj only
  repeat' first
    | exact rfl
    | with_reducible first
        | exact .refl _ | apply Only.step (Dev.dropJobs_only ..) | apply Only.step (Dev.endFull_only ..)
        | apply Only.step (Dev.giveUp_only ..) | apply Only.step (Dev.mapJobs_only ..)
        | apply Only.step (Dev.withPlc_only ..) | apply Only.step (Dev.withTak_only ..) | refine .foldl _ ?_ _ ?_
    | (intro _ _; try dsimp -proj only)

theorem Dev.regWrite_only {ps fs xs} {d0 d : Dev} (w off data : Nat) (f : Dev → Dev) (hp : [.errlog, .bkts, .obs].all
      ps.contains = true)
    (hf : within (some [.hiErrlogStatus_overflowSticky]) fs = true) (hx : within (some [.hiErrDropped]) xs = true)
    (h : Only ps fs xs d0 d) (k : Only ps fs xs d0 (f d)) : Only ps fs xs d0 (d.regWrite w off data f) := by
  unfold Dev.regWrite
  split
  · exact k
  · exact .step (Dev.logError_only ..) hp hf hx h

theorem Dev.releaseDeferred_only (d : Dev) (n : Nat) (x2 : List Copy) :
    Only [.bkts, .obs, .tm, .net] (some [.swPortStatus_downBp, .swPortStatus_xoff, .swStatus_globalXoff,
          .tmDieStatus_capOverflowSticky]) none d (Dev.releaseDeferred d n x2) := by
  induction x2 generalizing d with
  | nil => exact .refl _
  | cons c cs ih =>
    unfold Dev.releaseDeferred
    split
    · exact ih ..
    · rename_i f _
      extract_lets r net gone h d1
      have hg : Only [.net] (some []) (some []) d gone := Dev.withNet_only d _
      clear_value gone r
      split
      · exact .refl _
      · refine .step (ih ..) rfl rfl rfl (.step (Dev.reap_only ..) rfl rfl rfl ?_)
        unfold d1
        clear d1
        split
        · have hh : Only [.bkts, .obs] (some []) (some [.poHostDrop]) gone h.1 := .step (Dev.hostPolice_only ..) rfl
              rfl rfl (.refl _)
          clear_value h
          split
          · exact .step (Dev.enterVoq_only ..) rfl rfl rfl (.step hh rfl rfl rfl (.step hg rfl rfl rfl (.refl _)))
          · exact .step hh rfl rfl rfl (.step hg rfl rfl rfl (.refl _))
        · exact .step (Dev.enterVoq_only ..) rfl rfl rfl (.step hg rfl rfl rfl (.refl _))

theorem Dev.replicateOne_only (d : Dev) (f : Frame) (r : CopyReq) :
    optOnly [.bkts, .obs, .tm, .net] (some [.swPortStatus_downBp, .swPortStatus_xoff, .swStatus_globalXoff,
          .tmDieStatus_capOverflowSticky]) none d (Dev.replicateOne d f r) := by
  unfold Dev.replicateOne
  try dsimp -proj only
  repeat' first
    | with_reducible first
        | refine optOnly.some ?_ | exact .refl _ | apply Only.step (Dev.defer_only ..)
        | apply Only.step (Dev.enterVoq_only ..) | apply Only.step (Dev.hostPolice_only ..)
        | apply Only.step (Dev.setFrame_only ..)
    | trivial | split

theorem Dev.stallNote_only (d : Dev) (n : Nat) (r : CopyReq) :
    Only [.bkts, .obs] (some []) (some []) d (Dev.stallNote d n r) := by
  unfold Dev.stallNote
  try dsimp -proj only
  repeat' first
    | exact rfl
    | with_reducible first
        | exact .refl _ | apply Only.step (Dev.raiseOnce_only ..)
    | split

theorem Dev.replicateFrame_only (d : Dev) (id : Nat) (x2 : Nat) :
    Only [.bkts, .obs, .tm, .net] (some [.swPortStatus_downBp, .swPortStatus_xoff, .swStatus_globalXoff,
          .tmDieStatus_capOverflowSticky]) none d (Dev.replicateFrame d id x2).1 := by
  fun_induction Dev.replicateFrame d id x2
  all_goals repeat' first
    | exact rfl
    | with_reducible first
        | exact .refl _ | apply Only.step (by assumption) | apply Only.step (Dev.reap_only ..)
        | apply Only.step (optOnly.of (Dev.replicateOne_only ..) (by assumption))
        | apply Only.step (Dev.setFrame_only ..) | apply Only.step (Dev.stallNote_only ..)
    | (dsimp -proj +zetaDelta only) | split

theorem Dev.replicateAll_only (d : Dev) (x1 : List Frame) (x2 : Nat) :
    Only [.bkts, .obs, .tm, .net] (some [.swPortStatus_downBp, .swPortStatus_xoff, .swStatus_globalXoff,
          .tmDieStatus_capOverflowSticky]) none d (Dev.replicateAll d x1 x2) := by
  fun_induction Dev.replicateAll d x1 x2
  all_goals repeat' first
    | exact rfl
    | with_reducible first
        | exact .refl _ | apply Only.step (by assumption) | apply Only.step (Dev.replicateFrame_only ..)

theorem Dev.resume_only (d : Dev) (p : Nat) (read : List BadWord) :
    Only [.bkts, .obs, .net, .plc] (some [.aeFaultLast_addr, .aeFaultLast_cause, .aeFaultLast_prog,
          .aeStatus_faultSticky, .aeStatus_paritySticky, .aeStatus_rateSticky, .clInspectStatus_scanWaitSticky,
          .clInspectStatus_treeParitySticky, .clPipeStatus_paritySticky, .clPipeStatus_rateSticky,
          .psPortStatus_exceededSticky, .psPortStatus_lastReason, .psPortStatus_malformedSticky,
          .psStatus_graphParitySticky, .psStatus_noSessionSticky, .swPortStatus_downBp, .swPortStatus_xoff,
          .swStatus_globalXoff]) none d (Dev.resume d p read) := by
  unfold Dev.resume
  try dsimp -proj only
  repeat' first
    | exact rfl
    | with_reducible first
        | exact .refl _ | apply Only.step (Dev.advance_only ..) | apply Only.step (Dev.cellTest_only ..)
        | apply Only.step (Dev.setFrame_only ..)
    | split

theorem Dev.retire_only (d : Dev) (t : Nat) :
    Only [.bkts, .obs, .tm, .net, .fw, .tak, .plc] (some [.tkCtl_commit, .tkStatus_batchOpen, .tkStatus_code,
          .tkStatus_late]) (some []) d (Dev.retire d t) := by
  unfold Dev.retire
  try simp -proj -zeta only [Dev.mk_tak]
  try dsimp -proj only
  repeat' first
    | exact rfl
    | with_reducible first
        | exact .refl _ | apply Only.step (Dev.moveAgain_only ..) | apply Only.step (Dev.raise_only ..)
        | apply Only.step (Dev.withTak_only ..)
    | split

theorem Dev.retry_only (d : Dev) (f : Frame) (c : Copy) :
    Only [.bkts, .obs, .net] (some []) (some [.tmPtpSkipped, .tmPtpUpdated]) d (Dev.retry d f c) := by
  unfold Dev.retry
  try dsimp -proj only
  repeat' first
    | exact rfl
    | with_reducible first
        | exact .refl _ | apply Only.step (Dev.ptpEdit_only ..) | apply Only.step (Dev.setCopy_only ..)

theorem Dev.ringCtl_only (d : Dev) (c : Option Nat) (v : Nat) :
    Only [] (some [.dmRxCtl_bufKib, .dmRxCtl_enable, .dmRxCtl_irqCh, .dmRxCtl_irqEn, .dmRxCtl_ringLog2,
          .dmTxCtl_enable, .dmTxCtl_irqCh, .dmTxCtl_irqEn, .dmTxCtl_ringLog2]) (some []) d (Dev.ringCtl d c v) := by
  unfold Dev.ringCtl
  try dsimp -proj only
  repeat' first
    | exact rfl
    | with_reducible first
        | exact .refl _ | apply Only.step (Dev.setCd_only ..)
    | split

theorem Dev.runIntent_only (d : Dev) (i : Intent) :
    Only [.bkts, .obs, .tm, .net, .fw, .tak, .plc] (some [.fwStatus_fillSticky, .plHead_head, .plStatus_failSticky,
          .plStatus_lastCode, .tkCtl_commit, .tkStatus_batchOpen, .tkStatus_code, .tkStatus_late]) (some [.fwAged,
          .plDoneCount, .plFailCount]) d (Dev.runIntent d i) := by
  unfold Dev.runIntent
  try dsimp -proj only
  repeat' first
    | exact rfl
    | with_reducible first
        | exact .refl _ | apply Only.step (Dev.flushResults_only ..) | apply Only.step (Dev.runOne_only ..)
    | split

theorem Dev.runDesc_only (d : Dev) (op : Nat) (desc : List Byte) (payload : Option (List Byte)) :
    Only [.bkts, .obs, .tm, .net, .fw, .tak, .plc] (some [.fwStatus_fillSticky, .plHead_head, .plStatus_failSticky,
          .plStatus_lastCode, .tkCtl_commit, .tkStatus_batchOpen, .tkStatus_code, .tkStatus_late]) (some [.fwAged,
          .plDoneCount, .plFailCount]) d (Dev.runDesc d op desc payload) := by
  unfold Dev.runDesc
  try dsimp -proj only
  repeat' first
    | exact rfl
    | with_reducible first
        | exact .refl _ | apply Only.step (Dev.runIntent_only ..)
    | split

theorem Dev.rxFrame_only (d : Dev) (x : RxItem) (buf : Nat) :
    Only [.obs, .dma] (some [.dmRxPtr_head]) (some [.obStat]) d (Dev.rxFrame d x buf) := by
  unfold Dev.rxFrame
  try simp -proj -zeta only [Dev.mk_dma_out]
  try dsimp -proj only
  repeat' first
    | exact rfl
    | with_reducible first
        | exact .refl _ | apply Only.step (Dev.irq_only ..) | apply Only.step (Dev.setCd_only ..)
        | apply Only.step (Dev.txStats_only ..) | apply Only.step (Dev.withDma_only ..)
        | apply Only.step (Dev.withOut_only ..)
    | split

theorem Dev.rxTail_only (d : Dev) (v : Nat) :
    Only [] (some [.dmRxPtr_tail]) (some []) d (Dev.rxTail d v) := by
  unfold Dev.rxTail
  try dsimp -proj only
  repeat' first
    | exact rfl
    | with_reducible first
        | exact .refl _ | apply Only.step (Dev.setCd_only ..)

theorem Dev.scStart_only (d : Dev) (op : Nat) (plan : ScPlan) :
    Only [.bkts, .obs, .sec] (some [.scCmd_op, .scCmd_start, .scStatus_busySticky, .scStatus_state]) (some []) d
          (Dev.scStart d op plan) := by
  unfold Dev.scStart
  try dsimp -proj only
  repeat' first
    | exact rfl
    | with_reducible first
        | exact .refl _ | apply Only.step (Dev.raise_only ..) | apply Only.step (Dev.setCd_only ..)
        | apply Only.step (Dev.setSec_only ..)
    | split

theorem Dev.scAdvance_only (d : Dev) (o : Otp) :
    Only [.bkts, .obs, .sec] (some [.scCmd_op, .scCmd_start, .scStatus_busySticky, .scStatus_state]) (some []) d
          (Dev.scAdvance d o) := by
  unfold Dev.scAdvance
  try dsimp -proj only
  repeat' first
    | exact rfl
    | with_reducible first
        | exact .refl _ | apply Only.step (Dev.scStart_only ..)

theorem Dev.scEffect_only (d : Dev) (r : ScRun) :
    Only [.bkts, .obs, .sec] (some []) (some [.scChallenge]) d (Dev.scEffect d r) := by
  unfold Dev.scEffect
  try simp -proj -zeta only [Dev.mk_out]
  try dsimp -proj only
  repeat' first
    | exact rfl
    | with_reducible first
        | exact .refl _ | apply Only.step (Dev.raise_only ..) | apply Only.step (Dev.setSec_only ..)
        | apply Only.step (Dev.setWide_only ..) | apply Only.step (Dev.withOut_only ..)
    | split

theorem Dev.scEnd_only (d : Dev) (code : Nat) :
    Only [.sec] (some [.scCmd_start, .scStatus_code, .scStatus_state]) (some []) d (Dev.scEnd d code) := by
  unfold Dev.scEnd
  try dsimp -proj only
  repeat' first
    | exact rfl
    | with_reducible first
        | exact .refl _ | apply Only.step (Dev.setCd_only ..) | apply Only.step (Dev.setSec_only ..)

theorem Dev.scGet_only (d : Dev) :
    Only [.bkts, .obs, .net, .sec] (some [.scCmd_op, .scCmd_start, .scStatus_busySticky, .scStatus_state]) (some
          [.scChallenge]) d (Dev.scGet d) := by
  unfold Dev.scGet
  try simp -proj -zeta only [Dev.mk_net]
  try dsimp -proj only
  repeat' first
    | exact rfl
    | with_reducible first
        | exact .refl _ | apply Only.step (Dev.endChallenge_only ..) | apply Only.step (Dev.scStart_only ..)
        | apply Only.step (Dev.withNet_only ..)
    | split

theorem Dev.scKey_only (d : Dev) (o : Otp) (cmd : Option KeyCmd) :
    Only [.bkts, .obs, .sec] (some [.scCmd_op, .scCmd_start, .scStatus_busySticky, .scStatus_state]) (some
          [.scChallenge]) d (Dev.scKey d o cmd) := by
  unfold Dev.scKey
  try dsimp -proj only
  repeat' first
    | exact rfl
    | with_reducible first
        | exact .refl _ | apply Only.step (Dev.endChallenge_only ..) | apply Only.step (Dev.scStart_only ..)
    | split

theorem Dev.scPatch_only (d : Dev) (o : Otp) (rec_ : Option PatchRec) :
    Only [.bkts, .obs, .sec] (some [.scCmd_op, .scCmd_start, .scStatus_busySticky, .scStatus_state]) (some []) d
          (Dev.scPatch d o rec_) := by
  unfold Dev.scPatch
  try dsimp -proj only
  repeat' first
    | exact rfl
    | with_reducible first
        | exact .refl _ | apply Only.step (Dev.scStart_only ..)

theorem Dev.scQuote_only (d : Dev) (o : Otp) (nonce : Option Nat) :
    Only [.bkts, .obs, .sec] (some [.scCmd_op, .scCmd_start, .scStatus_busySticky, .scStatus_state]) (some []) d
          (Dev.scQuote d o nonce) := by
  unfold Dev.scQuote
  try dsimp -proj only
  repeat' first
    | exact rfl
    | with_reducible first
        | exact .refl _ | apply Only.step (Dev.scStart_only ..)
    | split

theorem Dev.scRefuse_only (d : Dev) (op : Nat) (code : Nat) :
    Only [.bkts, .obs] (some []) (some [.scRefused]) d (Dev.scRefuse d op code) := by
  unfold Dev.scRefuse
  try dsimp -proj only
  repeat' first
    | exact rfl
    | with_reducible first
        | exact .refl _ | apply Only.step (Dev.bump_only ..) | apply Only.step (Dev.raise_only ..)

theorem Dev.scSlate_only (d : Dev) :
    Only [.bkts, .obs, .sec] (some [.scCmd_op, .scCmd_start, .scStatus_busySticky, .scStatus_state]) (some []) d
          (Dev.scSlate d) := by
  unfold Dev.scSlate
  try dsimp -proj only
  repeat' first
    | exact rfl
    | with_reducible first
        | exact .refl _ | apply Only.step (Dev.scStart_only ..)

theorem Dev.scrubWord_only (d : Dev) (b : BadWord) :
    Only [.bkts, .obs, .net] (some [.aeStatus_paritySticky, .clInspectStatus_treeParitySticky,
          .clPipeStatus_paritySticky]) (some []) d (Dev.scrubWord d b) := by
  unfold Dev.scrubWord
  try dsimp -proj only
  repeat' first
    | exact rfl
    | with_reducible first
        | exact .refl _ | apply Only.step (Dev.alarmCl_only ..) | apply Only.step (Dev.noteBad_only ..)
        | apply Only.step (Dev.raise_only ..) | apply Only.step (Dev.setPd_only ..)
    | split

theorem Dev.sendPfc_only (d : Dev) (p : Nat) :
    Only [.net] (some []) (some [.obStat]) d (Dev.sendPfc d p) := by
  unfold Dev.sendPfc
  try simp -proj -zeta only [Dev.mk_out]
  try dsimp -proj only
  repeat' first
    | exact rfl
    | with_reducible first
        | exact .refl _ | apply Only.step (Dev.setTx_only ..) | apply Only.step (Dev.stat_only ..)
        | apply Only.step (Dev.withOut_only ..)
    | split

theorem Dev.setInput_only (d : Dev) (g : Nat) (power : BitVec 16) :
    Only [] (some [.opFibreStatus_inputPower]) (some []) d (Dev.setInput d g power) := by
  unfold Dev.setInput
  try dsimp -proj only
  repeat' first
    | exact rfl
    | with_reducible first
        | exact .refl _ | apply Only.step (Dev.setFld_only ..)

theorem Dev.setIsl_only (d : Dev) (n : Nat) (x : Island) :
    Only [.tm] (some []) (some []) d (Dev.setIsl d n x) := by
  unfold Dev.setIsl
  try simp -proj -zeta only [Dev.mk_tm]
  try dsimp -proj only
  repeat' first
    | exact rfl
    | with_reducible first
        | exact .refl _ | apply Only.step (Dev.withTm_only ..)

theorem Dev.setPhyInt_only (d : Dev) (low : Bool) :
    Only [.sup] (some []) (some []) d (Dev.setPhyInt d low) := by
  unfold Dev.setPhyInt
  try simp -proj -zeta only [Dev.mk_sup]
  try dsimp -proj only
  repeat' first
    | exact rfl
    | with_reducible first
        | exact .refl _ | apply Only.step (Dev.withSup_only ..)

theorem Dev.setResult_only (d : Dev) (x : Bank) (code : Nat) :
    Only [] (some [.imBootStatus_aResult, .imBootStatus_bResult]) (some []) d (Dev.setResult d x code) := by
  unfold Dev.setResult
  try dsimp -proj only
  repeat' first
    | exact rfl
    | with_reducible first
        | exact .refl _ | apply Only.step (Dev.setCd_only ..)
    | split

theorem Dev.settleTrees_only (d : Dev) (k : Nat) :
    Only [.bkts, .tm, .fw, .tak, .plc] (some [.tkCtl_commit, .tkStatus_batchOpen, .tkStatus_code, .tkStatus_late])
          (some []) d (Dev.settleTrees d k) := by
  unfold Dev.settleTrees
  try dsimp -proj only
  repeat' first
    | exact rfl
    | with_reducible first
        | exact .refl _ | apply Only.step (Dev.intentStaged_only ..) | apply Only.step (Dev.settle_only ..)
    | split

theorem Dev.showOtp_only (d : Dev) (o : Otp) :
    Only [] (some [.scOtpStatus_advancesLeft, .scOtpStatus_broken, .scOtpStatus_patchesLeft, .scOtpStatus_programmed,
          .scOtpStatus_revoked]) (some [.scKeyHash, .scRollback]) d (Dev.showOtp d o) := by
  unfold Dev.showOtp
  try dsimp -proj only
  repeat' first
    | exact rfl
    | with_reducible first
        | exact .refl _ | apply Only.step (Dev.setCd_only ..) | apply Only.step (Dev.setWide_only ..)
        | refine .foldl _ ?_ _ ?_
    | (intro _ _; try dsimp -proj only)

theorem Dev.steer_only {ps fs xs} {d0 d : Dev} (what : Nat) (f : Dev → Dev) (hp : [.bkts, .obs].all ps.contains = true)
    (hf : within (some [.tmStatus_steerIgnoredSticky]) fs = true) (hx : within (some []) xs = true)
    (h : Only ps fs xs d0 d) (k : Only ps fs xs d0 (f d)) : Only ps fs xs d0 (d.steer what f) := by
  unfold Dev.steer
  split
  · refine .step (Dev.raise_only ..) hp ?_ hx (.step (Dev.setCd_only ..) rfl hf hx h)
    cases fs <;> rfl
  · exact k

theorem Dev.snap_only (d : Dev) :
    Only [.bkts, .obs] (some [.tmCtl_snap, .tmStatus_steerIgnoredSticky]) (some []) d (Dev.snap d) := by
  unfold Dev.snap
  try dsimp -proj only
  repeat' first
    | exact rfl
    | with_reducible first
        | exact .refl _ | apply Only.step (Dev.setCd_only ..) | refine Dev.steer_only _ _ ?_ ?_ ?_ ?_ ?_

theorem Dev.spillRelease_only (d : Dev) :
    Only [.boot, .bkts, .obs, .tm, .net, .plc] (some [.aeFaultLast_addr, .aeFaultLast_cause, .aeFaultLast_prog,
          .aeStatus_faultSticky, .aeStatus_paritySticky, .btSceneStatus_cutting, .fpPortStatus_bpActive,
          .fpPortStatus_exceededSticky, .ptMacThresh_exceededSticky, .swPortStatus_downBp, .swPortStatus_xoff,
          .swStatus_globalXoff, .tmDieStatus_capOverflowSticky]) none d (Dev.spillRelease d) := by
  unfold Dev.spillRelease
  try dsimp -proj only
  repeat' first
    | exact rfl
    | with_reducible first
        | exact .refl _ | apply Only.step (Dev.beginCut_only ..) | apply Only.step (Dev.irq_only ..)
        | apply Only.step (Dev.raise_only ..)
    | split

theorem Dev.spillTest_only (d : Dev) :
    Only [.boot, .bkts, .obs, .tm, .net, .fw, .plc] (some [.aeFaultLast_addr, .aeFaultLast_cause, .aeFaultLast_prog,
          .aeStatus_faultSticky, .aeStatus_paritySticky, .btSceneStatus_cutting, .btSceneStatus_spillSticky,
          .fpPortStatus_bpActive, .fpPortStatus_exceededSticky, .fpPortStatus_up, .fwStatus_fillSticky,
          .imWriteCtl_abort, .imWriteCtl_start, .imWriteStatus_code, .imWriteStatus_state,
          .ptMacThresh_exceededSticky, .swPortStatus_discarding, .swPortStatus_downBp, .swPortStatus_holding,
          .swPortStatus_xoff, .swStatus_globalXoff, .tmDieStatus_capOverflowSticky]) none d (Dev.spillTest d) := by
  unfold Dev.spillTest
  try dsimp -proj only
  repeat' first
    | exact rfl
    | with_reducible first
        | exact .refl _ | apply Only.step (Dev.askSpill_only ..) | apply Only.step (Dev.spillCut_only ..)
    | split

theorem Dev.startLoop_only (d : Dev) (q : Nat) (wait : Bool) (x3 : Nat) :
    Only [.bkts, .obs, .tm, .net, .fw, .plc] (some [.fpPortStatus_exceededSticky, .fwStatus_paritySticky,
          .ptMacThresh_exceededSticky, .swPortStatus_downBp, .swPortStatus_xoff, .swStatus_globalXoff,
          .tmDieStatus_capOverflowSticky]) none d (Dev.startLoop d q wait x3) := by
  fun_induction Dev.startLoop d q wait x3
  all_goals repeat' first
    | exact rfl
    | with_reducible first
        | exact .refl _ | apply Only.step (by assumption) | apply Only.step (Dev.beginCopy_only ..)
        | apply Only.step (Dev.gateOversize_only ..) | apply Only.step (Dev.setCopy_only ..)
        | apply Only.step (Dev.setTx_only ..) | apply Only.step (Dev.stat_only ..)

theorem Dev.summary_only (d : Dev) (r : Nat) (c : Coalesced) :
    Only [.bkts, .obs] (some []) (some []) d (Dev.summary d r c) := by
  unfold Dev.summary
  split
  · exact .refl _
  · extract_lets x e y0 y d1
    have h1 : Only [.bkts, .obs] (some []) (some []) d d1 :=
      .step (Dev.pushRec_only ..) rfl rfl rfl (.step (Dev.setBucket_only ..) rfl rfl rfl
        (Only.evWide' (x := .obRaised) (by simp) (.step (Dev.setRing_only ..) rfl rfl rfl (.refl _)) ..))
    refine .step (Dev.counted_only ..) rfl rfl rfl ?_
    split
    · exact .step (Dev.withOut_only ..) rfl rfl rfl h1
    · exact h1

theorem Dev.sweep_only (d : Dev) (n : Nat) (i : Nat) :
    Only [.bkts, .obs, .net, .fw] (some [.fwStatus_fillSticky]) (some [.fwAged]) d (Dev.sweep d n i) := by
  unfold Dev.sweep
  try dsimp -proj only
  repeat' first
    | exact rfl
    | with_reducible first
        | exact .refl _ | apply Only.step (Dev.bump_only ..) | apply Only.step (Dev.delEnt_only ..)
        | apply Only.step (Dev.fillTest_only ..) | apply Only.step (Dev.putEnt_only ..)
        | apply Only.step (Dev.setFw_only ..)
    | split

theorem Dev.taCode_only (d : Dev) (code : Nat) :
    Only [] (some [.tmTaStatus_code]) (some []) d (Dev.taCode d code) := by
  unfold Dev.taCode
  try dsimp -proj only
  repeat' first
    | exact rfl
    | with_reducible first
        | exact .refl _ | apply Only.step (Dev.setCd_only ..)

theorem Dev.taArm_only (d : Dev) (kind : Nat) :
    Only [.tm] (some [.tmTaStatus_code, .tmTaStatus_index]) (some []) d (Dev.taArm d kind) := by
  unfold Dev.taArm
  try dsimp -proj only
  repeat' first
    | exact rfl
    | with_reducible first
        | exact .refl _ | apply Only.step (Dev.bookTimer_only ..) | apply Only.step (Dev.setCd_only ..)
        | apply Only.step (Dev.taCode_only ..)
    | split

theorem Dev.taCancel_only (d : Dev) (i : Nat) :
    Only [.tm] (some [.tmTaStatus_code, .tmTaStatus_index]) (some []) d (Dev.taCancel d i) := by
  unfold Dev.taCancel
  try dsimp -proj only
  repeat' first
    | exact rfl
    | with_reducible first
        | exact .refl _ | apply Only.step (Dev.dropTimer_only ..) | apply Only.step (Dev.setCd_only ..)
        | apply Only.step (Dev.taCode_only ..)
    | split

theorem Dev.takePfc_only (d : Dev) (f : Frame) :
    Only [.net] (some []) (some [.obStat]) d (Dev.takePfc d f) := by
  unfold Dev.takePfc
  try dsimp -proj only
  repeat' first
    | exact rfl
    | with_reducible first
        | exact .refl _ | apply Only.step (Dev.dropFrame_only ..) | apply Only.step (Dev.setTx_only ..)
        | apply Only.step (Dev.stat_only ..)

theorem Dev.tailEnd_only (d : Dev) (p : Nat) (rest : List Byte) (fcsOk : Bool) (octets : Bool) (codeErr : Bool)
      (falseCarrier : Bool) (read : List BadWord) :
    Only [.bkts, .obs, .tm, .net, .fw, .plc] (some [.aeFaultLast_addr, .aeFaultLast_cause, .aeFaultLast_prog,
          .aeStatus_faultSticky, .aeStatus_paritySticky, .aeStatus_rateSticky, .clInspectStatus_scanWaitSticky,
          .clInspectStatus_treeParitySticky, .clPipeStatus_paritySticky, .clPipeStatus_rateSticky,
          .fpPortStatus_bpActive, .fpPortStatus_exceededSticky, .psPortStatus_exceededSticky,
          .psPortStatus_lastReason, .psPortStatus_malformedSticky, .psStatus_graphParitySticky,
          .psStatus_noSessionSticky, .ptMacThresh_exceededSticky, .swPortStatus_downBp, .swPortStatus_xoff,
          .swStatus_globalXoff, .tmDieStatus_capOverflowSticky]) none d (Dev.tailEnd d p rest fcsOk octets codeErr
          falseCarrier read) := by
  unfold Dev.tailEnd
  try dsimp -proj only
  repeat' first
    | exact rfl
    | with_reducible first
        | exact .refl _ | apply Only.step (Dev.accept_only ..) | apply Only.step (Dev.countTail_only ..)
        | apply Only.step (Dev.macDrop_only ..) | apply Only.step (Dev.macDropFrame_only ..)
        | apply Only.step (Dev.takePfc_only ..)
    | split

theorem Dev.takeBeat_only (d : Dev) (b : Beat) :
    Only [.duo] (some [.duStatus_peerRole, .duStatus_peerSeesClaim]) (some []) d (Dev.takeBeat d b) := by
  unfold Dev.takeBeat
  try dsimp -proj only
  repeat' first
    | exact rfl
    | with_reducible first
        | exact .refl _ | apply Only.step (Dev.setCd_only ..) | apply Only.step (Dev.setDuo_only ..)

theorem Dev.takeOn_only (d : Dev) (n : Nat) (t : Nat) :
    Only [.bkts, .tak] (some []) (some []) d (Dev.takeOn d n t) := by
  unfold Dev.takeOn
  try simp -proj -zeta only [Dev.mk_tak]
  try dsimp -proj only
  repeat' first
    | exact rfl
    | with_reducible first
        | exact .refl _ | apply Only.step (Dev.cutBuckets_only ..) | apply Only.step (Dev.withTak_only ..)

theorem Dev.takeSwitch_only (d : Dev) (n : Nat) :
    Only [.bkts, .tm, .tak, .plc] (some [.clInspectUse_nodePct]) (some [.tkSwitchTime]) d (Dev.takeSwitch d n) := by
  unfold Dev.takeSwitch
  try dsimp -proj only
  repeat' first
    | exact rfl
    | with_reducible first
        | exact .refl _ | apply Only.step (Dev.takeOn_only ..) | apply Only.step (Dev.takeSwitched_only ..)
    | split

theorem Dev.tickBuckets_only (d : Dev) (n : Nat) :
    Only [.bkts] (some []) (some []) d (Dev.tickBuckets d n) := by
  unfold Dev.tickBuckets
  try simp -proj -zeta only [Dev.mk_bkts]
  try dsimp -proj only
  repeat' first
    | exact rfl
    | with_reducible first
        | exact .refl _ | apply Only.step (Dev.withBkts_only ..)

theorem Dev.tickPmc_only (d : Dev) (n : Nat) :
    Only [.bkts, .obs] (some []) (some []) d (Dev.tickPmc d n) := by
  unfold Dev.tickPmc
  try dsimp -proj only
  repeat' first
    | exact rfl
    | with_reducible first
        | exact .refl _ | apply Only.step (Dev.pmc_only ..) | refine .foldl _ ?_ _ ?_
    | (intro _ _; try dsimp -proj only) | split

theorem Dev.tick_only (d : Dev) (n : Nat) :
    Only [.bkts, .obs, .tm] (some []) (some [.obCycles]) d (Dev.tick d n) := by
  unfold Dev.tick
  try dsimp -proj only
  repeat' first
    | exact rfl
    | with_reducible first
        | exact .refl _ | apply Only.step (Dev.bump_only ..) | apply Only.step (Dev.setIsl_only ..)
        | apply Only.step (Dev.tickBuckets_only ..) | apply Only.step (Dev.tickPmc_only ..)
    | split

theorem Dev.tkAbort_only (d : Dev) :
    Only [.bkts, .obs, .tm, .fw, .tak, .plc] (some [.tkCtl_commit, .tkStatus_batchOpen, .tkStatus_code,
          .tkStatus_late]) (some []) d (Dev.tkAbort d) := by
  unfold Dev.tkAbort
  try dsimp -proj only
  repeat' first
    | exact rfl
    | with_reducible first
        | exact .refl _ | apply Only.step (Dev.dropCommit_only ..) | apply Only.step (Dev.endBatch_only ..)
        | apply Only.step (Dev.giveUp_only ..) | apply Only.step (Dev.raise_only ..)
        | apply Only.step (Dev.tkCode_only ..) | refine .foldl _ ?_ _ ?_
    | (intro _ _; try dsimp -proj only) | split

end Sys2Proof.Machine
end

