-- ==== Sys2Proof/Laws/Frame5.lean ====
section
/-! SUPPORT. What the operations on the device may change, part 5: one lemma for each operation, the operations it rests on first. -/

namespace Sys2Proof.Machine

theorem Dev.tkCommit_only (d : Dev) :
    Only [.tm, .tak] (some [.tkCtl_commit, .tkStatus_batchOpen, .tkStatus_code, .tkStatus_late]) (some []) d
          (Dev.tkCommit d) := by
  unfold Dev.tkCommit
  try simp -proj -zeta only [Dev.mk_tak]
  try dsimp -proj only
  repeat' first
    | exact rfl
    | with_reducible first
        | exact .refl _ | apply Only.step (Dev.activate_only ..) | apply Only.step (Dev.bookTimer_only ..)
        | apply Only.step (Dev.setCd_only ..) | apply Only.step (Dev.tkCode_only ..)
        | apply Only.step (Dev.withTak_only ..)
    | split

theorem Dev.tkFields_only (d : Dev) (at_ : Bool) (timeout : Nat) :
    Only [] (some [.tkCtl_at, .tkCtl_timeout]) (some []) d (Dev.tkFields d at_ timeout) := by
  unfold Dev.tkFields
  try dsimp -proj only
  repeat' first
    | exact rfl
    | with_reducible first
        | exact .refl _ | apply Only.step (Dev.setCd_only ..)

theorem Dev.tkOpen_only (d : Dev) :
    Only [] (some [.tkStatus_batchOpen, .tkStatus_code]) (some []) d (Dev.tkOpen d) := by
  unfold Dev.tkOpen
  try dsimp -proj only
  repeat' first
    | exact rfl
    | with_reducible first
        | exact .refl _ | apply Only.step (Dev.setCd_only ..) | apply Only.step (Dev.tkCode_only ..)
    | split

theorem Dev.tmCtlFields_only (d : Dev) (mode : Nat) (inEn : Bool) (width : Nat) :
    Only [] (some [.tmCtl_ppsInEn, .tmCtl_ppsOutMode, .tmCtl_ppsWidth]) (some []) d (Dev.tmCtlFields d mode inEn
          width) := by
  unfold Dev.tmCtlFields
  try dsimp -proj only
  repeat' first
    | exact rfl
    | with_reducible first
        | exact .refl _ | apply Only.step (Dev.setCd_only ..)

theorem Dev.treeNoFit_only (d : Dev) (j : TreeJob) (pct : Nat) :
    Only [.bkts, .obs, .tm, .fw, .tak, .plc] (some [.clTreeCtl_rebuild, .tkCtl_commit, .tkStatus_batchOpen,
          .tkStatus_code, .tkStatus_late]) (some []) d (Dev.treeNoFit d j pct) := by
  unfold Dev.treeNoFit
  try simp -proj -zeta only [Dev.mk_plc]
  try dsimp -proj only
  repeat' first
    | exact rfl
    | with_reducible first
        | exact .refl _ | apply Only.step (Dev.dropJobs_only ..) | apply Only.step (Dev.endFull_only ..)
        | apply Only.step (Dev.giveUp_only ..) | apply Only.step (Dev.intentStaged_only ..)
        | apply Only.step (Dev.mapJobs_only ..) | apply Only.step (Dev.withPlc_only ..) | refine .foldl _ ?_ _ ?_
    | (intro _ _; try dsimp -proj only) | split

theorem Dev.treeStaged_only (d : Dev) (n : Nat) (how : TreeEnd) (pct : Nat) :
    Only [.bkts, .obs, .tm, .net, .fw, .tak, .plc] (some [.clInspectUse_nodePct, .clTreeCtl_rebuild,
          .fwStatus_fillSticky, .plHead_head, .plStatus_failSticky, .plStatus_lastCode, .tkCtl_commit,
          .tkStatus_batchOpen, .tkStatus_code, .tkStatus_late]) (some [.fwAged, .plDoneCount, .plFailCount]) d
          (Dev.treeStaged d n how pct) := by
  unfold Dev.treeStaged
  try simp -proj -zeta only [Dev.mk_plc]
  try dsimp -proj only
  repeat' first
    | exact rfl
    | with_reducible first
        | exact .refl _ | apply Only.step (Dev.beginFull_only ..) | apply Only.step (Dev.dropJobs_only ..)
        | apply Only.step (Dev.endFull_only ..) | apply Only.step (Dev.goOn_only ..)
        | apply Only.step (Dev.setPd_only ..) | apply Only.step (Dev.settleTrees_only ..)
        | apply Only.step (Dev.treeNoFit_only ..) | apply Only.step (Dev.withPlc_only ..) | refine .foldl _ ?_ _ ?_
    | (intro _ _; try dsimp -proj only) | split

theorem Dev.txResult_only (d : Dev) (c : Nat) (status : Nat) :
    Only [.bkts, .obs] (some [.dmTxPtr_head]) (some [.dmTxDiscard]) d (Dev.txResult d c status) := by
  unfold Dev.txResult
  try simp -proj -zeta only [Dev.mk_out]
  try dsimp -proj only
  repeat' first
    | exact rfl
    | with_reducible first
        | exact .refl _ | apply Only.step (Dev.bump_only ..) | apply Only.step (Dev.irq_only ..)
        | apply Only.step (Dev.raise_only ..) | apply Only.step (Dev.setCd_only ..)
        | apply Only.step (Dev.withOut_only ..)
    | split

theorem Dev.txFrame_only (d : Dev) (c : Nat) (x : TxDesc) (data : Option (List Byte)) (slow : Nat) (read : List
      BadWord) :
    Only [.bkts, .obs, .net, .plc] (some [.aeFaultLast_addr, .aeFaultLast_cause, .aeFaultLast_prog,
          .aeStatus_faultSticky, .aeStatus_paritySticky, .aeStatus_rateSticky, .clInspectStatus_scanWaitSticky,
          .clInspectStatus_treeParitySticky, .clPipeStatus_paritySticky, .clPipeStatus_rateSticky, .dmTxPtr_head,
          .psPortStatus_exceededSticky, .psPortStatus_lastReason, .psPortStatus_malformedSticky,
          .psStatus_graphParitySticky, .psStatus_noSessionSticky, .swPortStatus_downBp, .swPortStatus_xoff,
          .swStatus_globalXoff]) none d (Dev.txFrame d c x data slow read) := by
  unfold Dev.txFrame
  try dsimp -proj only
  repeat' first
    | exact rfl
    | with_reducible first
        | exact .refl _ | apply Only.step (Dev.hostFrame_only ..) | apply Only.step (Dev.txResult_only ..)
    | split

theorem Dev.txTail_only (d : Dev) (c : Nat) (v : Nat) :
    Only [] (some [.dmTxPtr_tail]) (some []) d (Dev.txTail d c v) := by
  unfold Dev.txTail
  try dsimp -proj only
  repeat' first
    | exact rfl
    | with_reducible first
        | exact .refl _ | apply Only.step (Dev.setCd_only ..)

theorem Dev.unmask_only (d : Dev) (v : Nat) :
    Only [] (some []) (some []) d (Dev.unmask d v) := by
  unfold Dev.unmask
  split
  · exact .step (Dev.sendIrq_only ..) rfl rfl rfl (.evFld' (by simp) (.refl _) ..)
  · exact .refl _

theorem Dev.workOp_only (d : Dev) (n : Nat) (p : Nat) (e : Nat) (w : Nat) (k : Engine → Work → Work) :
    Only [.bkts, .obs, .net] (some [.aeFaultLast_addr, .aeFaultLast_cause, .aeFaultLast_prog, .aeStatus_faultSticky,
          .aeStatus_paritySticky, .obSampleStatus_fullSticky]) none d (Dev.workOp d n p e w k) := by
  unfold Dev.workOp
  try dsimp -proj only
  repeat' first
    | exact rfl
    | with_reducible first
        | exact .refl _ | refine Dev.issue_only _ _ _ _ _ _ ?_ ?_ ?_ | refine Eff.only.go ?_
    | (intro _ _; try dsimp -proj only)

theorem Dev.writeAdj_only (d : Dev) (v : Nat) :
    Only [.bkts, .obs, .tm] (some [.tmStatus_steerIgnoredSticky, .tmStatus_stepPending]) (some [.tmAdj]) d
          (Dev.writeAdj d v) := by
  unfold Dev.writeAdj
  try dsimp -proj only
  repeat' first
    | exact rfl
    | with_reducible first
        | exact .refl _ | apply Only.step (Dev.pendStep_only ..) | apply Only.step (Dev.setWide_only ..)
        | refine Dev.steer_only _ _ ?_ ?_ ?_ ?_ ?_

theorem Dev.writeCell_only (d : Dev) (f : Frame) :
    Only [.bkts, .obs, .net] (some [.swPortStatus_downBp, .swPortStatus_overrunSticky, .swPortStatus_xoff,
          .swStatus_bufFullSticky, .swStatus_globalXoff, .swStatus_overrunSticky]) none d (Dev.writeCell d f) := by
  unfold Dev.writeCell
  try dsimp -proj only
  repeat' first
    | exact rfl
    | with_reducible first
        | exact .refl _ | apply Only.step (Dev.cellTest_only ..) | apply Only.step (Dev.notAdmitted_only ..)
        | apply Only.step (Dev.pmc_only ..) | apply Only.step (Dev.raiseOnce_only ..)
        | apply Only.step (Dev.setFrame_only ..) | apply Only.step (Dev.setPd_only ..)
    | split

theorem Dev.writeInc_only (d : Dev) (v : Nat) :
    Only [.bkts, .obs, .tm] (some [.tmStatus_incPending, .tmStatus_steerIgnoredSticky]) (some [.tmInc]) d
          (Dev.writeInc d v) := by
  unfold Dev.writeInc
  try simp -proj -zeta only [Dev.mk_tm]
  try dsimp -proj only
  repeat' first
    | exact rfl
    | with_reducible first
        | exact .refl _ | apply Only.step (Dev.setCd_only ..) | apply Only.step (Dev.setWide_only ..)
        | refine Dev.steer_only _ _ ?_ ?_ ?_ ?_ ?_ | apply Only.step (Dev.withTm_only ..)

theorem Dev.writePlCtl_only (d : Dev) (enable : Bool) (log2 : Nat) :
    Only [] (some [.plCtl_enable, .plCtl_ringLog2]) (some []) d (Dev.writePlCtl d enable log2) := by
  unfold Dev.writePlCtl
  try dsimp -proj only
  repeat' first
    | exact rfl
    | with_reducible first
        | exact .refl _ | apply Only.step (Dev.setCd_only ..)
    | split

theorem Dev.writeSet_only (d : Dev) (v : Nat) :
    Only [.bkts, .obs, .tm] (some [.tmStatus_steerIgnoredSticky, .tmStatus_stepPending]) (some [.tmSet]) d
          (Dev.writeSet d v) := by
  unfold Dev.writeSet
  try dsimp -proj only
  repeat' first
    | exact rfl
    | with_reducible first
        | exact .refl _ | apply Only.step (Dev.pendStep_only ..) | apply Only.step (Dev.setWide_only ..)
        | refine Dev.steer_only _ _ ?_ ?_ ?_ ?_ ?_

theorem Dev.writeTail_only (d : Dev) (v : Nat) :
    Only [.bkts, .obs] (some [.plStatus_tailErrSticky, .plTail_tail]) (some []) d (Dev.writeTail d v) := by
  unfold Dev.writeTail
  try dsimp -proj only
  repeat' first
    | exact rfl
    | with_reducible first
        | exact .refl _ | apply Only.step (Dev.raise_only ..) | apply Only.step (Dev.setCd_only ..)
    | split

theorem effChecksum_only (mode : Nat) (k : Nat) (d : Dev) (g : Engine) (f : Frame) :
    Eff.only [] (some []) (some []) d (effChecksum mode k d g f) := by
  unfold effChecksum
  try dsimp -proj only
  repeat' first
    | with_reducible first
        | refine Eff.only.go ?_ | exact .refl _
    | trivial | split

theorem effCount_only (ra : Fin 16) (slot : Nat) (d : Dev) (g : Engine) (f : Frame) :
    Eff.only [.plc] (some []) (some []) d (effCount ra slot d g f) := by
  unfold effCount
  try dsimp -proj only
  repeat' first
    | with_reducible first
        | refine Eff.only.go ?_ | exact .refl _ | apply Only.step (Dev.countBlock_only ..)
    | trivial | split

theorem effDelete_only (base : Nat) (rb : Nat) (n : Nat) (off : Nat) (d : Dev) (g : Engine) (f : Frame) :
    Eff.only [] (some []) (some []) d (effDelete base rb n off d g f) := by
  unfold effDelete
  try dsimp -proj only
  repeat' first
    | with_reducible first
        | refine Eff.only.go ?_ | exact .refl _
    | trivial | split

theorem effGroup_only (slot : Nat) (d : Dev) (g : Engine) (f : Frame) :
    Eff.only [] (some []) (some []) d (effGroup slot d g f) := by
  unfold effGroup
  try dsimp -proj only
  repeat' first
    | with_reducible first
        | refine Eff.only.go ?_ | exact .refl _
    | trivial | split

theorem effInsert_only (rs : Fin 16) (base : Nat) (rb : Nat) (size : Nat) (off : Nat) (d : Dev) (g : Engine) (f :
      Frame) :
    Eff.only [] (some []) (some []) d (effInsert rs base rb size off d g f) := by
  unfold effInsert
  try dsimp -proj only
  repeat' first
    | with_reducible first
        | refine Eff.only.go ?_ | exact .refl _
    | trivial | split

theorem effLoad_only (rd : Fin 16) (base : Nat) (rb : Nat) (size : Nat) (off : Nat) (d : Dev) (g : Engine) (f : Frame) :
    Eff.only [] (some []) (some []) d (effLoad rd base rb size off d g f) := by
  unfold effLoad
  try dsimp -proj only
  repeat' first
    | with_reducible first
        | refine Eff.only.go ?_ | exact .refl _
    | trivial | split

theorem effMeter_only (rd : Fin 16) (slot : Nat) (d : Dev) (g : Engine) (f : Frame) :
    Eff.only [.bkts, .plc] (some []) (some []) d (effMeter rd slot d g f) := by
  unfold effMeter
  try simp -proj -zeta only [Dev.mk_plc]
  try dsimp -proj only
  repeat' first
    | with_reducible first
        | refine Eff.only.go ?_ | exact .refl _ | apply Only.step (Dev.mark_only ..)
        | apply Only.step (Dev.withPlc_only ..)
    | trivial | split

theorem effMirror_only (slot : Nat) (d : Dev) (g : Engine) (f : Frame) :
    Eff.only [] (some []) (some [.aeMirrorExcess]) d (effMirror slot d g f) := by
  unfold effMirror
  try dsimp -proj only
  repeat' first
    | with_reducible first
        | refine Eff.only.go ?_ | exact .refl _ | apply Only.step (Dev.bump_only ..)
    | trivial | split

theorem effRedir_only (port : Nat) (d : Dev) (g : Engine) (f : Frame) :
    Eff.only [] (some []) (some []) d (effRedir port d g f) := by
  unfold effRedir
  try dsimp -proj only
  repeat' first
    | with_reducible first
        | refine Eff.only.go ?_ | exact .refl _
    | trivial | split

theorem effRtag_only (mode : Nat) (i : Nat) (d : Dev) (g : Engine) (f : Frame) :
    Eff.only [] (some []) (some []) d (effRtag mode i d g f) := by
  unfold effRtag
  try dsimp -proj only
  repeat' first
    | with_reducible first
        | refine Eff.only.go ?_ | exact .refl _
    | trivial | split

theorem effStore_only (rs : Fin 16) (base : Nat) (rb : Nat) (size : Nat) (off : Nat) (d : Dev) (g : Engine) (f :
      Frame) :
    Eff.only [] (some []) (some []) d (effStore rs base rb size off d g f) := by
  unfold effStore
  try dsimp -proj only
  repeat' first
    | with_reducible first
        | refine Eff.only.go ?_ | exact .refl _
    | trivial | split

end Sys2Proof.Machine
end

