-- ==== Sys2Proof/Laws/FrameCommands.lean ====
section
/-! SUPPORT. What the commands may change: one lemma for each meaning that keeps some of the device. -/

namespace Sys2Proof.Machine

/-- A command answers a next state, of whose device no other parts, fields and wide values have changed. -/
def outOnly (ps : List Part) (fs : Option (List Fld)) (xs : Option (List Wide)) (s : State)
    (x : Host.Outcome State Fault Refusal) : Prop := ∃ t, x = .next t ∧ Only ps fs xs s.dev t.dev

theorem outOnly.next {ps fs xs} {s t : State} (h : Only ps fs xs s.dev t.dev) : outOnly ps fs xs s (.next t) :=
  ⟨t, rfl, h⟩
theorem State.mk_dev (a : List Instr) (b : Flash) (c : Otp) (d : Dev) : (State.mk a b c d).dev = d := rfl
theorem Dev.quiet_only (d : Dev) : Only [] (some []) (some []) d d.quiet :=
  ⟨fun p _ => by cases p <;> rfl, fun _ _ _ _ _ _ _ _ => rfl, fun _ _ _ _ _ _ _ _ => rfl⟩

theorem Only.wk {ps qs fs gs xs ys} {d u : Dev} (k : Only qs gs ys d u) (hp : qs.all ps.contains = true)
    (hf : within gs fs = true) (hx : within ys xs = true) : Only ps fs xs d u := .step k hp hf hx (.refl _)

theorem onDev_only {ps fs xs} {f : Dev → Dev} (s : State) (h : ∀ d, Only ps fs xs d (f d)) : outOnly ps fs xs s (onDev
      f s) :=
  .next <| (h s.dev.quiet).step (by simp) (by cases fs <;> simp [within]) (by cases xs <;> simp [within])
    (.wk (Dev.quiet_only _) rfl (by cases fs <;> rfl) (by cases xs <;> rfl))
theorem onHost_only {ps fs xs} {f : Dev → Dev} (s : State) (h : ∀ d, Only ps fs xs d (f d)) :
    outOnly ps fs xs s (onHost f s) := by
  refine onDev_only s fun d => ?_
  split
  · exact h d
  · exact .refl _
theorem onReg_only {ps fs xs} {f : Dev → Dev} (w : Nat) (r : Reg) (i j data : Nat) (s : State)
    (hp : [.errlog, .bkts, .obs].all ps.contains = true)
    (hf : within (some [.hiErrlogStatus_overflowSticky]) fs = true) (hx : within (some [.hiErrDropped]) xs = true)
    (h : ∀ d, Only ps fs xs d (f d)) : outOnly ps fs xs s (onReg w r i j data f s) :=
  onHost_only s fun d => Dev.regWrite_only _ _ _ _ hp hf hx (.refl _) (h d)
theorem onWord_only {ps fs xs} {f : Dev → Dev} (w : Nat) (r : Reg) (i j data : Nat) (s : State)
    (hp : [.errlog, .bkts, .obs].all ps.contains = true) (hs : [Part.safe, .bkts, .obs].all ps.contains = true)
    (hf : within (some [.hiErrlogStatus_overflowSticky]) fs = true) (hx : within (some [.hiErrDropped]) xs = true)
    (h : ∀ d, Only ps fs xs d (f d)) : outOnly ps fs xs s (onWord w r i j data f s) :=
  onReg_only w r i j data s hp hf hx fun d =>
    (h _).step (by simp) (by cases fs <;> simp [within]) (by cases xs <;> simp [within])
      (.wk (Dev.leaveSafe_only d r w i j) hs (by cases fs <;> rfl) (by cases xs <;> rfl))

theorem Eff.only.wk {ps qs fs gs xs ys} {d : Dev} {x : Eff} (k : x.only qs gs ys d) (hp : qs.all ps.contains = true)
    (hf : within gs fs = true) (hx : within ys xs = true) : x.only ps fs xs d := by
  cases x with
  | go t g f => exact Only.wk (show Only qs gs ys d t from k) hp hf hx
  | _ => trivial

theorem State.startBoot_only (s : State) (straps : BitVec 8) :
    Only [.sup, .boot, .bkts, .obs] (some [.btResetCause_cause, .btStraps_bootHold, .btStraps_duoEn,
          .btStraps_istoreSize, .btStraps_pcieRev, .btStraps_spare, .btStraps_spillEn, .btStraps_unit, .duStatus_duo,
          .duStatus_role, .duStatus_unit, .imBootStatus_aResult, .imBootStatus_bResult, .scOtpStatus_advancesLeft,
          .scOtpStatus_broken, .scOtpStatus_patchLevel, .scOtpStatus_patchesLeft, .scOtpStatus_programmed,
          .scOtpStatus_revoked]) (some [.scKeyHash, .scRollback]) s.dev (State.startBoot s straps).dev := by
  unfold State.startBoot
  try simp -proj -zeta only [Dev.mk_sup_boot]
  repeat' first
    | exact rfl
    | with_reducible first
        | exact .refl _ | apply Only.step (Dev.raise_only ..) | apply Only.step (Dev.setCd_only ..)
        | apply Only.step (Dev.showOtp_only ..) | apply Only.step (Dev.withBoot_only ..)
        | apply Only.step (Dev.withSup_only ..) | refine .foldl _ ?_ _ ?_
    | (intro _ _; try dsimp -proj only)

theorem State.readBanks_only (s : State) :
    Only [.boot] (some [.btSceneStatus_phase]) (some []) s.dev (State.readBanks s).dev := by
  unfold State.readBanks
  repeat' first
    | exact rfl
    | with_reducible first
        | exact .refl _ | apply Only.step (Dev.setBoot_only ..) | apply Only.step (Dev.setCd_only ..)

theorem State.bankFails_only (s : State) (x : Bank) (read : Bool) (code : Nat) :
    Only [.boot, .bkts, .obs, .net] (some [.btSceneStatus_phase, .imBootSeq_seq, .imBootStatus_aResult,
          .imBootStatus_bResult, .imBootStatus_bank, .imWriteStatus_target]) (some []) s.dev (State.bankFails s x read
          code).dev := by
  unfold State.bankFails
  try simp -proj -zeta only [Dev.mk_net]
  try dsimp -proj only
  repeat' first
    | exact rfl
    | with_reducible first
        | exact .refl _ | apply Only.step (Dev.chooseFactory_only ..) | apply Only.step (Dev.raise_only ..)
        | apply Only.step (Dev.setBoot_only ..) | apply Only.step (Dev.setResult_only ..)
        | apply Only.step (Dev.withNet_only ..)
    | split

theorem State.bankDone_only (s : State) (read : Bool) :
    Only [.boot, .bkts, .obs, .net] (some [.btSceneStatus_phase, .imBootSeq_seq, .imBootStatus_aResult,
          .imBootStatus_bResult, .imBootStatus_bank, .imWriteStatus_target]) (some []) s.dev (State.bankDone s
          read).dev := by
  unfold State.bankDone
  try dsimp -proj only
  repeat' first
    | exact rfl
    | with_reducible first
        | exact .refl _ | apply Only.step (State.bankFails_only ..) | apply Only.step (Dev.choose__only ..)
        | apply Only.step (Dev.raise_only ..) | apply Only.step (Dev.setCd_only ..)
        | apply Only.step (Dev.setResult_only ..)
    | split

theorem State.continue__only (s : State) :
    Only [.boot] (some [.btBootCtl_continue, .btSceneStatus_phase]) (some []) s.dev (State.continue_ s).dev := by
  unfold State.continue_
  try dsimp -proj only
  repeat' first
    | exact rfl
    | with_reducible first
        | exact .refl _ | apply Only.step (State.readBanks_only ..) | apply Only.step (Dev.setCd_only ..)
    | split

theorem State.imageOp_only (s : State) (w : ImgWrite) (r : FlashEnd) :
    Only [.boot, .bkts, .obs] (some [.imWriteCtl_abort, .imWriteCtl_start, .imWriteStatus_code,
          .imWriteStatus_progress, .imWriteStatus_state]) (some []) s.dev (State.imageOp s w r).dev := by
  unfold State.imageOp
  try dsimp -proj only
  repeat' first
    | exact rfl
    | with_reducible first
        | exact .refl _ | assumption | apply Only.step (Dev.imageDone_only ..)
        | apply Only.step (Dev.imageFailed_only ..) | apply Only.step (Dev.imageState_only ..)
        | apply Only.step (Dev.imageStop_only ..) | apply Only.step (Dev.setCd_only ..) | refine .foldl _ ?_ _ ?_
    | (intro _ _; try dsimp -proj only)
    | with_reducible first
        | apply Only.step (Dev.quiet_only ..)
    | (intro _; try dsimp -proj only) | trivial | (dsimp -proj only) | (simp -proj only [State.mk_dev]) | split | simp

theorem State.flashOp_only (s : State) (r : FlashEnd) :
    Only [.boot, .bkts, .obs] (some [.imWriteCtl_abort, .imWriteCtl_start, .imWriteStatus_code,
          .imWriteStatus_progress, .imWriteStatus_state]) (some []) s.dev (State.flashOp s r).dev := by
  unfold State.flashOp
  try dsimp -proj only
  repeat' first
    | exact rfl
    | with_reducible first
        | exact .refl _ | apply Only.step (State.imageOp_only ..) | apply Only.step (Dev.setBoot_only ..)
    | split

theorem State.imageStart_only (s : State) (i : Image) (readable : Bool) :
    Only [.boot, .bkts, .obs] (some [.imWriteCtl_abort, .imWriteCtl_start, .imWriteStatus_code,
          .imWriteStatus_progress, .imWriteStatus_state]) (some []) s.dev (State.imageStart s i readable).dev := by
  unfold State.imageStart
  try dsimp -proj only
  repeat' first
    | exact rfl
    | with_reducible first
        | exact .refl _ | apply Only.step (Dev.imageFailed_only ..) | apply Only.step (Dev.imageState_only ..)
        | apply Only.step (Dev.raise_only ..) | apply Only.step (Dev.setBoot_only ..)
        | apply Only.step (Dev.setCd_only ..)
    | split

theorem State.scDone_only (s : State) (r : ScRun) (otpOk : Bool) :
    Only [.bkts, .obs, .net, .sec] (some [.scCmd_start, .scOtpStatus_advancesLeft, .scOtpStatus_broken,
          .scOtpStatus_patchesLeft, .scOtpStatus_programmed, .scOtpStatus_revoked, .scStatus_code, .scStatus_state])
          (some [.scChallenge, .scKeyHash, .scRefused, .scRollback]) s.dev (State.scDone s r otpOk).dev := by
  unfold State.scDone
  try simp -proj -zeta only [Dev.mk_net]
  repeat' first
    | exact rfl
    | with_reducible first
        | exact .refl _ | apply Only.step (Dev.raise_only ..) | apply Only.step (Dev.scEffect_only ..)
        | apply Only.step (Dev.scEnd_only ..) | apply Only.step (Dev.scRefuse_only ..)
        | apply Only.step (Dev.showOtp_only ..) | apply Only.step (Dev.withNet_only ..)
    | split

theorem execDmDescFetchDone_only (k : Fin 16) (desc : List Byte) (s : State) :
    outOnly [.bkts, .obs, .dma] (some [.dmChCtl_abort, .dmChCtl_start, .dmChStatus_code, .dmChStatus_overlap,
          .dmChStatus_retries, .dmChStatus_state]) (some []) s (execDmDescFetchDone k desc s) := by
  unfold execDmDescFetchDone
  repeat' first
    | exact rfl
    | with_reducible first
        | exact .refl _ | refine onDev_only _ ?_ | apply Only.step (Dev.chFetched_only ..)
        | apply Only.step (Dev.chRetried_only ..)
    | (intro _; try dsimp -proj only) | split

theorem execStaticEntryRewrite_only (n : Die) (i : Nat) (s : State) :
    outOnly [.net] (some []) (some []) s (execStaticEntryRewrite n i s) := by
  unfold execStaticEntryRewrite
  try simp -proj -zeta only [Dev.mk_net]
  repeat' first
    | exact rfl
    | with_reducible first
        | exact .refl _ | refine onDev_only _ ?_ | apply Only.step (Dev.withNet_only ..)
    | (intro _; try dsimp -proj only) | split

theorem execCount_only (n : Die) (p : Fin 4) (e : Fin 16) (ra : Fin 16) (slot : BitVec 12) (s : State) :
    outOnly [.bkts, .obs, .net, .plc] (some [.aeFaultLast_addr, .aeFaultLast_cause, .aeFaultLast_prog,
          .aeStatus_faultSticky, .aeStatus_paritySticky, .obSampleStatus_fullSticky]) none s (execCount n p e ra slot
          s) := by
  unfold execCount
  repeat' first
    | exact rfl
    | with_reducible first
        | refine onDev_only _ ?_ | apply Eff.only.wk (effCount_only ..) | refine Dev.issue_only _ _ _ _ _ _ ?_ ?_ ?_
        | refine Eff.only.go ?_
    | (intro _; try dsimp -proj only)

theorem execThermAlertAssert_only (temp : BitVec 8) (hottest : Fin 8) (s : State) :
    outOnly [.bkts, .obs] (some [.dvTherm_alertActive, .dvTherm_alertSticky, .dvTherm_hottest, .dvTherm_temp]) (some
          []) s (execThermAlertAssert temp hottest s) := by
  unfold execThermAlertAssert
  repeat' first
    | exact rfl
    | with_reducible first
        | exact .refl _ | refine onDev_only _ ?_ | apply Only.step (Dev.irq_only ..)
        | apply Only.step (Dev.measure_only ..) | apply Only.step (Dev.raise_only ..)
        | apply Only.step (Dev.setCd_only ..)
    | (intro _; try dsimp -proj only) | split

theorem execThermAlertRelease_only (temp : BitVec 8) (hottest : Fin 8) (s : State) :
    outOnly [.bkts, .obs] (some [.dvTherm_alertActive, .dvTherm_hottest, .dvTherm_temp]) (some []) s
          (execThermAlertRelease temp hottest s) := by
  unfold execThermAlertRelease
  repeat' first
    | exact rfl
    | with_reducible first
        | exact .refl _ | refine onDev_only _ ?_ | apply Only.step (Dev.measure_only ..)
        | apply Only.step (Dev.raise_only ..) | apply Only.step (Dev.setCd_only ..)
    | (intro _; try dsimp -proj only) | split

theorem execDrop_only (n : Die) (p : Fin 4) (e : Fin 16) (s : State) :
    outOnly [.bkts, .obs, .net] (some [.aeFaultLast_addr, .aeFaultLast_cause, .aeFaultLast_prog,
          .aeStatus_faultSticky, .aeStatus_paritySticky, .obSampleStatus_fullSticky]) none s (execDrop n p e s) :=
  onDev_only s fun _ => Dev.workOp_only ..

theorem execErrlogClear_only (s : State) :
    outOnly [.errlog, .bkts, .obs] (some [.hiErrlogStatus_overflowSticky]) (some [.hiErrDropped]) s (execErrlogClear
          s) := by
  unfold execErrlogClear
  try simp -proj -zeta only [Dev.mk_errlog]
  repeat' first
    | exact rfl
    | with_reducible first
        | exact .refl _ | refine onReg_only _ _ _ _ _ _ ?_ ?_ ?_ ?_ | apply Only.step (Dev.withErrlog_only ..)
    | (intro _; try dsimp -proj only)

theorem execScRequestDone_only (otpOk : Bool) (s : State) :
    outOnly [.bkts, .obs, .net, .sec] (some [.scCmd_start, .scOtpStatus_advancesLeft, .scOtpStatus_broken,
          .scOtpStatus_patchesLeft, .scOtpStatus_programmed, .scOtpStatus_revoked, .scStatus_code, .scStatus_state])
          (some [.scChallenge, .scKeyHash, .scRefused, .scRollback]) s (execScRequestDone otpOk s) := by
  unfold execScRequestDone
  try dsimp -proj only
  repeat' first
    | exact rfl
    | with_reducible first
        | exact .refl _ | apply Only.step (State.scDone_only ..) | refine outOnly.next ?_
        | apply Only.step (Dev.quiet_only ..)
    | split

theorem execRomPhaseComplete_only (sfdp : Option Bool) (readA : Bool) (readB : Bool) (s : State) :
    outOnly [.boot, .bkts, .obs] (some [.btSceneStatus_phase]) (some []) s (execRomPhaseComplete sfdp readA readB s)
          := by
  unfold execRomPhaseComplete
  try dsimp -proj only
  repeat' first
    | exact rfl
    | with_reducible first
        | exact .refl _ | apply Only.step (State.readBanks_only ..) | refine outOnly.next ?_
        | apply Only.step (Dev.raise_only ..) | apply Only.step (Dev.setBoot_only ..)
        | apply Only.step (Dev.setCd_only ..) | apply Only.step (Dev.quiet_only ..)
    | split

theorem execSpillTest_only (s : State) :
    outOnly [.boot, .errlog, .bkts, .obs, .tm, .net, .fw, .plc] (some [.aeFaultLast_addr, .aeFaultLast_cause,
          .aeFaultLast_prog, .aeStatus_faultSticky, .aeStatus_paritySticky, .btSceneStatus_cutting,
          .btSceneStatus_spillSticky, .fpPortStatus_bpActive, .fpPortStatus_exceededSticky, .fpPortStatus_up,
          .fwStatus_fillSticky, .hiErrlogStatus_overflowSticky, .imWriteCtl_abort, .imWriteCtl_start,
          .imWriteStatus_code, .imWriteStatus_state, .ptMacThresh_exceededSticky, .swPortStatus_discarding,
          .swPortStatus_downBp, .swPortStatus_holding, .swPortStatus_xoff, .swStatus_globalXoff,
          .tmDieStatus_capOverflowSticky]) none s (execSpillTest s) :=
  onReg_only _ _ _ _ _ s rfl rfl rfl fun _ => .wk (Dev.spillTest_only ..) rfl rfl rfl

theorem execIntentBind_only (desc : List Byte) (payload : Option (List Byte)) (s : State) :
    outOnly [.bkts, .obs, .tm, .net, .fw, .tak, .plc] (some [.fwStatus_fillSticky, .plHead_head, .plStatus_failSticky,
          .plStatus_lastCode, .tkCtl_commit, .tkStatus_batchOpen, .tkStatus_code, .tkStatus_late]) (some [.fwAged,
          .plDoneCount, .plFailCount]) s (execIntentBind desc payload s) :=
  onDev_only s fun _ => Dev.runDesc_only ..

theorem execVaux33Apply_only (s : State) :
    outOnly [.sup] (some []) (some []) s (execVaux33Apply s) := by
  unfold execVaux33Apply
  try simp -proj -zeta only [Dev.mk_sup]
  repeat' first
    | exact rfl
    | with_reducible first
        | exact .refl _ | refine onDev_only _ ?_ | apply Only.step (Dev.withSup_only ..)
    | (intro _; try dsimp -proj only)

theorem execGateConfigChange_only (q : LinePort) (s : State) :
    outOnly [.errlog, .bkts, .obs, .tm, .net] (some [.egGateStatus_code, .hiErrlogStatus_overflowSticky]) (some
          [.egGateChange, .hiErrDropped]) s (execGateConfigChange q s) :=
  onReg_only _ _ _ _ _ s rfl rfl rfl fun _ => .wk (Dev.gateChange_only ..) rfl rfl rfl

theorem execScQuote_only (nonce : Option (BitVec 512)) (s : State) :
    outOnly [.errlog, .bkts, .obs, .sec] (some [.hiErrlogStatus_overflowSticky, .scCmd_op, .scCmd_start,
          .scStatus_busySticky, .scStatus_state]) (some [.hiErrDropped]) s (execScQuote nonce s) := by
  unfold execScQuote scReq
  repeat' first
    | exact rfl
    | with_reducible first
        | exact .refl _ | refine onReg_only _ _ _ _ _ _ ?_ ?_ ?_ ?_ | apply Only.step (Dev.scQuote_only ..)
    | (intro _; try dsimp -proj only)

theorem execDuRelease_only (s : State) :
    outOnly [.errlog, .bkts, .obs, .tm, .net, .plc, .duo] (some [.duCtl_claim, .duStatus_role,
          .hiErrlogStatus_overflowSticky, .swPortStatus_downBp, .swPortStatus_xoff, .swStatus_globalXoff,
          .tmDieStatus_capOverflowSticky]) none s (execDuRelease s) :=
  onReg_only _ _ _ _ _ s rfl rfl rfl fun _ => .wk (Dev.duRelease_only ..) rfl rfl rfl

theorem execScReadSlate_only (s : State) :
    outOnly [.errlog, .bkts, .obs, .sec] (some [.hiErrlogStatus_overflowSticky, .scCmd_op, .scCmd_start,
          .scStatus_busySticky, .scStatus_state]) (some [.hiErrDropped]) s (execScReadSlate s) := by
  unfold execScReadSlate scReq
  repeat' first
    | exact rfl
    | with_reducible first
        | exact .refl _ | refine onReg_only _ _ _ _ _ _ ?_ ?_ ?_ ?_ | apply Only.step (Dev.scSlate_only ..)
    | (intro _; try dsimp -proj only)

theorem execGroup_only (n : Die) (p : Fin 4) (e : Fin 16) (slot : BitVec 12) (s : State) :
    outOnly [.bkts, .obs, .net] (some [.aeFaultLast_addr, .aeFaultLast_cause, .aeFaultLast_prog,
          .aeStatus_faultSticky, .aeStatus_paritySticky, .obSampleStatus_fullSticky]) none s (execGroup n p e slot s)
          := by
  unfold execGroup
  repeat' first
    | exact rfl
    | with_reducible first
        | refine onDev_only _ ?_ | apply Eff.only.wk (effGroup_only ..) | refine Dev.issue_only _ _ _ _ _ _ ?_ ?_ ?_
        | refine Eff.only.go ?_
    | (intro _; try dsimp -proj only)

theorem execPpsInEdge_only (s : State) :
    outOnly [.tm] (some [.tmStatus_stepPending]) (some [.tmPpsInCount, .tmPpsInIgnored, .tmPpsInStamp]) s
          (execPpsInEdge s) :=
  onDev_only s fun _ => Dev.ppsEdge_only ..

theorem execLaneCalibrationDone_only (a : Die) (b : Die) (k : Fin 48) (marginA : Byte) (marginB : Byte) (s : State) :
    outOnly [.bkts, .obs, .net, .fab] (some [.fbLaneCtl_calibrate, .fbLaneStatus_lastCause, .fbLaneStatus_removals,
          .fbLaneStatus_state, .fbLaneStatus_txIdle, .fbLinkStatus_belowMinSticky, .lnTestStatus_code,
          .lnTestStatus_margin, .lnTestStatus_state]) (some [.lnBitErrors, .lnBits, .lnSyncErrors]) s
          (execLaneCalibrationDone a b k marginA marginB s) := by
  unfold execLaneCalibrationDone
  repeat' first
    | exact rfl
    | with_reducible first
        | exact .refl _ | refine onDev_only _ ?_ | apply Only.step (Dev.laneLost_only ..)
        | apply Only.step (Dev.pairTo_only ..) | apply Only.step (Dev.setPd_only ..)
    | (intro _; try dsimp -proj only) | split

theorem execTakeRetire_only (t : Fin 16) (s : State) :
    outOnly [.bkts, .obs, .tm, .net, .fw, .tak, .plc] (some [.tkCtl_commit, .tkStatus_batchOpen, .tkStatus_code,
          .tkStatus_late]) (some []) s (execTakeRetire t s) :=
  onDev_only s fun _ => Dev.retire_only ..

theorem execPfcHeld100ms_only (p : Port) (c : Tc) (s : State) :
    outOnly [.bkts, .obs, .net] (some []) (some []) s (execPfcHeld100ms p c s) := by
  unfold execPfcHeld100ms
  repeat' first
    | exact rfl
    | with_reducible first
        | exact .refl _ | refine onDev_only _ ?_ | apply Only.step (Dev.raise_only ..)
        | apply Only.step (Dev.setTx_only ..)
    | (intro _; try dsimp -proj only) | split

theorem execTmAdjWrite_only (v : BitVec 64) (s : State) :
    outOnly [.bkts, .obs, .tm] (some [.tmStatus_steerIgnoredSticky, .tmStatus_stepPending]) (some [.tmAdj]) s
          (execTmAdjWrite v s) :=
  onHost_only s fun _ => .wk (Dev.writeAdj_only ..) rfl rfl rfl

theorem execLaneParkWindow_only (a : Die) (b : Die) (s : State) :
    outOnly [.fab] (some [.fbLaneStatus_txIdle]) (some []) s (execLaneParkWindow a b s) := by
  unfold execLaneParkWindow
  repeat' first
    | exact rfl
    | with_reducible first
        | exact .refl _ | refine onDev_only _ ?_ | apply Only.step (Dev.parkWindow_only ..)
    | (intro _; try dsimp -proj only) | split

theorem execHeadScan_only (n : Die) (s : State) :
    outOnly [.bkts, .obs, .tm, .net, .plc] (some [.swPortStatus_downBp, .swPortStatus_xoff, .swStatus_globalXoff,
          .tmDieStatus_capOverflowSticky]) none s (execHeadScan n s) := by
  unfold execHeadScan
  repeat' first
    | exact rfl
    | with_reducible first
        | exact .refl _ | refine onDev_only _ ?_ | apply Only.step (Dev.ageCheck_only ..) | refine .foldl _ ?_ _ ?_
    | (intro _; try dsimp -proj only) | split

theorem execLaneQualifyDone_only (a : Die) (b : Die) (k : Fin 48) (marginA : Byte) (marginB : Byte) (blockError :
      Bool) (s : State) :
    outOnly [.bkts, .obs, .net, .fab] (some [.fbLaneCtl_calibrate, .fbLaneStatus_lastCause, .fbLaneStatus_removals,
          .fbLaneStatus_state, .fbLaneStatus_txIdle, .fbLinkStatus_belowMinSticky, .lnTestStatus_baseline,
          .lnTestStatus_code, .lnTestStatus_margin, .lnTestStatus_state]) (some [.lnBitErrors, .lnBits,
          .lnSyncErrors]) s (execLaneQualifyDone a b k marginA marginB blockError s) := by
  unfold execLaneQualifyDone
  repeat' first
    | exact rfl
    | with_reducible first
        | exact .refl _ | refine onDev_only _ ?_ | apply Only.step (Dev.enterService_only ..)
        | apply Only.step (Dev.laneLost_only ..)
    | (intro _; try dsimp -proj only) | split

theorem execCksum_only (n : Die) (p : Fin 4) (e : Fin 16) (mode : Fin 2) (k : Fin 16) (s : State) :
    outOnly [.bkts, .obs, .net] (some [.aeFaultLast_addr, .aeFaultLast_cause, .aeFaultLast_prog,
          .aeStatus_faultSticky, .aeStatus_paritySticky, .obSampleStatus_fullSticky]) none s (execCksum n p e mode k
          s) := by
  unfold execCksum
  repeat' first
    | exact rfl
    | with_reducible first
        | refine onDev_only _ ?_ | apply Eff.only.wk (effChecksum_only ..)
        | refine Dev.issue_only _ _ _ _ _ _ ?_ ?_ ?_ | refine Eff.only.go ?_
    | (intro _; try dsimp -proj only)

theorem execSummaryRaise_only (r : Isl) (s : State) :
    outOnly [.bkts, .obs] (some []) (some []) s (execSummaryRaise r s) := by
  unfold execSummaryRaise
  repeat' first
    | exact rfl
    | with_reducible first
        | exact .refl _ | refine onDev_only _ ?_ | apply Only.step (Dev.summary_only ..) | refine .foldl _ ?_ _ ?_
    | (intro _; try dsimp -proj only) | split

theorem execExt_only (n : Die) (p : Fin 4) (e : Fin 16) (rd : Fin 16) (ra : Fin 16) (pos : BitVec 5) (len1 : BitVec 5)
      (s : State) :
    outOnly [.bkts, .obs, .net] (some [.aeFaultLast_addr, .aeFaultLast_cause, .aeFaultLast_prog,
          .aeStatus_faultSticky, .aeStatus_paritySticky, .obSampleStatus_fullSticky]) none s (execExt n p e rd ra pos
          len1 s) :=
  onDev_only s fun _ => Dev.alu_only ..

theorem execHoldoffExpire_only (p : LinePort) (cause : Fin 9) (s : State) :
    outOnly [.bkts, .obs, .tm, .net, .fw, .plc] (some [.aeFaultLast_addr, .aeFaultLast_cause, .aeFaultLast_prog,
          .aeStatus_faultSticky, .aeStatus_paritySticky, .fpPortStatus_bpActive, .fpPortStatus_exceededSticky,
          .fwStatus_fillSticky, .ptMacThresh_exceededSticky, .ptPortStatus_downCount, .ptPortStatus_lastCause,
          .ptPortStatus_state, .swPortStatus_discarding, .swPortStatus_downBp, .swPortStatus_holding,
          .swPortStatus_xoff, .swStatus_globalXoff, .tmDieStatus_capOverflowSticky]) none s (execHoldoffExpire p cause
          s) := by
  unfold execHoldoffExpire
  repeat' first
    | exact rfl
    | with_reducible first
        | exact .refl _ | refine onDev_only _ ?_ | apply Only.step (Dev.linkCause_only ..)
    | (intro _; try dsimp -proj only) | split

theorem execShri_only (n : Die) (p : Fin 4) (e : Fin 16) (rd : Fin 16) (ra : Fin 16) (imm : BitVec 5) (s : State) :
    outOnly [.bkts, .obs, .net] (some [.aeFaultLast_addr, .aeFaultLast_cause, .aeFaultLast_prog,
          .aeStatus_faultSticky, .aeStatus_paritySticky, .obSampleStatus_fullSticky]) none s (execShri n p e rd ra imm
          s) :=
  onDev_only s fun _ => Dev.alu_only ..

theorem execReplicate_only (n : Die) (s : State) :
    outOnly [.bkts, .obs, .tm, .net] (some [.swPortStatus_downBp, .swPortStatus_xoff, .swStatus_globalXoff,
          .tmDieStatus_capOverflowSticky]) none s (execReplicate n s) := by
  unfold execReplicate
  repeat' first
    | exact rfl
    | with_reducible first
        | exact .refl _ | refine onDev_only _ ?_ | apply Only.step (Dev.replicateAll_only ..)
    | (intro _; try dsimp -proj only) | split

theorem execSub_only (n : Die) (p : Fin 4) (e : Fin 16) (rd : Fin 16) (ra : Fin 16) (rb : Fin 16) (s : State) :
    outOnly [.bkts, .obs, .net] (some [.aeFaultLast_addr, .aeFaultLast_cause, .aeFaultLast_prog,
          .aeStatus_faultSticky, .aeStatus_paritySticky, .obSampleStatus_fullSticky]) none s (execSub n p e rd ra rb
          s) :=
  onDev_only s fun _ => Dev.alu_only ..

theorem execSettc_only (n : Die) (p : Fin 4) (e : Fin 16) (ra : Fin 16) (reg : Bool) (tc : Tc) (s : State) :
    outOnly [.bkts, .obs, .net] (some [.aeFaultLast_addr, .aeFaultLast_cause, .aeFaultLast_prog,
          .aeStatus_faultSticky, .aeStatus_paritySticky, .obSampleStatus_fullSticky]) none s (execSettc n p e ra reg
          tc s) :=
  onDev_only s fun _ => Dev.workOp_only ..

theorem execPortFaultClear_only (p : LinePort) (s : State) :
    outOnly [] (some [.ptPortStatus_state]) (some []) s (execPortFaultClear p s) :=
  onDev_only s fun _ => Dev.linkStep_only ..

theorem execGateEnWrite_only (q : LinePort) (en : Bool) (s : State) :
    outOnly [.errlog, .bkts, .obs, .net] (some [.egGateCtl_gateEn, .egGateStatus_gates,
          .hiErrlogStatus_overflowSticky]) (some [.hiErrDropped]) s (execGateEnWrite q en s) :=
  onReg_only _ _ _ _ _ s rfl rfl rfl fun _ => .wk (Dev.gateEnable_only ..) rfl rfl rfl

theorem execHld_only (n : Die) (p : Fin 4) (e : Fin 16) (rd : Fin 16) (base : Fin 16) (rb : Fin 16) (size : Fin 3)
      (off : BitVec 9) (s : State) :
    outOnly [.bkts, .obs, .net] (some [.aeFaultLast_addr, .aeFaultLast_cause, .aeFaultLast_prog,
          .aeStatus_faultSticky, .aeStatus_paritySticky, .obSampleStatus_fullSticky]) none s (execHld n p e rd base rb
          size off s) := by
  unfold execHld
  repeat' first
    | exact rfl
    | with_reducible first
        | refine onDev_only _ ?_ | apply Eff.only.wk (effLoad_only ..) | refine Dev.issue_only _ _ _ _ _ _ ?_ ?_ ?_
        | refine Eff.only.go ?_
    | (intro _; try dsimp -proj only)

theorem execTimeMsgReceive_only (lane : Fin 4) (seq : BitVec 16) (crcOk : Bool) (t1 : BitVec 96) (echo : Option
      (BitVec 96 × BitVec 96)) (s : State) :
    outOnly [.tm, .duo] (some [.duStatus_timeLocked, .tmStatus_incPending, .tmStatus_set, .tmStatus_stepPending])
          (some [.duCtBadMsg, .duTimeOffset, .tmInc]) s (execTimeMsgReceive lane seq crcOk t1 echo s) := by
  unfold execTimeMsgReceive
  repeat' first
    | exact rfl
    | with_reducible first
        | exact .refl _ | refine onDev_only _ ?_ | assumption | refine Dev.ctTake_only _ _ _ _ _ ?_ ?_ ?_ ?_ ?_
        | apply Only.step (Dev.followTime_only ..) | apply Only.step (Dev.setDuo_only ..)
    | (intro _; try dsimp -proj only) | split

theorem execShli_only (n : Die) (p : Fin 4) (e : Fin 16) (rd : Fin 16) (ra : Fin 16) (imm : BitVec 5) (s : State) :
    outOnly [.bkts, .obs, .net] (some [.aeFaultLast_addr, .aeFaultLast_cause, .aeFaultLast_prog,
          .aeStatus_faultSticky, .aeStatus_paritySticky, .obSampleStatus_fullSticky]) none s (execShli n p e rd ra imm
          s) :=
  onDev_only s fun _ => Dev.alu_only ..

theorem execLsFaultNRise_only (s : State) :
    outOnly [] (some [.dvLaserCtl_lsFault]) (some []) s (execLsFaultNRise s) := by
  unfold execLsFaultNRise
  repeat' first
    | exact rfl
    | with_reducible first
        | exact .refl _ | refine onDev_only _ ?_ | apply Only.step (Dev.setCd_only ..)
    | (intro _; try dsimp -proj only) | split

theorem execLaneLockLost_only (a : Die) (b : Die) (k : Fin 48) (s : State) :
    outOnly [.bkts, .obs, .net, .fab] (some [.fbLaneCtl_calibrate, .fbLaneStatus_lastCause, .fbLaneStatus_removals,
          .fbLaneStatus_state, .fbLaneStatus_txIdle, .fbLinkStatus_belowMinSticky, .lnTestStatus_code,
          .lnTestStatus_state]) (some [.lnBitErrors, .lnBits, .lnSyncErrors]) s (execLaneLockLost a b k s) := by
  unfold execLaneLockLost
  repeat' first
    | exact rfl
    | with_reducible first
        | exact .refl _ | refine onDev_only _ ?_ | apply Only.step (Dev.dropLane_only ..)
    | (intro _; try dsimp -proj only) | split

theorem execLaneExitEnd_only (a : Die) (b : Die) (k : Fin 48) (margin : Byte) (s : State) :
    outOnly [.bkts, .obs, .net] (some [.fbLaneStatus_txIdle, .fbLinkStatus_longExitSticky, .lnTestStatus_margin])
          (some [.fbLongExits]) s (execLaneExitEnd a b k margin s) := by
  unfold execLaneExitEnd
  repeat' first
    | exact rfl
    | with_reducible first
        | exact .refl _ | refine onDev_only _ ?_ | apply Only.step (Dev.bump_only ..)
        | apply Only.step (Dev.longExit_only ..) | apply Only.step (Dev.setPd_only ..)
        | apply Only.step (Dev.takeUp_only ..)
    | (intro _; try dsimp -proj only) | split

theorem execPfcRepeat_only (p : LinePort) (s : State) :
    outOnly [.net] (some []) (some [.obStat]) s (execPfcRepeat p s) := by
  unfold execPfcRepeat
  repeat' first
    | exact rfl
    | with_reducible first
        | exact .refl _ | refine onDev_only _ ?_ | apply Only.step (Dev.sendPfc_only ..)
        | apply Only.step (Dev.setTx_only ..)
    | (intro _; try dsimp -proj only) | split

theorem execPortSignalDetect_only (p : LinePort) (s : State) :
    outOnly [] (some [.ptPortStatus_state]) (some []) s (execPortSignalDetect p s) :=
  onDev_only s fun _ => Dev.linkStep_only ..

theorem execPcieD3hotExit_only (s : State) :
    outOnly [.sup] (some []) (some []) s (execPcieD3hotExit s) := by
  unfold execPcieD3hotExit
  try simp -proj -zeta only [Dev.mk_sup]
  repeat' first
    | exact rfl
    | with_reducible first
        | exact .refl _ | refine onDev_only _ ?_ | apply Only.step (Dev.unmask_only ..)
        | apply Only.step (Dev.withSup_only ..) | refine .foldl _ ?_ _ ?_
    | (intro _; try dsimp -proj only) | split

theorem execFphyIntFall_only (s : State) :
    outOnly [.sup, .bkts, .obs] (some [.fpStatus_phyInt, .fpStatus_phyIntSticky]) (some []) s (execFphyIntFall s) := by
  unfold execFphyIntFall
  repeat' first
    | exact rfl
    | with_reducible first
        | exact .refl _ | refine onDev_only _ ?_ | apply Only.step (Dev.phyIntFell_only ..)
        | apply Only.step (Dev.setPhyInt_only ..)
    | (intro _; try dsimp -proj only) | split

theorem execDmTxFrame_only (desc : List Byte) (data : Option (List Byte)) (meets : Entered) (s : State) :
    outOnly [.bkts, .obs, .net, .plc] (some [.aeFaultLast_addr, .aeFaultLast_cause, .aeFaultLast_prog,
          .aeStatus_faultSticky, .aeStatus_paritySticky, .aeStatus_rateSticky, .clInspectStatus_scanWaitSticky,
          .clInspectStatus_treeParitySticky, .clPipeStatus_paritySticky, .clPipeStatus_rateSticky, .dmTxPtr_head,
          .psPortStatus_exceededSticky, .psPortStatus_lastReason, .psPortStatus_malformedSticky,
          .psStatus_graphParitySticky, .psStatus_noSessionSticky, .swPortStatus_downBp, .swPortStatus_xoff,
          .swStatus_globalXoff]) none s (execDmTxFrame desc data meets s) := by
  unfold execDmTxFrame
  repeat' first
    | exact rfl
    | with_reducible first
        | exact .refl _ | refine onDev_only _ ?_ | apply Only.step (Dev.txFrame_only ..)
    | (intro _; try dsimp -proj only) | split

theorem execGroupUnlitTimeout_only (g : Fin 16) (power : BitVec 16) (s : State) :
    outOnly [.bkts, .obs, .tm, .net, .fw, .plc] (some [.aeFaultLast_addr, .aeFaultLast_cause, .aeFaultLast_prog,
          .aeStatus_faultSticky, .aeStatus_paritySticky, .fpPortStatus_bpActive, .fpPortStatus_exceededSticky,
          .fwStatus_fillSticky, .opFibreStatus_dark, .opFibreStatus_darkSticky, .opFibreStatus_inputPower,
          .ptMacThresh_exceededSticky, .ptPortStatus_downCount, .ptPortStatus_lastCause, .ptPortStatus_state,
          .swPortStatus_discarding, .swPortStatus_downBp, .swPortStatus_holding, .swPortStatus_xoff,
          .swStatus_globalXoff, .tmDieStatus_capOverflowSticky]) none s (execGroupUnlitTimeout g power s) := by
  unfold execGroupUnlitTimeout
  repeat' first
    | exact rfl
    | with_reducible first
        | exact .refl _ | refine onDev_only _ ?_ | apply Only.step (Dev.markDark_only ..)
        | apply Only.step (Dev.setInput_only ..)
    | (intro _; try dsimp -proj only) | split

theorem execIncidentEnd_only (r : Isl) (s : State) :
    outOnly [.bkts, .obs] (some []) (some []) s (execIncidentEnd r s) :=
  onDev_only s fun _ => Dev.incidentEnd_only ..

theorem execHeartbeatReceive_only (lane : Fin 4) (seq : BitVec 16) (crcOk : Bool) (role : Fin 5) (elig : Bool) (sees :
      Bool) (good : Bool) (cause : Fin 5) (take : Fin 16) (commits : BitVec 64) (s : State) :
    outOnly [.duo] (some [.duStatus_peerRole, .duStatus_peerSeesClaim]) (some [.duCtBadMsg]) s (execHeartbeatReceive
          lane seq crcOk role elig sees good cause take commits s) := by
  unfold execHeartbeatReceive
  repeat' first
    | exact rfl
    | with_reducible first
        | exact .refl _ | refine onDev_only _ ?_ | refine Dev.ctTake_only _ _ _ _ _ ?_ ?_ ?_ ?_ ?_
        | apply Only.step (Dev.takeBeat_only ..)
    | (intro _; try dsimp -proj only)

theorem execFpPortEnable_only (k : FieldPort) (s : State) :
    outOnly [.errlog, .bkts, .obs, .net] (some [.fpPortCtl_enable, .fpPortStatus_up, .hiErrlogStatus_overflowSticky,
          .swPortStatus_discarding, .swPortStatus_downBp, .swPortStatus_holding, .swPortStatus_xoff]) (some
          [.hiErrDropped, .swDownBp]) s (execFpPortEnable k s) :=
  onReg_only _ _ _ _ _ s rfl rfl rfl fun _ => .wk (Dev.fieldEnable_only ..) rfl rfl rfl

theorem execFlushNotice_only (n : Die) (p : Nat) (s : State) :
    outOnly [.bkts, .obs, .fw] (some [.fwStatus_fillSticky]) (some []) s (execFlushNotice n p s) :=
  onDev_only s fun _ => Dev.flushNotice_only ..

theorem execFpBpRepeat_only (k : FieldPort) (s : State) :
    outOnly [.net] (some []) (some [.obStat]) s (execFpBpRepeat k s) := by
  unfold execFpBpRepeat
  repeat' first
    | exact rfl
    | with_reducible first
        | exact .refl _ | refine onDev_only _ ?_ | apply Only.step (Dev.fpPfcDue_only ..)
        | apply Only.step (Dev.sendPfc_only ..)
    | (intro _; try dsimp -proj only) | split

theorem execHst_only (n : Die) (p : Fin 4) (e : Fin 16) (rs : Fin 16) (base : Fin 16) (rb : Fin 16) (size : Fin 3)
      (off : BitVec 9) (s : State) :
    outOnly [.bkts, .obs, .net] (some [.aeFaultLast_addr, .aeFaultLast_cause, .aeFaultLast_prog,
          .aeStatus_faultSticky, .aeStatus_paritySticky, .obSampleStatus_fullSticky]) none s (execHst n p e rs base rb
          size off s) := by
  unfold execHst
  repeat' first
    | exact rfl
    | with_reducible first
        | refine onDev_only _ ?_ | apply Eff.only.wk (effStore_only ..) | refine Dev.issue_only _ _ _ _ _ _ ?_ ?_ ?_
        | refine Eff.only.go ?_
    | (intro _; try dsimp -proj only)

theorem execScGetChallenge_only (s : State) :
    outOnly [.errlog, .bkts, .obs, .net, .sec] (some [.hiErrlogStatus_overflowSticky, .scCmd_op, .scCmd_start,
          .scStatus_busySticky, .scStatus_state]) (some [.hiErrDropped, .scChallenge]) s (execScGetChallenge s) := by
  unfold execScGetChallenge scReq
  repeat' first
    | exact rfl
    | with_reducible first
        | exact .refl _ | refine onReg_only _ _ _ _ _ _ ?_ ?_ ?_ ?_ | apply Only.step (Dev.scGet_only ..)
    | (intro _; try dsimp -proj only)

theorem execMirrorDeferRelease_only (n : Die) (m : Fin 16) (s : State) :
    outOnly [.bkts, .obs, .tm, .net] (some [.swPortStatus_downBp, .swPortStatus_xoff, .swStatus_globalXoff,
          .tmDieStatus_capOverflowSticky]) none s (execMirrorDeferRelease n m s) :=
  onDev_only s fun _ => Dev.releaseDeferred_only ..

theorem execCellTime_only (n : Die) (s : State) :
    outOnly [.bkts, .obs, .tm, .net, .plc, .fab] (some [.fbLaneStatus_txIdle, .swPortStatus_downBp,
          .swPortStatus_xoff, .swStatus_globalXoff, .tmDieStatus_capOverflowSticky]) none s (execCellTime n s) := by
  unfold execCellTime
  repeat' first
    | exact rfl
    | with_reducible first
        | exact .refl _ | refine onDev_only _ ?_ | apply Only.step (Dev.cellTime_only ..)
    | (intro _; try dsimp -proj only) | split

theorem execLnTestStop_only (l : LaneId) (bits errors syncs : Counts) (s : State) :
    outOnly [.errlog, .bkts, .obs, .net, .fab] (some [.fbLaneStatus_lastCause, .fbLaneStatus_removals,
          .fbLaneStatus_state, .fbLaneStatus_txIdle, .fbLinkStatus_belowMinSticky, .hiErrlogStatus_overflowSticky,
          .lnTestStatus_code, .lnTestStatus_state]) (some [.hiErrDropped, .lnBitErrors, .lnBits, .lnSyncErrors]) s
          (execLnTestStop l bits errors syncs s) := by
  unfold execLnTestStop
  repeat' first
    | exact rfl
    | with_reducible first
        | exact .refl _ | refine onReg_only _ _ _ _ _ _ ?_ ?_ ?_ ?_ | apply Only.step (Dev.lnCounts_only ..)
        | apply Only.step (Dev.lnFinish_only ..)
    | (intro _; try dsimp -proj only) | split

theorem execTmSetWrite_only (v : BitVec 64) (s : State) :
    outOnly [.bkts, .obs, .tm] (some [.tmStatus_steerIgnoredSticky, .tmStatus_stepPending]) (some [.tmSet]) s
          (execTmSetWrite v s) :=
  onHost_only s fun _ => .wk (Dev.writeSet_only ..) rfl rfl rfl

theorem execMemoryScrubPass_only (n : Die) (found : List BadWord) (s : State) :
    outOnly [.bkts, .obs, .net] (some [.aeStatus_paritySticky, .clInspectStatus_treeParitySticky,
          .clPipeStatus_paritySticky]) (some []) s (execMemoryScrubPass n found s) := by
  unfold execMemoryScrubPass
  repeat' first
    | exact rfl
    | with_reducible first
        | exact .refl _ | refine onDev_only _ ?_ | apply Only.step (Dev.scrubWord_only ..) | refine .foldl _ ?_ _ ?_
    | (intro _; try dsimp -proj only)

theorem execJtab_only (n : Die) (p : Fin 4) (e : Fin 16) (ra : Fin 16) (top : Byte) (s : State) :
    outOnly [.bkts, .obs, .net] (some [.aeFaultLast_addr, .aeFaultLast_cause, .aeFaultLast_prog,
          .aeStatus_faultSticky, .aeStatus_paritySticky, .obSampleStatus_fullSticky]) none s (execJtab n p e ra top s)
          := by
  unfold execJtab
  repeat' first
    | exact rfl
    | with_reducible first
        | exact .refl _ | refine onDev_only _ ?_ | refine Dev.issue_only _ _ _ _ _ _ ?_ ?_ ?_ | refine Eff.only.go ?_
    | (intro _; try dsimp -proj only)

theorem execPorstNRelease_only (straps : BitVec 8) (s : State) :
    outOnly [.sup, .boot, .bkts, .obs] (some [.btResetCause_cause, .btStraps_bootHold, .btStraps_duoEn,
          .btStraps_istoreSize, .btStraps_pcieRev, .btStraps_spare, .btStraps_spillEn, .btStraps_unit, .duStatus_duo,
          .duStatus_role, .duStatus_unit, .imBootStatus_aResult, .imBootStatus_bResult, .scOtpStatus_advancesLeft,
          .scOtpStatus_broken, .scOtpStatus_patchLevel, .scOtpStatus_patchesLeft, .scOtpStatus_programmed,
          .scOtpStatus_revoked]) (some [.scKeyHash, .scRollback]) s (execPorstNRelease straps s) := by
  unfold execPorstNRelease
  try simp -proj -zeta only [Dev.mk_sup]
  try dsimp -proj only
  repeat' first
    | exact rfl
    | with_reducible first
        | exact .refl _ | apply Only.step (State.startBoot_only ..) | refine outOnly.next ?_
        | apply Only.step (Dev.withSup_only ..) | apply Only.step (Dev.quiet_only ..)
    | split

theorem execDmRetry_only (k : Fin 16) (s : State) :
    outOnly [.dma] (some []) (some []) s (execDmRetry k s) :=
  onDev_only s fun _ => Dev.chRetry_only ..

theorem execMeter_only (n : Die) (p : Fin 4) (e : Fin 16) (rd : Fin 16) (slot : BitVec 12) (s : State) :
    outOnly [.bkts, .obs, .net, .plc] (some [.aeFaultLast_addr, .aeFaultLast_cause, .aeFaultLast_prog,
          .aeStatus_faultSticky, .aeStatus_paritySticky, .obSampleStatus_fullSticky]) none s (execMeter n p e rd slot
          s) := by
  unfold execMeter
  repeat' first
    | exact rfl
    | with_reducible first
        | refine onDev_only _ ?_ | apply Eff.only.wk (effMeter_only ..) | refine Dev.issue_only _ _ _ _ _ _ ?_ ?_ ?_
        | refine Eff.only.go ?_
    | (intro _; try dsimp -proj only)

theorem execUpDebounceExpire_only (p : LinePort) (s : State) :
    outOnly [.bkts, .obs, .net, .fab] (some [.duStatus_role, .ptPortStatus_state, .swPortStatus_discarding,
          .swPortStatus_downBp, .swPortStatus_holding, .swPortStatus_xoff]) (some [.swDownBp]) s (execUpDebounceExpire
          p s) := by
  unfold execUpDebounceExpire
  repeat' first
    | exact rfl
    | with_reducible first
        | exact .refl _ | refine onDev_only _ ?_ | apply Only.step (Dev.enterUp_only ..)
    | (intro _; try dsimp -proj only) | split

theorem execRecordDeliver_only (s : State) :
    outOnly [.obs] (some [.obDWptr_wptr]) (some [.obDDelivered, .obDLateOrder]) s (execRecordDeliver s) := by
  unfold execRecordDeliver
  repeat' first
    | exact rfl
    | with_reducible first
        | exact .refl _ | refine onDev_only _ ?_ | apply Only.step (Dev.deliver_only ..)
    | (intro _; try dsimp -proj only) | split

theorem execTmIncWrite_only (v : BitVec 40) (s : State) :
    outOnly [.bkts, .obs, .tm] (some [.tmStatus_incPending, .tmStatus_steerIgnoredSticky]) (some [.tmInc]) s
          (execTmIncWrite v s) :=
  onHost_only s fun _ => .wk (Dev.writeInc_only ..) rfl rfl rfl

theorem execAnd_only (n : Die) (p : Fin 4) (e : Fin 16) (rd : Fin 16) (ra : Fin 16) (rb : Fin 16) (s : State) :
    outOnly [.bkts, .obs, .net] (some [.aeFaultLast_addr, .aeFaultLast_cause, .aeFaultLast_prog,
          .aeStatus_faultSticky, .aeStatus_paritySticky, .obSampleStatus_fullSticky]) none s (execAnd n p e rd ra rb
          s) :=
  onDev_only s fun _ => Dev.alu_only ..

theorem execPfcTransmit_only (p : Port) (s : State) :
    outOnly [.net] (some []) (some [.obStat]) s (execPfcTransmit p s) :=
  onDev_only s fun _ => Dev.sendPfc_only ..

theorem execScKeyCommand_only (k : Option (List Byte)) (s : State) :
    outOnly [.errlog, .bkts, .obs, .sec] (some [.hiErrlogStatus_overflowSticky, .scCmd_op, .scCmd_start,
          .scStatus_busySticky, .scStatus_state]) (some [.hiErrDropped, .scChallenge]) s (execScKeyCommand k s) := by
  unfold execScKeyCommand scReq
  repeat' first
    | exact rfl
    | with_reducible first
        | exact .refl _ | refine onReg_only _ _ _ _ _ _ ?_ ?_ ?_ ?_ | apply Only.step (Dev.scKey_only ..)
    | (intro _; try dsimp -proj only)

theorem execTohost_only (n : Die) (p : Fin 4) (e : Fin 16) (copy : Bool) (code : Byte) (s : State) :
    outOnly [.bkts, .obs, .net] (some [.aeFaultLast_addr, .aeFaultLast_cause, .aeFaultLast_prog,
          .aeStatus_faultSticky, .aeStatus_paritySticky, .obSampleStatus_fullSticky]) none s (execTohost n p e copy
          code s) :=
  onDev_only s fun _ => Dev.workOp_only ..

theorem execDownCause_only (p : LinePort) (cause : Fin 9) (s : State) :
    outOnly [.bkts, .obs, .tm, .net, .fw, .plc] (some [.aeFaultLast_addr, .aeFaultLast_cause, .aeFaultLast_prog,
          .aeStatus_faultSticky, .aeStatus_paritySticky, .fpPortStatus_bpActive, .fpPortStatus_exceededSticky,
          .fwStatus_fillSticky, .ptMacThresh_exceededSticky, .ptPortStatus_downCount, .ptPortStatus_lastCause,
          .ptPortStatus_state, .swPortStatus_discarding, .swPortStatus_downBp, .swPortStatus_holding,
          .swPortStatus_xoff, .swStatus_globalXoff, .tmDieStatus_capOverflowSticky]) none s (execDownCause p cause s)
          := by
  unfold execDownCause
  repeat' first
    | exact rfl
    | with_reducible first
        | exact .refl _ | refine onDev_only _ ?_ | apply Only.step (Dev.downCause_only ..)
    | (intro _; try dsimp -proj only) | split

theorem execTaArm_only (index : BitVec 8) (kind : Fin 16) (s : State) :
    outOnly [.safe, .errlog, .bkts, .obs, .tm] (some [.hiErrlogStatus_overflowSticky, .tmTaCtl_index, .tmTaCtl_kind,
          .tmTaStatus_code, .tmTaStatus_index]) (some [.hiErrDropped]) s (execTaArm index kind s) := by
  unfold execTaArm
  repeat' first
    | exact rfl
    | with_reducible first
        | exact .refl _ | refine onWord_only _ _ _ _ _ _ ?_ ?_ ?_ ?_ ?_ | apply Only.step (Dev.setCd_only ..)
        | apply Only.step (Dev.taArm_only ..)
    | (intro _; try dsimp -proj only)

theorem execIntentWhere_only (desc : List Byte) (readable : Bool) (payload : List Byte) (s : State) :
    outOnly [.bkts, .obs, .tm, .net, .fw, .tak, .plc] (some [.fwStatus_fillSticky, .plHead_head, .plStatus_failSticky,
          .plStatus_lastCode, .tkCtl_commit, .tkStatus_batchOpen, .tkStatus_code, .tkStatus_late]) (some [.fwAged,
          .plDoneCount, .plFailCount]) s (execIntentWhere desc readable payload s) :=
  onDev_only s fun _ => Dev.runDesc_only ..

theorem execVin12Rise_only (s : State) :
    outOnly [.sup] (some []) (some []) s (execVin12Rise s) := by
  unfold execVin12Rise
  try simp -proj -zeta only [Dev.mk_sup]
  repeat' first
    | exact rfl
    | with_reducible first
        | exact .refl _ | refine onDev_only _ ?_ | apply Only.step (Dev.withSup_only ..)
    | (intro _; try dsimp -proj only)

theorem execDeferralAgeScan_only (n : Die) (s : State) :
    outOnly [.bkts, .obs, .tm, .net, .plc] (some [.swPortStatus_downBp, .swPortStatus_xoff, .swStatus_globalXoff,
          .tmDieStatus_capOverflowSticky]) (some [.miCounters, .swDownBp, .tmCapOverflow]) s (execDeferralAgeScan n s)
          := by
  unfold execDeferralAgeScan
  repeat' first
    | exact rfl
    | with_reducible first
        | exact .refl _ | refine onDev_only _ ?_ | apply Only.step (Dev.ageDeferred_only ..) | refine .foldl _ ?_ _ ?_
    | (intro _; try dsimp -proj only)

theorem execCommitSeal_only (s : State) :
    outOnly [.fw, .tak, .plc, .duo] (some []) (some [.duCommitCount, .fwEvict]) s (execCommitSeal s) := by
  unfold execCommitSeal
  repeat' first
    | exact rfl
    | with_reducible first
        | exact .refl _ | refine onDev_only _ ?_ | apply Only.step (Dev.sealCommit_only ..)
    | (intro _; try dsimp -proj only) | split

theorem execOpticalPowerCalibration_only (slot : LinePort) (tx : BitVec 16) (rx : BitVec 16) (s : State) :
    outOnly [] (some [.opLanePower_rxPower, .opLanePower_txPower]) (some []) s (execOpticalPowerCalibration slot tx rx
          s) := by
  unfold execOpticalPowerCalibration
  repeat' first
    | exact rfl
    | with_reducible first
        | exact .refl _ | refine onDev_only _ ?_ | apply Only.step (Dev.setFld_only ..)
    | (intro _; try dsimp -proj only) | split

theorem execAndi_only (n : Die) (p : Fin 4) (e : Fin 16) (rd : Fin 16) (ra : Fin 16) (imm : BitVec 18) (s : State) :
    outOnly [.bkts, .obs, .net] (some [.aeFaultLast_addr, .aeFaultLast_cause, .aeFaultLast_prog,
          .aeStatus_faultSticky, .aeStatus_paritySticky, .obSampleStatus_fullSticky]) none s (execAndi n p e rd ra imm
          s) :=
  onDev_only s fun _ => Dev.alu_only ..

theorem execObDRptrWrite_only (v : BitVec 20) (s : State) :
    outOnly [.safe, .errlog, .bkts, .obs] (some [.hiErrlogStatus_overflowSticky, .obDRptr_rptr]) (some
          [.hiErrDropped]) s (execObDRptrWrite v s) :=
  onWord_only _ _ _ _ _ s rfl rfl rfl rfl fun _ => .wk (Dev.setCd_only ..) rfl rfl rfl

theorem execDriftCheck_only (n : Isl) (ms : List (Nat × Nat × Byte)) (s : State) :
    outOnly [.bkts, .obs, .fab] (some [.fbLaneStatus_state, .fbLinkStatus_belowMinSticky, .lnTestStatus_baseline,
          .lnTestStatus_margin]) (some []) s (execDriftCheck n ms s) := by
  unfold execDriftCheck
  repeat' first
    | exact rfl
    | with_reducible first
        | exact .refl _ | refine onDev_only _ ?_ | apply Only.step (Dev.driftFabric_only ..)
        | apply Only.step (Dev.driftOther_only ..) | refine .foldl _ ?_ _ ?_
    | (intro _; try dsimp -proj only) | split

theorem execPorstNGlitch_only (ns : BitVec 32) (s : State) :
    outOnly [.bkts, .obs] (some []) (some []) s (execPorstNGlitch ns s) := by
  unfold execPorstNGlitch
  repeat' first
    | exact rfl
    | with_reducible first
        | exact .refl _ | refine onDev_only _ ?_ | apply Only.step (Dev.raise_only ..)
    | (intro _; try dsimp -proj only) | split

theorem execStreamReset_only (n : Die) (id : Nat) (s : State) :
    outOnly [.bkts, .obs, .fw] (some []) (some []) s (execStreamReset n id s) := by
  unfold execStreamReset
  repeat' first
    | exact rfl
    | with_reducible first
        | exact .refl _ | refine onDev_only _ ?_ | apply Only.step (Dev.raise_only ..)
        | apply Only.step (Dev.setFw_only ..)
    | (intro _; try dsimp -proj only) | split

theorem execShr_only (n : Die) (p : Fin 4) (e : Fin 16) (rd : Fin 16) (ra : Fin 16) (rb : Fin 16) (s : State) :
    outOnly [.bkts, .obs, .net] (some [.aeFaultLast_addr, .aeFaultLast_cause, .aeFaultLast_prog,
          .aeStatus_faultSticky, .aeStatus_paritySticky, .obSampleStatus_fullSticky]) none s (execShr n p e rd ra rb
          s) :=
  onDev_only s fun _ => Dev.alu_only ..

theorem execDmRxTailWrite_only (tail : BitVec 12) (s : State) :
    outOnly [.safe, .errlog, .bkts, .obs] (some [.dmRxPtr_tail, .hiErrlogStatus_overflowSticky]) (some
          [.hiErrDropped]) s (execDmRxTailWrite tail s) :=
  onWord_only _ _ _ _ _ s rfl rfl rfl rfl fun _ => .wk (Dev.rxTail_only ..) rfl rfl rfl

theorem execClapperMissed_only (n : Die) (s : State) :
    outOnly [.bkts, .obs] (some [.tmDieStatus_aligned, .tmDieStatus_missed, .tmStatus_aligned]) (some []) s
          (execClapperMissed n s) :=
  onDev_only s fun _ => Dev.clapMissed_only ..

theorem execLaserPoll_only (ackW : Bool) (ackE : Bool) (s : State) :
    outOnly [.bkts, .obs, .net] (some []) (some []) s (execLaserPoll ackW ackE s) := by
  unfold execLaserPoll
  repeat' first
    | exact rfl
    | with_reducible first
        | exact .refl _ | refine onDev_only _ ?_ | apply Only.step (Dev.i2cPoll_only ..)
        | apply Only.step (Dev.pollSource_only ..) | refine .foldl _ ?_ _ ?_
    | (intro _; try dsimp -proj only) | split

theorem execPerstNAssert_only (s : State) :
    outOnly [.sup, .dma] none none s (execPerstNAssert s) :=
  onDev_only s fun _ => Dev.perst_only ..

theorem execBne_only (n : Die) (p : Fin 4) (e : Fin 16) (ra : Fin 16) (rb : Fin 16) (off : BitVec 14) (s : State) :
    outOnly [.bkts, .obs, .net] (some [.aeFaultLast_addr, .aeFaultLast_cause, .aeFaultLast_prog,
          .aeStatus_faultSticky, .aeStatus_paritySticky, .obSampleStatus_fullSticky]) none s (execBne n p e ra rb off
          s) :=
  onDev_only s fun _ => Dev.branch_only ..

theorem execDmAbort_only (k : Fin 16) (irq : Bool) (limit : Fin 8) (s : State) :
    outOnly [.safe, .errlog, .bkts, .obs, .dma] (some [.dmChCtl_abort, .dmChCtl_irq, .dmChCtl_retryLimit,
          .dmChCtl_start, .dmChIndex2_i2, .dmChIndex_i0, .dmChIndex_i1, .dmChStatus_code, .dmChStatus_state,
          .hiErrlogStatus_overflowSticky]) (some [.hiErrDropped]) s (execDmAbort k irq limit s) := by
  unfold execDmAbort
  repeat' first
    | exact rfl
    | with_reducible first
        | exact .refl _ | refine onWord_only _ _ _ _ _ _ ?_ ?_ ?_ ?_ ?_ | apply Only.step (Dev.chAbort_only ..)
        | apply Only.step (Dev.chFields_only ..)
    | (intro _; try dsimp -proj only)

theorem execPpsOutSecond_only (s : State) :
    outOnly [.tm] (some []) (some []) s (execPpsOutSecond s) := by
  unfold execPpsOutSecond
  repeat' first
    | exact rfl
    | with_reducible first
        | exact .refl _ | refine onDev_only _ ?_ | apply Only.step (Dev.ppsSecond_only ..)
    | (intro _; try dsimp -proj only) | split

theorem execBge_only (n : Die) (p : Fin 4) (e : Fin 16) (ra : Fin 16) (rb : Fin 16) (off : BitVec 14) (s : State) :
    outOnly [.bkts, .obs, .net] (some [.aeFaultLast_addr, .aeFaultLast_cause, .aeFaultLast_prog,
          .aeStatus_faultSticky, .aeStatus_paritySticky, .obSampleStatus_fullSticky]) none s (execBge n p e ra rb off
          s) :=
  onDev_only s fun _ => Dev.branch_only ..

theorem execLnTestDurationEnd_only (l : LaneId) (bits errors syncs : Counts) (s : State) :
    outOnly [.bkts, .obs, .net, .fab] (some [.fbLaneStatus_lastCause, .fbLaneStatus_removals, .fbLaneStatus_state,
          .fbLaneStatus_txIdle, .fbLinkStatus_belowMinSticky, .lnTestStatus_code, .lnTestStatus_state]) (some
          [.lnBitErrors, .lnBits, .lnSyncErrors]) s (execLnTestDurationEnd l bits errors syncs s) := by
  unfold execLnTestDurationEnd
  repeat' first
    | exact rfl
    | with_reducible first
        | exact .refl _ | refine onDev_only _ ?_ | apply Only.step (Dev.lnCounts_only ..)
        | apply Only.step (Dev.lnFinish_only ..)
    | (intro _; try dsimp -proj only) | split

theorem execDownCauseClear_only (p : LinePort) (s : State) :
    outOnly [.bkts, .obs, .tm, .net, .fw, .plc] (some [.aeFaultLast_addr, .aeFaultLast_cause, .aeFaultLast_prog,
          .aeStatus_faultSticky, .aeStatus_paritySticky, .fpPortStatus_bpActive, .fpPortStatus_exceededSticky,
          .fwStatus_fillSticky, .ptMacThresh_exceededSticky, .ptPortStatus_downCount, .ptPortStatus_lastCause,
          .ptPortStatus_state, .swPortStatus_discarding, .swPortStatus_downBp, .swPortStatus_holding,
          .swPortStatus_xoff, .swStatus_globalXoff, .tmDieStatus_capOverflowSticky]) none s (execDownCauseClear p s)
          := by
  unfold execDownCauseClear
  repeat' first
    | exact rfl
    | with_reducible first
        | exact .refl _ | refine onDev_only _ ?_ | apply Only.step (Dev.finishDisable_only ..)
        | apply Only.step (Dev.pfcOnUp_only ..) | apply Only.step (Dev.setLink_only ..)
    | (intro _; try dsimp -proj only) | split

theorem execInitTimeout_only (s : State) :
    outOnly [.bkts, .obs] (some [.duStatus_role]) (some []) s (execInitTimeout s) := by
  unfold execInitTimeout
  repeat' first
    | exact rfl
    | with_reducible first
        | exact .refl _ | refine onDev_only _ ?_ | apply Only.step (Dev.setRole_only ..)
    | (intro _; try dsimp -proj only) | split

theorem execDuClearFault_only (s : State) :
    outOnly [.errlog, .bkts, .obs, .duo] (some [.duStatus_faultCause, .duStatus_role, .hiErrlogStatus_overflowSticky])
          (some [.hiErrDropped]) s (execDuClearFault s) :=
  onReg_only _ _ _ _ _ s rfl rfl rfl fun _ => .wk (Dev.duClear_only ..) rfl rfl rfl

theorem execChallengeExpire_only (s : State) :
    outOnly [.sec] (some []) (some [.scChallenge]) s (execChallengeExpire s) := by
  unfold execChallengeExpire
  repeat' first
    | exact rfl
    | with_reducible first
        | exact .refl _ | refine onDev_only _ ?_ | apply Only.step (Dev.endChallenge_only ..)
    | (intro _; try dsimp -proj only) | split

theorem execGateEntryAdvance_only (q : LinePort) (s : State) :
    outOnly [] (some [.egGateStatus_entry, .egGateStatus_gates]) (some []) s (execGateEntryAdvance q s) := by
  unfold execGateEntryAdvance
  repeat' first
    | exact rfl
    | with_reducible first
        | exact .refl _ | refine onDev_only _ ?_ | apply Only.step (Dev.gateShow_only ..)
    | (intro _; try dsimp -proj only) | split

theorem execDuClaim_only (s : State) :
    outOnly [.errlog, .bkts, .obs] (some [.duCtl_claim, .hiErrlogStatus_overflowSticky]) (some [.hiErrDropped]) s
          (execDuClaim s) :=
  onReg_only _ _ _ _ _ s rfl rfl rfl fun _ => .wk (Dev.duClaim_only ..) rfl rfl rfl

theorem execXori_only (n : Die) (p : Fin 4) (e : Fin 16) (rd : Fin 16) (ra : Fin 16) (imm : BitVec 18) (s : State) :
    outOnly [.bkts, .obs, .net] (some [.aeFaultLast_addr, .aeFaultLast_cause, .aeFaultLast_prog,
          .aeStatus_faultSticky, .aeStatus_paritySticky, .obSampleStatus_fullSticky]) none s (execXori n p e rd ra imm
          s) :=
  onDev_only s fun _ => Dev.alu_only ..

theorem execPortDisable_only (p : LinePort) (s : State) :
    outOnly [.errlog, .bkts, .obs, .tm, .net, .fw, .plc] (some [.aeFaultLast_addr, .aeFaultLast_cause,
          .aeFaultLast_prog, .aeStatus_faultSticky, .aeStatus_paritySticky, .fpPortStatus_bpActive,
          .fpPortStatus_exceededSticky, .fwStatus_fillSticky, .hiErrlogStatus_overflowSticky,
          .ptMacThresh_exceededSticky, .ptPortCtl_enable, .ptPortStatus_downCount, .ptPortStatus_lastCause,
          .ptPortStatus_state, .swPortStatus_discarding, .swPortStatus_downBp, .swPortStatus_holding,
          .swPortStatus_xoff, .swStatus_globalXoff, .tmDieStatus_capOverflowSticky]) none s (execPortDisable p s) :=
  onReg_only _ _ _ _ _ s rfl rfl rfl fun _ => .wk (Dev.portDisable_only ..) rfl rfl rfl

theorem execDuoEval_only (peer : Bool) (own : Bool) (s : State) :
    outOnly [.boot, .bkts, .obs, .tm, .net, .fw, .tak, .plc, .duo] (some [.duCtl_claim, .duStatus_claimGood,
          .duStatus_contentionSticky, .duStatus_faultCause, .duStatus_interlockLostSticky, .duStatus_peerClaim,
          .duStatus_role, .duStatus_splitSticky, .duStatus_takeLag, .obFatal_cause, .obFatal_fatalSticky,
          .swPortStatus_downBp, .swPortStatus_xoff, .swStatus_globalXoff, .tmDieStatus_capOverflowSticky]) none s
          (execDuoEval peer own s) :=
  onDev_only s fun _ => Dev.duoEval_only ..

theorem execPlCtlWrite_only (enable : Bool) (log2 : Fin 16) (s : State) :
    outOnly [.safe, .errlog, .bkts, .obs] (some [.hiErrlogStatus_overflowSticky, .plCtl_enable, .plCtl_ringLog2])
          (some [.hiErrDropped]) s (execPlCtlWrite enable log2 s) :=
  onWord_only _ _ _ _ _ s rfl rfl rfl rfl fun _ => .wk (Dev.writePlCtl_only ..) rfl rfl rfl

theorem execPerstNDeassert_only (s : State) :
    outOnly [.sup] (some []) (some []) s (execPerstNDeassert s) := by
  unfold execPerstNDeassert
  try simp -proj -zeta only [Dev.mk_sup]
  repeat' first
    | exact rfl
    | with_reducible first
        | exact .refl _ | refine onDev_only _ ?_ | apply Only.step (Dev.withSup_only ..)
    | (intro _; try dsimp -proj only) | split

theorem execGateListOperational_only (q : LinePort) (s : State) :
    outOnly [.bkts, .obs, .tm, .net] (some [.egGateStatus_code, .egGateStatus_entry, .egGateStatus_gates,
          .egGateStatus_operList]) (some []) s (execGateListOperational q s) := by
  unfold execGateListOperational
  repeat' first
    | exact rfl
    | with_reducible first
        | exact .refl _ | refine onDev_only _ ?_ | apply Only.step (Dev.gateOperational_only ..)
    | (intro _; try dsimp -proj only) | split

theorem execPpsWidthEnd_only (s : State) :
    outOnly [.tm] (some []) (some []) s (execPpsWidthEnd s) :=
  onDev_only s fun _ => Dev.ppsFall_only ..

theorem execTreeStageComplete_only (n : Die) (how : TreeEnd) (pct : Fin 101) (s : State) :
    outOnly [.bkts, .obs, .tm, .net, .fw, .tak, .plc] (some [.clInspectUse_nodePct, .clTreeCtl_rebuild,
          .fwStatus_fillSticky, .plHead_head, .plStatus_failSticky, .plStatus_lastCode, .tkCtl_commit,
          .tkStatus_batchOpen, .tkStatus_code, .tkStatus_late]) (some [.fwAged, .plDoneCount, .plFailCount]) s
          (execTreeStageComplete n how pct s) :=
  onDev_only s fun _ => Dev.treeStaged_only ..

theorem execReleaseMsgReceive_only (lane : Fin 4) (seq : BitVec 16) (crcOk : Bool) (s : State) :
    outOnly [.duo] (some []) (some [.duCtBadMsg]) s (execReleaseMsgReceive lane seq crcOk s) := by
  unfold execReleaseMsgReceive
  repeat' first
    | exact rfl
    | with_reducible first
        | exact .refl _ | refine onDev_only _ ?_ | refine Dev.ctTake_only _ _ _ _ _ ?_ ?_ ?_ ?_ ?_
        | apply Only.step (Dev.setDuo_only ..)
    | (intro _; try dsimp -proj only)

theorem execBeqi_only (n : Die) (p : Fin 4) (e : Fin 16) (ra : Fin 16) (imm : BitVec 14) (off : Byte) (s : State) :
    outOnly [.bkts, .obs, .net] (some [.aeFaultLast_addr, .aeFaultLast_cause, .aeFaultLast_prog,
          .aeStatus_faultSticky, .aeStatus_paritySticky, .obSampleStatus_fullSticky]) none s (execBeqi n p e ra imm
          off s) :=
  onDev_only s fun _ => Dev.branch_only ..

theorem execGroupLightLost_only (g : Fin 16) (power : BitVec 16) (s : State) :
    outOnly [.bkts, .obs, .tm, .net, .fw, .plc] (some [.aeFaultLast_addr, .aeFaultLast_cause, .aeFaultLast_prog,
          .aeStatus_faultSticky, .aeStatus_paritySticky, .fpPortStatus_bpActive, .fpPortStatus_exceededSticky,
          .fwStatus_fillSticky, .opFibreStatus_dark, .opFibreStatus_darkSticky, .opFibreStatus_inputPower,
          .ptMacThresh_exceededSticky, .ptPortStatus_downCount, .ptPortStatus_lastCause, .ptPortStatus_state,
          .swPortStatus_discarding, .swPortStatus_downBp, .swPortStatus_holding, .swPortStatus_xoff,
          .swStatus_globalXoff, .tmDieStatus_capOverflowSticky]) none s (execGroupLightLost g power s) := by
  unfold execGroupLightLost
  repeat' first
    | exact rfl
    | with_reducible first
        | exact .refl _ | refine onDev_only _ ?_ | apply Only.step (Dev.markDark_only ..)
        | apply Only.step (Dev.setInput_only ..)
    | (intro _; try dsimp -proj only) | split

theorem execImWriteAbort_only (s : State) :
    outOnly [.boot, .errlog, .bkts, .obs] (some [.hiErrlogStatus_overflowSticky, .imWriteCtl_abort]) (some
          [.hiErrDropped]) s (execImWriteAbort s) :=
  onReg_only _ _ _ _ _ s rfl rfl rfl fun _ => .wk (Dev.imageAbort_only ..) rfl rfl rfl

theorem execPortEnable_only (p : LinePort) (s : State) :
    outOnly [.errlog, .bkts, .obs, .net] (some [.hiErrlogStatus_overflowSticky, .lnTestStatus_code,
          .lnTestStatus_state, .ptPortCtl_enable, .ptPortStatus_state]) (some [.hiErrDropped, .lnBitErrors, .lnBits,
          .lnSyncErrors]) s (execPortEnable p s) :=
  onReg_only _ _ _ _ _ s rfl rfl rfl fun _ => .wk (Dev.portEnable_only ..) rfl rfl rfl

theorem execTaCancel_only (index : BitVec 8) (kind : Fin 16) (s : State) :
    outOnly [.safe, .errlog, .bkts, .obs, .tm] (some [.hiErrlogStatus_overflowSticky, .tmTaCtl_index, .tmTaCtl_kind,
          .tmTaStatus_code, .tmTaStatus_index]) (some [.hiErrDropped]) s (execTaCancel index kind s) := by
  unfold execTaCancel
  repeat' first
    | exact rfl
    | with_reducible first
        | exact .refl _ | refine onWord_only _ _ _ _ _ _ ?_ ?_ ?_ ?_ ?_ | apply Only.step (Dev.setCd_only ..)
        | apply Only.step (Dev.taCancel_only ..)
    | (intro _; try dsimp -proj only)

theorem execDmRxRecord_only (buf : BitVec 64) (s : State) :
    outOnly [.obs, .dma] (some [.dmRxPtr_head]) (some [.obStat]) s (execDmRxRecord buf s) := by
  unfold execDmRxRecord
  repeat' first
    | exact rfl
    | with_reducible first
        | exact .refl _ | refine onDev_only _ ?_ | apply Only.step (Dev.rxFrame_only ..)
    | (intro _; try dsimp -proj only) | split

theorem execProgramWordReload_only (n : Die) (addr : Nat) (s : State) :
    outOnly [.net] (some []) (some []) s (execProgramWordReload n addr s) :=
  onDev_only s fun _ => Dev.mendWord_only ..

theorem execCommitActivate_only (s : State) :
    outOnly [.tm, .tak] (some [.tkCtl_commit, .tkStatus_batchOpen, .tkStatus_code, .tkStatus_late]) (some []) s
          (execCommitActivate s) :=
  onDev_only s fun _ => Dev.activate_only ..

theorem execRailFault_only (b : Fin 6) (s : State) :
    outOnly [.sup, .boot, .bkts, .obs, .tm, .net, .fw, .tak, .plc, .fab] (some [.aeFaultLast_addr, .aeFaultLast_cause,
          .aeFaultLast_prog, .aeStatus_faultSticky, .aeStatus_paritySticky, .clInspectUse_nodePct,
          .fbLaneCtl_calibrate, .fbLaneStatus_lastCause, .fbLaneStatus_removals, .fbLaneStatus_state,
          .fbLaneStatus_txIdle, .fbLinkStatus_belowMinSticky, .fpPortStatus_bpActive, .fpPortStatus_exceededSticky,
          .fpPortStatus_up, .fwStatus_fillSticky, .lnTestStatus_code, .lnTestStatus_state, .obFatal_cause,
          .obFatal_fatalSticky, .opFibreStatus_dark, .ptMacThresh_exceededSticky, .ptPortStatus_downCount,
          .ptPortStatus_lastCause, .ptPortStatus_state, .pwStatus_railFaultSticky, .pwStatus_railOn,
          .swPortStatus_discarding, .swPortStatus_downBp, .swPortStatus_holding, .swPortStatus_xoff,
          .swStatus_globalXoff, .tmDieStatus_capOverflowSticky]) none s (execRailFault b s) :=
  onDev_only s fun _ => Dev.railFault_only ..

theorem execMirror_only (n : Die) (p : Fin 4) (e : Fin 16) (slot : BitVec 12) (s : State) :
    outOnly [.bkts, .obs, .net] (some [.aeFaultLast_addr, .aeFaultLast_cause, .aeFaultLast_prog,
          .aeStatus_faultSticky, .aeStatus_paritySticky, .obSampleStatus_fullSticky]) none s (execMirror n p e slot s)
          := by
  unfold execMirror
  repeat' first
    | exact rfl
    | with_reducible first
        | refine onDev_only _ ?_ | apply Eff.only.wk (effMirror_only ..) | refine Dev.issue_only _ _ _ _ _ _ ?_ ?_ ?_
        | refine Eff.only.go ?_
    | (intro _; try dsimp -proj only)

theorem execExit_only (n : Die) (p : Fin 4) (e : Fin 16) (s : State) :
    outOnly [.bkts, .obs, .net] (some [.aeFaultLast_addr, .aeFaultLast_cause, .aeFaultLast_prog,
          .aeStatus_faultSticky, .aeStatus_paritySticky, .obSampleStatus_fullSticky]) none s (execExit n p e s) := by
  unfold execExit
  repeat' first
    | with_reducible first
        | refine onDev_only _ ?_ | refine Dev.issue_only _ _ _ _ _ _ ?_ ?_ ?_ | refine Eff.only.go ?_
    | (intro _; try dsimp -proj only) | trivial

theorem execImFlashOpComplete_only (r : FlashEnd) (s : State) :
    outOnly [.boot, .bkts, .obs] (some [.imWriteCtl_abort, .imWriteCtl_start, .imWriteStatus_code,
          .imWriteStatus_progress, .imWriteStatus_state]) (some []) s (execImFlashOpComplete r s) := by
  unfold execImFlashOpComplete
  repeat' first
    | exact rfl
    | with_reducible first
        | exact .refl _ | apply Only.step (State.flashOp_only ..) | refine outOnly.next ?_
        | apply Only.step (Dev.quiet_only ..)

theorem execLnCheckerLock_only (x : LaneId × List Bool) (s : State) :
    outOnly [] (some [.lnTestStatus_lock]) (some []) s (execLnCheckerLock x s) := by
  unfold execLnCheckerLock
  repeat' first
    | exact rfl
    | with_reducible first
        | exact .refl _ | refine onDev_only _ ?_ | apply Only.step (Dev.lnSet_only ..)
    | (intro _; try dsimp -proj only) | split

theorem execIntentCreate_only (ask result : List Byte) (readable : Bool) (payload : List Byte) (s : State) :
    outOnly [.bkts, .obs, .tm, .net, .fw, .tak, .plc] (some [.fwStatus_fillSticky, .plHead_head, .plStatus_failSticky,
          .plStatus_lastCode, .tkCtl_commit, .tkStatus_batchOpen, .tkStatus_code, .tkStatus_late]) (some [.fwAged,
          .plDoneCount, .plFailCount]) s (execIntentCreate ask result readable payload s) :=
  onDev_only s fun _ => Dev.runDesc_only ..

theorem execBbc_only (n : Die) (p : Fin 4) (e : Fin 16) (ra : Fin 16) (bit : BitVec 5) (off : Byte) (s : State) :
    outOnly [.bkts, .obs, .net] (some [.aeFaultLast_addr, .aeFaultLast_cause, .aeFaultLast_prog,
          .aeStatus_faultSticky, .aeStatus_paritySticky, .obSampleStatus_fullSticky]) none s (execBbc n p e ra bit off
          s) :=
  onDev_only s fun _ => Dev.branch_only ..

theorem execFbLaneCalibrate_only (a : Die) (b : Die) (k : Fin 48) (s : State) :
    outOnly [.errlog, .bkts, .obs, .net, .fab] (some [.fbLaneCtl_calibrate, .fbLaneStatus_lastCause,
          .fbLaneStatus_removals, .fbLaneStatus_state, .fbLaneStatus_txIdle, .fbLinkStatus_belowMinSticky,
          .hiErrlogStatus_overflowSticky, .lnTestStatus_code]) (some [.hiErrDropped]) s (execFbLaneCalibrate a b k s)
          := by
  unfold execFbLaneCalibrate
  repeat' first
    | exact rfl
    | with_reducible first
        | exact .refl _ | refine onReg_only _ _ _ _ _ _ ?_ ?_ ?_ ?_ | apply Only.step (Dev.laneCalibrate_only ..)
    | (intro _; try dsimp -proj only) | split

theorem execJmp_only (n : Die) (p : Fin 4) (e : Fin 16) (off : BitVec 14) (s : State) :
    outOnly [.bkts, .obs, .net] (some [.aeFaultLast_addr, .aeFaultLast_cause, .aeFaultLast_prog,
          .aeStatus_faultSticky, .aeStatus_paritySticky, .obSampleStatus_fullSticky]) none s (execJmp n p e off s) :=
  onDev_only s fun _ => Dev.branch_only ..

theorem execCopySlotMeasure_only (n : Die) (h : Nat) (s : State) :
    outOnly [.tm, .net, .fw, .tak, .plc] (some [.tkCtl_commit, .tkStatus_batchOpen, .tkStatus_code, .tkStatus_late])
          (some []) s (execCopySlotMeasure n h s) :=
  onDev_only s fun _ => Dev.copyMeasure_only ..

theorem execTkOpen_only (at_ : Bool) (timeout : BitVec 16) (s : State) :
    outOnly [.safe, .errlog, .bkts, .obs] (some [.hiErrlogStatus_overflowSticky, .tkCtl_at, .tkCtl_timeout,
          .tkStatus_batchOpen, .tkStatus_code]) (some [.hiErrDropped]) s (execTkOpen at_ timeout s) := by
  unfold execTkOpen
  repeat' first
    | exact rfl
    | with_reducible first
        | exact .refl _ | refine onWord_only _ _ _ _ _ _ ?_ ?_ ?_ ?_ ?_ | apply Only.step (Dev.tkFields_only ..)
        | apply Only.step (Dev.tkOpen_only ..)
    | (intro _; try dsimp -proj only)

theorem execFtbRelease_only (r : Isl) (s : State) :
    outOnly [.errlog, .bkts, .obs] (some [.hiErrlogStatus_overflowSticky]) (some [.hiErrDropped]) s (execFtbRelease r
          s) :=
  onReg_only _ _ _ _ _ s rfl rfl rfl fun _ => .wk (Dev.ftbRelease_only ..) rfl rfl rfl

theorem execIntentRoomTimeout_only (s : State) :
    outOnly [.bkts, .obs, .tm, .net, .fw, .tak, .plc] (some [.fwStatus_fillSticky, .plHead_head, .plStatus_failSticky,
          .plStatus_lastCode, .tkCtl_commit, .tkStatus_batchOpen, .tkStatus_code, .tkStatus_late]) (some [.fwAged,
          .plDoneCount, .plFailCount]) s (execIntentRoomTimeout s) := by
  unfold execIntentRoomTimeout
  try simp -proj -zeta only [Dev.mk_plc]
  repeat' first
    | exact rfl
    | with_reducible first
        | exact .refl _ | refine onDev_only _ ?_ | apply Only.step (Dev.failIntent_only ..)
        | apply Only.step (Dev.goOn_only ..) | apply Only.step (Dev.withPlc_only ..)
    | (intro _; try dsimp -proj only) | split

theorem execRedir_only (n : Die) (p : Fin 4) (e : Fin 16) (ra : Fin 16) (reg : Bool) (port : Byte) (s : State) :
    outOnly [.bkts, .obs, .net] (some [.aeFaultLast_addr, .aeFaultLast_cause, .aeFaultLast_prog,
          .aeStatus_faultSticky, .aeStatus_paritySticky, .obSampleStatus_fullSticky]) none s (execRedir n p e ra reg
          port s) := by
  unfold execRedir
  repeat' first
    | exact rfl
    | with_reducible first
        | refine onDev_only _ ?_ | apply Eff.only.wk (effRedir_only ..) | refine Dev.issue_only _ _ _ _ _ _ ?_ ?_ ?_
        | refine Eff.only.go ?_
    | (intro _; try dsimp -proj only)

theorem execObFatal_only (s : State) :
    outOnly [.boot, .errlog, .bkts, .obs] (some [.hiErrlogStatus_overflowSticky, .obFatal_cause,
          .obFatal_fatalSticky]) (some [.hiErrDropped]) s (execObFatal s) :=
  onReg_only _ _ _ _ _ s rfl rfl rfl fun _ => .wk (Dev.fatal_only ..) rfl rfl rfl

theorem execScApplyPatch_only (p : Option PatchRec) (s : State) :
    outOnly [.errlog, .bkts, .obs, .sec] (some [.hiErrlogStatus_overflowSticky, .scCmd_op, .scCmd_start,
          .scStatus_busySticky, .scStatus_state]) (some [.hiErrDropped]) s (execScApplyPatch p s) := by
  unfold execScApplyPatch scReq
  repeat' first
    | exact rfl
    | with_reducible first
        | exact .refl _ | refine onReg_only _ _ _ _ _ _ ?_ ?_ ?_ ?_ | apply Only.step (Dev.scPatch_only ..)
    | (intro _; try dsimp -proj only)

theorem execTableScrubPass_only (n : Die) (found : List BadWord) (s : State) :
    outOnly [.bkts, .obs, .net, .fw] (some [.fwStatus_paritySticky]) (some [.fwParity]) s (execTableScrubPass n found
          s) := by
  unfold execTableScrubPass
  try simp -proj -zeta only [Dev.mk_net]
  repeat' first
    | exact rfl
    | with_reducible first
        | exact .refl _ | refine onDev_only _ ?_ | apply Only.step (Dev.setFw_only ..)
        | apply Only.step (Dev.tableAlarm_only ..) | apply Only.step (Dev.withNet_only ..) | refine .foldl _ ?_ _ ?_
    | (intro _; try dsimp -proj only) | split

theorem execPlTailWrite_only (tail : BitVec 12) (s : State) :
    outOnly [.safe, .errlog, .bkts, .obs] (some [.hiErrlogStatus_overflowSticky, .plStatus_tailErrSticky,
          .plTail_tail]) (some [.hiErrDropped]) s (execPlTailWrite tail s) :=
  onWord_only _ _ _ _ _ s rfl rfl rfl rfl fun _ => .wk (Dev.writeTail_only ..) rfl rfl rfl

theorem execClTreeRebuild_only (n : Die) (s : State) :
    outOnly [.errlog, .bkts, .obs, .tak, .plc] (some [.clTreeCtl_rebuild, .hiErrlogStatus_overflowSticky]) (some
          [.hiErrDropped]) s (execClTreeRebuild n s) :=
  onReg_only _ _ _ _ _ s rfl rfl rfl fun _ => .wk (Dev.rebuild_only ..) rfl rfl rfl

theorem execFpCollision_only (p : FieldPort) (late : Bool) (s : State) :
    outOnly [.bkts, .obs, .tm, .net, .plc] (some [.fpPortStatus_exceededSticky, .ptMacThresh_exceededSticky,
          .swPortStatus_downBp, .swPortStatus_xoff, .swStatus_globalXoff, .tmDieStatus_capOverflowSticky]) (some
          [.obStat, .swDownBp, .tmCapOverflow]) s (execFpCollision p late s) := by
  unfold execFpCollision
  try simp -proj -zeta only [Dev.mk_out]
  repeat' first
    | exact rfl
    | with_reducible first
        | exact .refl _ | refine onDev_only _ ?_ | apply Only.step (Dev.drawBelow_only ..)
        | apply Only.step (Dev.setCopy_only ..) | apply Only.step (Dev.stopTx_only ..)
        | apply Only.step (Dev.takeOut_only ..) | apply Only.step (Dev.txDrop_only ..)
        | apply Only.step (Dev.withOut_only ..)
    | (intro _; try dsimp -proj only) | split

theorem execLaneLongExitEnd_only (a : Die) (b : Die) (k : Fin 48) (margin : Byte) (s : State) :
    outOnly [.bkts, .obs, .net, .fab] (some [.fbLaneCtl_calibrate, .fbLaneStatus_lastCause, .fbLaneStatus_removals,
          .fbLaneStatus_state, .fbLaneStatus_txIdle, .fbLinkStatus_belowMinSticky, .lnTestStatus_code,
          .lnTestStatus_margin, .lnTestStatus_state]) (some [.lnBitErrors, .lnBits, .lnSyncErrors]) s
          (execLaneLongExitEnd a b k margin s) := by
  unfold execLaneLongExitEnd
  repeat' first
    | exact rfl
    | with_reducible first
        | exact .refl _ | refine onDev_only _ ?_ | apply Only.step (Dev.dropLane_only ..)
        | apply Only.step (Dev.setPd_only ..) | apply Only.step (Dev.takeUp_only ..)
    | (intro _; try dsimp -proj only) | split

theorem execVin12SagAlarm_only (mv : BitVec 64) (s : State) :
    outOnly [.bkts, .obs] (some [.pwStatus_vin12LowSticky]) (some []) s (execVin12SagAlarm mv s) := by
  unfold execVin12SagAlarm
  repeat' first
    | exact rfl
    | with_reducible first
        | exact .refl _ | refine onDev_only _ ?_ | apply Only.step (Dev.raise_only ..)
        | apply Only.step (Dev.setFld_only ..)
    | (intro _; try dsimp -proj only) | split

theorem execDmTxTailWrite_only (c : Tc) (tail : BitVec 12) (s : State) :
    outOnly [.safe, .errlog, .bkts, .obs] (some [.dmTxPtr_tail, .hiErrlogStatus_overflowSticky]) (some
          [.hiErrDropped]) s (execDmTxTailWrite c tail s) :=
  onWord_only _ _ _ _ _ s rfl rfl rfl rfl fun _ => .wk (Dev.txTail_only ..) rfl rfl rfl

theorem execIrqEnableWrite_only (hi : Bool) (v : BitVec 32) (s : State) :
    outOnly [.safe, .errlog, .bkts, .obs] (some [.hiErrlogStatus_overflowSticky, .hiIrqEnableHi_enable,
          .hiIrqEnableLo_enable]) (some [.hiErrDropped]) s (execIrqEnableWrite hi v s) := by
  unfold execIrqEnableWrite
  repeat' first
    | exact rfl
    | with_reducible first
        | exact .refl _ | refine onWord_only _ _ _ _ _ _ ?_ ?_ ?_ ?_ ?_ | apply Only.step (Dev.enablesSet_only ..)
        | apply Only.step (Dev.setCd_only ..)
    | (intro _; try dsimp -proj only) | split

theorem execTaDispatch_only (i : BitVec 8) (s : State) :
    outOnly [.tm] (some []) (some []) s (execTaDispatch i s) := by
  unfold execTaDispatch
  repeat' first
    | exact rfl
    | with_reducible first
        | exact .refl _ | refine onDev_only _ ?_ | apply Only.step (Dev.bookTimer_only ..)
    | (intro _; try dsimp -proj only) | split

theorem execPcieD3hotEnter_only (s : State) :
    outOnly [.sup, .bkts, .obs, .dma] (some [.dmChCtl_abort, .dmChCtl_start, .dmChIndex2_i2, .dmChIndex_i0,
          .dmChIndex_i1, .dmChStatus_code, .dmChStatus_state]) (some []) s (execPcieD3hotEnter s) := by
  unfold execPcieD3hotEnter
  try simp -proj -zeta only [Dev.mk_sup]
  repeat' first
    | exact rfl
    | with_reducible first
        | exact .refl _ | refine onDev_only _ ?_ | apply Only.step (Dev.chHalt_only ..)
        | apply Only.step (Dev.withSup_only ..) | refine .foldl _ ?_ _ ?_
    | (intro _; try dsimp -proj only) | split

theorem execBankVerifyDone_only (read : Bool) (s : State) :
    outOnly [.boot, .bkts, .obs, .net] (some [.btSceneStatus_phase, .imBootSeq_seq, .imBootStatus_aResult,
          .imBootStatus_bResult, .imBootStatus_bank, .imWriteStatus_target]) (some []) s (execBankVerifyDone read s)
          := by
  unfold execBankVerifyDone
  repeat' first
    | exact rfl
    | with_reducible first
        | exact .refl _ | apply Only.step (State.bankDone_only ..) | refine outOnly.next ?_
        | apply Only.step (Dev.quiet_only ..)

theorem execContinue_only (s : State) :
    outOnly [.boot] (some [.btBootCtl_continue, .btSceneStatus_phase]) (some []) s (execContinue s) := by
  unfold execContinue
  repeat' first
    | exact rfl
    | with_reducible first
        | exact .refl _ | apply Only.step (State.continue__only ..) | refine outOnly.next ?_
        | apply Only.step (Dev.quiet_only ..)
    | split

theorem execReclaimComplete_only (t : Fin 16) (s : State) :
    outOnly [.bkts, .obs, .tm, .net, .fw, .tak, .plc] (some [.fwStatus_fillSticky, .plHead_head, .plStatus_failSticky,
          .plStatus_lastCode, .tkCtl_commit, .tkStatus_batchOpen, .tkStatus_code, .tkStatus_late]) (some [.fwAged,
          .plDoneCount, .plFailCount]) s (execReclaimComplete t s) :=
  onDev_only s fun _ => Dev.reclaimDone_only ..

theorem execSwWdogExpire_only (s : State) :
    outOnly [.boot, .bkts, .obs, .tm, .net, .plc, .duo] (some [.duStatus_faultCause, .duStatus_role, .obFatal_cause,
          .obFatal_fatalSticky, .swPortStatus_downBp, .swPortStatus_xoff, .swStatus_globalXoff,
          .tmDieStatus_capOverflowSticky]) none s (execSwWdogExpire s) := by
  unfold execSwWdogExpire
  repeat' first
    | exact rfl
    | with_reducible first
        | exact .refl _ | refine onDev_only _ ?_ | apply Only.step (Dev.enterFault_only ..)
        | apply Only.step (Dev.setDuo_only ..)
    | (intro _; try dsimp -proj only) | split

theorem execSpillRelease_only (s : State) :
    outOnly [.boot, .errlog, .bkts, .obs, .tm, .net, .plc] (some [.aeFaultLast_addr, .aeFaultLast_cause,
          .aeFaultLast_prog, .aeStatus_faultSticky, .aeStatus_paritySticky, .btSceneStatus_cutting,
          .fpPortStatus_bpActive, .fpPortStatus_exceededSticky, .hiErrlogStatus_overflowSticky,
          .ptMacThresh_exceededSticky, .swPortStatus_downBp, .swPortStatus_xoff, .swStatus_globalXoff,
          .tmDieStatus_capOverflowSticky]) none s (execSpillRelease s) :=
  onReg_only _ _ _ _ _ s rfl rfl rfl fun _ => .wk (Dev.spillRelease_only ..) rfl rfl rfl

theorem execActionHandoff_only (p : Port) (s : State) :
    outOnly [.bkts, .obs, .net, .fw, .plc] (some [.fwStatus_paritySticky]) none s (execActionHandoff p s) := by
  unfold execActionHandoff
  repeat' first
    | exact rfl
    | with_reducible first
        | exact .refl _ | refine onDev_only _ ?_ | apply Only.step (Dev.handoff_only ..)
    | (intro _; try dsimp -proj only) | split

theorem execIntentReclaimWait1ms_only (s : State) :
    outOnly [.bkts, .obs] (some []) (some []) s (execIntentReclaimWait1ms s) := by
  unfold execIntentReclaimWait1ms
  repeat' first
    | exact rfl
    | with_reducible first
        | exact .refl _ | refine onDev_only _ ?_ | apply Only.step (Dev.raise_only ..)
    | (intro _; try dsimp -proj only) | split

theorem execTimeTick_only (n : Isl) (s : State) :
    outOnly [.bkts, .obs, .tm] (some []) (some [.obCycles]) s (execTimeTick n s) := by
  unfold execTimeTick
  repeat' first
    | exact rfl
    | with_reducible first
        | exact .refl _ | refine onDev_only _ ?_ | apply Only.step (Dev.tick_only ..)
    | (intro _; try dsimp -proj only) | split

theorem execFwPrpCtlWrite_only (n : Die) (slot : Fin 32) (mode : Fin 4) (lan : Fin 4) (pair : Fin 32) (seq : BitVec
      12) (s : State) :
    outOnly [.safe, .errlog, .bkts, .obs] (some [.fwPrpCtl_lan, .fwPrpCtl_mode, .fwPrpCtl_pair, .fwPrpCtl_pairErr,
          .fwPrpCtl_seqIndex, .hiErrlogStatus_overflowSticky]) (some [.hiErrDropped]) s (execFwPrpCtlWrite n slot mode
          lan pair seq s) := by
  unfold execFwPrpCtlWrite
  repeat' first
    | exact rfl
    | with_reducible first
        | exact .refl _ | refine onWord_only _ _ _ _ _ _ ?_ ?_ ?_ ?_ ?_ | apply Only.step (Dev.judgePairs_only ..)
        | apply Only.step (Dev.setPd_only ..)
    | (intro _; try dsimp -proj only)

theorem execLanePeerNotice_only (a : Die) (b : Die) (k : Fin 48) (s : State) :
    outOnly [.bkts, .obs, .net, .fab] (some [.fbLaneStatus_lastCause, .fbLaneStatus_removals, .fbLaneStatus_state,
          .fbLaneStatus_txIdle, .fbLinkStatus_belowMinSticky]) (some []) s (execLanePeerNotice a b k s) := by
  unfold execLanePeerNotice
  repeat' first
    | exact rfl
    | with_reducible first
        | exact .refl _ | refine onDev_only _ ?_ | apply Only.step (Dev.peerNotice_only ..)
    | (intro _; try dsimp -proj only) | split

theorem execFrameTransmitEnd_only (q : Port) (s : State) :
    outOnly [.bkts, .obs, .tm, .net, .fw, .plc, .dma] (some [.aeFaultLast_addr, .aeFaultLast_cause, .aeFaultLast_prog,
          .aeStatus_faultSticky, .aeStatus_paritySticky, .fpPortStatus_bpActive, .fpPortStatus_exceededSticky,
          .fwStatus_fillSticky, .fwStatus_paritySticky, .ptMacThresh_exceededSticky, .ptPortStatus_downCount,
          .ptPortStatus_lastCause, .ptPortStatus_state, .swPortStatus_discarding, .swPortStatus_downBp,
          .swPortStatus_holding, .swPortStatus_xoff, .swStatus_globalXoff, .tmDieStatus_capOverflowSticky]) none s
          (execFrameTransmitEnd q s) := by
  unfold execFrameTransmitEnd
  repeat' first
    | exact rfl
    | with_reducible first
        | exact .refl _ | refine onDev_only _ ?_ | apply Only.step (Dev.bump_only ..)
        | apply Only.step (Dev.endBad_only ..) | apply Only.step (Dev.endCopy_only ..)
        | apply Only.step (Dev.finishDisable_only ..)
    | (intro _; try dsimp -proj only) | split

theorem execInsb_only (n : Die) (p : Fin 4) (e : Fin 16) (rs : Fin 16) (base : Fin 16) (rb : Fin 16) (size : Fin 3)
      (off : BitVec 9) (s : State) :
    outOnly [.bkts, .obs, .net] (some [.aeFaultLast_addr, .aeFaultLast_cause, .aeFaultLast_prog,
          .aeStatus_faultSticky, .aeStatus_paritySticky, .obSampleStatus_fullSticky]) none s (execInsb n p e rs base
          rb size off s) := by
  unfold execInsb
  repeat' first
    | exact rfl
    | with_reducible first
        | refine onDev_only _ ?_ | apply Eff.only.wk (effInsert_only ..) | refine Dev.issue_only _ _ _ _ _ _ ?_ ?_ ?_
        | refine Eff.only.go ?_
    | (intro _; try dsimp -proj only)

theorem execBlt_only (n : Die) (p : Fin 4) (e : Fin 16) (ra : Fin 16) (rb : Fin 16) (off : BitVec 14) (s : State) :
    outOnly [.bkts, .obs, .net] (some [.aeFaultLast_addr, .aeFaultLast_cause, .aeFaultLast_prog,
          .aeStatus_faultSticky, .aeStatus_paritySticky, .obSampleStatus_fullSticky]) none s (execBlt n p e ra rb off
          s) :=
  onDev_only s fun _ => Dev.branch_only ..

theorem execCtLinkLost_only (s : State) :
    outOnly [.bkts, .obs, .duo] (some [.duStatus_ctLostSticky, .duStatus_ctUp, .duStatus_takeLag,
          .duStatus_timeLocked]) (some []) s (execCtLinkLost s) := by
  unfold execCtLinkLost
  repeat' first
    | exact rfl
    | with_reducible first
        | exact .refl _ | refine onDev_only _ ?_ | apply Only.step (Dev.lagUpdate_only ..)
        | apply Only.step (Dev.raise_only ..) | apply Only.step (Dev.setCd_only ..)
        | apply Only.step (Dev.setDuo_only ..)
    | (intro _; try dsimp -proj only) | split

theorem execCommitTimeout_only (s : State) :
    outOnly [.bkts, .obs, .tm, .net, .fw, .tak, .plc] (some [.clTreeCtl_rebuild, .fwStatus_fillSticky, .plHead_head,
          .plStatus_failSticky, .plStatus_lastCode, .tkCtl_commit, .tkStatus_batchOpen, .tkStatus_code,
          .tkStatus_late]) (some [.fwAged, .plDoneCount, .plFailCount]) s (execCommitTimeout s) := by
  unfold execCommitTimeout
  repeat' first
    | exact rfl
    | with_reducible first
        | exact .refl _ | refine onDev_only _ ?_ | apply Only.step (Dev.failCommit_only ..)
        | apply Only.step (Dev.goOn_only ..) | apply Only.step (Dev.redoAfter_only ..)
    | (intro _; try dsimp -proj only) | split

theorem execOri_only (n : Die) (p : Fin 4) (e : Fin 16) (rd : Fin 16) (ra : Fin 16) (imm : BitVec 18) (s : State) :
    outOnly [.bkts, .obs, .net] (some [.aeFaultLast_addr, .aeFaultLast_cause, .aeFaultLast_prog,
          .aeStatus_faultSticky, .aeStatus_paritySticky, .obSampleStatus_fullSticky]) none s (execOri n p e rd ra imm
          s) :=
  onDev_only s fun _ => Dev.alu_only ..

theorem execXor_only (n : Die) (p : Fin 4) (e : Fin 16) (rd : Fin 16) (ra : Fin 16) (rb : Fin 16) (s : State) :
    outOnly [.bkts, .obs, .net] (some [.aeFaultLast_addr, .aeFaultLast_cause, .aeFaultLast_prog,
          .aeStatus_faultSticky, .aeStatus_paritySticky, .obSampleStatus_fullSticky]) none s (execXor n p e rd ra rb
          s) :=
  onDev_only s fun _ => Dev.alu_only ..

theorem execLnInject_only (l : LaneId) (kind : Fin 4) (len : BitVec 7) (count : BitVec 16) (looped : Bool) (s : State) :
    outOnly [.safe, .errlog, .bkts, .obs, .net] (some [.hiErrlogStatus_overflowSticky, .lnInjCtl_count,
          .lnInjCtl_kind, .lnInjCtl_len, .lnTestStatus_code]) (some [.hiErrDropped, .lnBitErrors, .lnSyncErrors]) s
          (execLnInject l kind len count looped s) := by
  unfold execLnInject
  repeat' first
    | exact rfl
    | with_reducible first
        | exact .refl _ | refine onWord_only _ _ _ _ _ _ ?_ ?_ ?_ ?_ ?_ | apply Only.step (Dev.injFields_only ..)
        | apply Only.step (Dev.lnInject_only ..)
    | (intro _; try dsimp -proj only) | split

theorem execLearnQueueApply_only (n : Die) (s : State) :
    outOnly [.bkts, .obs, .net, .fw] (some [.fwStatus_fillSticky, .fwStatus_learnFailSticky]) (some [.fwAged,
          .fwLearnCount, .fwLearnFail, .fwMove]) s (execLearnQueueApply n s) :=
  onDev_only s fun _ => Dev.applyLearn_only ..

theorem execOr_only (n : Die) (p : Fin 4) (e : Fin 16) (rd : Fin 16) (ra : Fin 16) (rb : Fin 16) (s : State) :
    outOnly [.bkts, .obs, .net] (some [.aeFaultLast_addr, .aeFaultLast_cause, .aeFaultLast_prog,
          .aeStatus_faultSticky, .aeStatus_paritySticky, .obSampleStatus_fullSticky]) none s (execOr n p e rd ra rb s)
          :=
  onDev_only s fun _ => Dev.alu_only ..

theorem execBwWindowEnd_only (q : LinePort) (s : State) :
    outOnly [.obs] (some []) (some [.obBw]) s (execBwWindowEnd q s) := by
  unfold execBwWindowEnd
  repeat' first
    | exact rfl
    | with_reducible first
        | exact .refl _ | refine onDev_only _ ?_ | apply Only.step (Dev.bwTick_only ..)
    | (intro _; try dsimp -proj only) | split

theorem execShl_only (n : Die) (p : Fin 4) (e : Fin 16) (rd : Fin 16) (ra : Fin 16) (rb : Fin 16) (s : State) :
    outOnly [.bkts, .obs, .net] (some [.aeFaultLast_addr, .aeFaultLast_cause, .aeFaultLast_prog,
          .aeStatus_faultSticky, .aeStatus_paritySticky, .obSampleStatus_fullSticky]) none s (execShl n p e rd ra rb
          s) :=
  onDev_only s fun _ => Dev.alu_only ..

theorem execLookup_only (n : Die) (p : Fin 4) (e : Fin 16) (s : State) :
    outOnly [.bkts, .obs, .net] (some [.aeFaultLast_addr, .aeFaultLast_cause, .aeFaultLast_prog,
          .aeStatus_faultSticky, .aeStatus_paritySticky, .obSampleStatus_fullSticky]) none s (execLookup n p e s) :=
  onDev_only s fun _ => Dev.workOp_only ..

theorem execFwFlushStart_only (n : Die) (port : BitVec 8) (fid : BitVec 14) (byPort : Bool) (byFid : Bool) (s : State) :
    outOnly [.safe, .errlog, .bkts, .obs, .fw] (some [.fwFlush_byFid, .fwFlush_byPort, .fwFlush_fid, .fwFlush_port,
          .fwFlush_start, .fwStatus_fillSticky, .hiErrlogStatus_overflowSticky]) (some [.hiErrDropped]) s
          (execFwFlushStart n port fid byPort byFid s) :=
  onWord_only _ _ _ _ _ s rfl rfl rfl rfl fun _ => .wk (Dev.flushStart_only ..) rfl rfl rfl

theorem execPwrGoodRelease_only (straps : BitVec 8) (s : State) :
    outOnly [.sup, .boot, .bkts, .obs] (some [.btResetCause_cause, .btStraps_bootHold, .btStraps_duoEn,
          .btStraps_istoreSize, .btStraps_pcieRev, .btStraps_spare, .btStraps_spillEn, .btStraps_unit, .duStatus_duo,
          .duStatus_role, .duStatus_unit, .imBootStatus_aResult, .imBootStatus_bResult, .scOtpStatus_advancesLeft,
          .scOtpStatus_broken, .scOtpStatus_patchLevel, .scOtpStatus_patchesLeft, .scOtpStatus_programmed,
          .scOtpStatus_revoked]) (some [.scKeyHash, .scRollback]) s (execPwrGoodRelease straps s) := by
  unfold execPwrGoodRelease
  try simp -proj -zeta only [Dev.mk_sup]
  try dsimp -proj only
  repeat' first
    | exact rfl
    | with_reducible first
        | exact .refl _ | apply Only.step (State.startBoot_only ..) | refine outOnly.next ?_
        | apply Only.step (Dev.withSup_only ..) | apply Only.step (Dev.quiet_only ..)
    | split

theorem execAddi_only (n : Die) (p : Fin 4) (e : Fin 16) (rd : Fin 16) (ra : Fin 16) (imm : BitVec 18) (s : State) :
    outOnly [.bkts, .obs, .net] (some [.aeFaultLast_addr, .aeFaultLast_cause, .aeFaultLast_prog,
          .aeStatus_faultSticky, .aeStatus_paritySticky, .obSampleStatus_fullSticky]) none s (execAddi n p e rd ra imm
          s) :=
  onDev_only s fun _ => Dev.alu_only ..

theorem execBistStart_only (s : State) :
    outOnly [.errlog, .bkts, .obs] (some [.dvBistCtl_code, .hiErrlogStatus_overflowSticky, .pwStatus_railOn]) (some
          [.hiErrDropped]) s (execBistStart s) :=
  onReg_only _ _ _ _ _ s rfl rfl rfl fun _ => .wk (Dev.bistStart_only ..) rfl rfl rfl

theorem execNop_only (n : Die) (p : Fin 4) (e : Fin 16) (s : State) :
    outOnly [.bkts, .obs, .net] (some [.aeFaultLast_addr, .aeFaultLast_cause, .aeFaultLast_prog,
          .aeStatus_faultSticky, .aeStatus_paritySticky, .obSampleStatus_fullSticky]) none s (execNop n p e s) := by
  unfold execNop
  repeat' first
    | exact rfl
    | with_reducible first
        | exact .refl _ | refine onDev_only _ ?_ | refine Dev.issue_only _ _ _ _ _ _ ?_ ?_ ?_ | refine Eff.only.go ?_
    | (intro _; try dsimp -proj only)

theorem execOneSecondIntervalEnd_only (n : Isl) (s : State) :
    outOnly [.bkts, .obs, .net] (some []) (some []) s (execOneSecondIntervalEnd n s) :=
  onDev_only s fun _ => Dev.endInterval_only ..

theorem execPfcPauseExpire_only (p : Port) (c : Tc) (s : State) :
    outOnly [.net] (some []) (some []) s (execPfcPauseExpire p c s) := by
  unfold execPfcPauseExpire
  repeat' first
    | exact rfl
    | with_reducible first
        | exact .refl _ | refine onDev_only _ ?_ | apply Only.step (Dev.setTx_only ..)
    | (intro _; try dsimp -proj only) | split

theorem execTakeRequestReceive_only (lane : Fin 4) (seq : BitVec 16) (crcOk : Bool) (s : State) :
    outOnly [.tm, .tak, .duo] (some [.tkCtl_commit, .tkStatus_batchOpen, .tkStatus_code, .tkStatus_late]) (some
          [.duCtBadMsg]) s (execTakeRequestReceive lane seq crcOk s) := by
  unfold execTakeRequestReceive
  try simp -proj -zeta only [Dev.mk_tak]
  repeat' first
    | exact rfl
    | with_reducible first
        | exact .refl _ | refine onDev_only _ ?_ | assumption | apply Only.step (Dev.activate_only ..)
        | refine Dev.ctTake_only _ _ _ _ _ ?_ ?_ ?_ ?_ ?_ | apply Only.step (Dev.withTak_only ..)
    | (intro _; try dsimp -proj only) | split

theorem execIntentModify_only (desc : List Byte) (payload : Option (List Byte)) (s : State) :
    outOnly [.bkts, .obs, .tm, .net, .fw, .tak, .plc] (some [.fwStatus_fillSticky, .plHead_head, .plStatus_failSticky,
          .plStatus_lastCode, .tkCtl_commit, .tkStatus_batchOpen, .tkStatus_code, .tkStatus_late]) (some [.fwAged,
          .plDoneCount, .plFailCount]) s (execIntentModify desc payload s) :=
  onDev_only s fun _ => Dev.runDesc_only ..

theorem execScAdvanceRollback_only (s : State) :
    outOnly [.errlog, .bkts, .obs, .sec] (some [.hiErrlogStatus_overflowSticky, .scCmd_op, .scCmd_start,
          .scStatus_busySticky, .scStatus_state]) (some [.hiErrDropped]) s (execScAdvanceRollback s) := by
  unfold execScAdvanceRollback scReq
  repeat' first
    | exact rfl
    | with_reducible first
        | exact .refl _ | refine onReg_only _ _ _ _ _ _ ?_ ?_ ?_ ?_ | apply Only.step (Dev.scAdvance_only ..)
    | (intro _; try dsimp -proj only)

theorem execDmStart_only (k : Fin 16) (irq : Bool) (limit : Fin 8) (s : State) :
    outOnly [.safe, .errlog, .bkts, .obs, .dma] (some [.dmChCtl_irq, .dmChCtl_retryLimit, .dmChCtl_start,
          .dmChIndex2_i2, .dmChIndex_i0, .dmChIndex_i1, .dmChStatus_code, .dmChStatus_failDevice,
          .dmChStatus_failType, .dmChStatus_failWrite, .dmChStatus_overlap, .dmChStatus_retries, .dmChStatus_retryOk,
          .dmChStatus_state, .hiErrlogStatus_overflowSticky]) (some [.hiErrDropped]) s (execDmStart k irq limit s) :=
          by
  unfold execDmStart
  repeat' first
    | exact rfl
    | with_reducible first
        | exact .refl _ | refine onWord_only _ _ _ _ _ _ ?_ ?_ ?_ ?_ ?_ | apply Only.step (Dev.chFields_only ..)
        | apply Only.step (Dev.chStart_only ..)
    | (intro _; try dsimp -proj only)

theorem execServiceChannelEntry_only (p : Port) (meets : Entered) (s : State) :
    outOnly [.bkts, .obs, .net, .plc] (some [.aeFaultLast_addr, .aeFaultLast_cause, .aeFaultLast_prog,
          .aeStatus_faultSticky, .aeStatus_paritySticky, .aeStatus_rateSticky, .clInspectStatus_scanWaitSticky,
          .clInspectStatus_treeParitySticky, .clPipeStatus_paritySticky, .clPipeStatus_rateSticky,
          .fpPortStatus_bpActive, .psPortStatus_exceededSticky, .psPortStatus_lastReason,
          .psPortStatus_malformedSticky, .psStatus_graphParitySticky, .psStatus_noSessionSticky, .swPortStatus_downBp,
          .swPortStatus_xoff, .swStatus_globalXoff]) none s (execServiceChannelEntry p meets s) := by
  unfold execServiceChannelEntry
  repeat' first
    | exact rfl
    | with_reducible first
        | exact .refl _ | refine onDev_only _ ?_ | apply Only.step (Dev.bpTest_only ..)
        | apply Only.step (Dev.noteBad_only ..) | apply Only.step (Dev.startWalk_only ..)
    | (intro _; try dsimp -proj only) | split

theorem execLaneDrainComplete_only (a : Die) (b : Die) (k : Fin 48) (s : State) :
    outOnly [.bkts, .obs, .net, .fab] (some [.fbLaneCtl_calibrate, .fbLaneStatus_lastCause, .fbLaneStatus_removals,
          .fbLaneStatus_state, .fbLaneStatus_txIdle, .fbLinkStatus_belowMinSticky, .lnTestStatus_code,
          .lnTestStatus_state]) (some [.lnBitErrors, .lnBits, .lnSyncErrors]) s (execLaneDrainComplete a b k s) := by
  unfold execLaneDrainComplete
  repeat' first
    | exact rfl
    | with_reducible first
        | exact .refl _ | refine onDev_only _ ?_ | apply Only.step (Dev.afterLeave_only ..)
        | apply Only.step (Dev.pairTo_only ..)
    | (intro _; try dsimp -proj only) | split

theorem execTmSnap_only (mode : Fin 4) (inEn : Bool) (width : BitVec 20) (s : State) :
    outOnly [.safe, .errlog, .bkts, .obs] (some [.hiErrlogStatus_overflowSticky, .tmCtl_ppsInEn, .tmCtl_ppsOutMode,
          .tmCtl_ppsWidth, .tmCtl_snap, .tmStatus_steerIgnoredSticky]) (some [.hiErrDropped]) s (execTmSnap mode inEn
          width s) := by
  unfold execTmSnap
  repeat' first
    | exact rfl
    | with_reducible first
        | exact .refl _ | refine onWord_only _ _ _ _ _ _ ?_ ?_ ?_ ?_ ?_ | apply Only.step (Dev.snap_only ..)
        | apply Only.step (Dev.tmCtlFields_only ..)
    | (intro _; try dsimp -proj only)

theorem execGroupRelit_only (g : Fin 16) (power : BitVec 16) (s : State) :
    outOnly [.net] (some [.opFibreStatus_dark, .opFibreStatus_inputPower, .ptPortStatus_state]) (some []) s
          (execGroupRelit g power s) := by
  unfold execGroupRelit
  repeat' first
    | exact rfl
    | with_reducible first
        | exact .refl _ | refine onDev_only _ ?_ | apply Only.step (Dev.groupBright_only ..)
        | apply Only.step (Dev.setInput_only ..) | apply Only.step (Dev.setLight_only ..)
    | (intro _; try dsimp -proj only) | split

theorem execBnei_only (n : Die) (p : Fin 4) (e : Fin 16) (ra : Fin 16) (imm : BitVec 14) (off : Byte) (s : State) :
    outOnly [.bkts, .obs, .net] (some [.aeFaultLast_addr, .aeFaultLast_cause, .aeFaultLast_prog,
          .aeStatus_faultSticky, .aeStatus_paritySticky, .obSampleStatus_fullSticky]) none s (execBnei n p e ra imm
          off s) :=
  onDev_only s fun _ => Dev.branch_only ..

theorem execClWordRewrite_only (b : BadWord) (s : State) :
    outOnly [.net] (some []) (some []) s (execClWordRewrite b s) := by
  unfold execClWordRewrite
  repeat' first
    | exact rfl
    | with_reducible first
        | exact .refl _ | refine onDev_only _ ?_ | apply Only.step (Dev.mendWord_only ..)
    | (intro _; try dsimp -proj only) | split

theorem execTokenExpire_only (n : Die) (o : Fin 129) (c : Tc) (s : State) :
    outOnly [.bkts, .obs, .net] (some []) (some []) s (execTokenExpire n o c s) := by
  unfold execTokenExpire
  try simp -proj -zeta only [Dev.mk_net]
  repeat' first
    | exact rfl
    | with_reducible first
        | exact .refl _ | refine onDev_only _ ?_ | apply Only.step (Dev.pmc_only ..)
        | apply Only.step (Dev.withNet_only ..)
    | (intro _; try dsimp -proj only) | split

theorem execHoldExpire_only (q : Port) (c : Tc) (s : State) :
    outOnly [.bkts, .obs, .tm, .net, .plc] (some [.swPortStatus_discarding, .swPortStatus_downBp,
          .swPortStatus_holding, .swPortStatus_xoff, .swStatus_globalXoff, .tmDieStatus_capOverflowSticky]) none s
          (execHoldExpire q c s) := by
  unfold execHoldExpire
  repeat' first
    | exact rfl
    | with_reducible first
        | exact .refl _ | refine onDev_only _ ?_ | apply Only.step (Dev.endHold_only ..)
    | (intro _; try dsimp -proj only) | split

theorem execCutComplete_only (s : State) :
    outOnly [.boot, .bkts, .obs, .tm, .net, .fw, .plc] (some [.aeFaultLast_addr, .aeFaultLast_cause,
          .aeFaultLast_prog, .aeStatus_faultSticky, .aeStatus_paritySticky, .btSceneStatus_cutting,
          .btSceneStatus_scene, .btSceneStatus_spillSticky, .fpPortStatus_bpActive, .fpPortStatus_exceededSticky,
          .fpPortStatus_up, .fpStatus_phyInt, .fpStatus_phyIntSticky, .fwStatus_fillSticky, .imWriteCtl_abort,
          .imWriteCtl_start, .imWriteStatus_code, .imWriteStatus_state, .ptMacThresh_exceededSticky,
          .swPortStatus_discarding, .swPortStatus_downBp, .swPortStatus_holding, .swPortStatus_xoff,
          .swStatus_globalXoff, .tmDieStatus_capOverflowSticky]) none s (execCutComplete s) :=
  onDev_only s fun _ => Dev.cutComplete_only ..

theorem execCellWritten_only (p : Port) (more : Arrived) (s : State) :
    outOnly [.bkts, .obs, .net, .plc] (some [.aeFaultLast_addr, .aeFaultLast_cause, .aeFaultLast_prog,
          .aeStatus_faultSticky, .aeStatus_paritySticky, .aeStatus_rateSticky, .clInspectStatus_scanWaitSticky,
          .clInspectStatus_treeParitySticky, .clPipeStatus_paritySticky, .clPipeStatus_rateSticky,
          .fpPortStatus_bpActive, .psPortStatus_exceededSticky, .psPortStatus_lastReason,
          .psPortStatus_malformedSticky, .psStatus_graphParitySticky, .psStatus_noSessionSticky, .swPortStatus_downBp,
          .swPortStatus_overrunSticky, .swPortStatus_xoff, .swStatus_bufFullSticky, .swStatus_globalXoff,
          .swStatus_overrunSticky]) none s (execCellWritten p more s) := by
  unfold execCellWritten
  repeat' first
    | exact rfl
    | with_reducible first
        | exact .refl _ | refine onDev_only _ ?_ | apply Only.step (Dev.moreBytes_only ..)
        | apply Only.step (Dev.noteBad_only ..) | apply Only.step (Dev.resume_only ..)
        | apply Only.step (Dev.writeCell_only ..)
    | (intro _; try dsimp -proj only) | split

theorem execObSnap_only (n : Die) (slot : Fin 32) (s : State) :
    outOnly [.safe, .errlog, .bkts, .obs] (some [.hiErrlogStatus_overflowSticky, .obSnapCtl_port]) (some
          [.hiErrDropped, .obSnap]) s (execObSnap n slot s) := by
  unfold execObSnap
  repeat' first
    | exact rfl
    | with_reducible first
        | exact .refl _ | refine onWord_only _ _ _ _ _ _ ?_ ?_ ?_ ?_ ?_ | apply Only.step (Dev.obSnap_only ..)
        | apply Only.step (Dev.setPd_only ..)
    | (intro _; try dsimp -proj only)

theorem execMovi_only (n : Die) (p : Fin 4) (e : Fin 16) (rd : Fin 16) (imm : BitVec 18) (s : State) :
    outOnly [.bkts, .obs, .net] (some [.aeFaultLast_addr, .aeFaultLast_cause, .aeFaultLast_prog,
          .aeStatus_faultSticky, .aeStatus_paritySticky, .obSampleStatus_fullSticky]) none s (execMovi n p e rd imm s)
          :=
  onDev_only s fun _ => Dev.alu_only ..

theorem execMwr_only (n : Die) (p : Fin 4) (e : Fin 16) (ra : Fin 16) (i : Byte) (s : State) :
    outOnly [.bkts, .obs, .net] (some [.aeFaultLast_addr, .aeFaultLast_cause, .aeFaultLast_prog,
          .aeStatus_faultSticky, .aeStatus_paritySticky, .obSampleStatus_fullSticky]) none s (execMwr n p e ra i s) :=
  onDev_only s fun _ => Dev.workOp_only ..

theorem execImWriteStart_only (i : Image) (readable : Bool) (s : State) :
    outOnly [.boot, .bkts, .obs] (some [.imWriteCtl_abort, .imWriteCtl_start, .imWriteStatus_code,
          .imWriteStatus_progress, .imWriteStatus_state]) (some []) s (execImWriteStart i readable s) := by
  unfold execImWriteStart
  repeat' first
    | exact rfl
    | with_reducible first
        | exact .refl _ | apply Only.step (State.imageStart_only ..) | refine outOnly.next ?_
        | apply Only.step (Dev.quiet_only ..)
    | split

theorem execDuFeed_only (s : State) :
    outOnly [.errlog, .bkts, .obs, .duo] (some [.duStatus_faultCause, .duStatus_role, .hiErrlogStatus_overflowSticky])
          (some [.hiErrDropped]) s (execDuFeed s) :=
  onReg_only _ _ _ _ _ s rfl rfl rfl fun _ => .wk (Dev.duFeed_only ..) rfl rfl rfl

theorem execLnCheckerLockLost_only (x : LaneId × Fin 65) (s : State) :
    outOnly [] (some [.lnTestStatus_lock, .lnTestStatus_lockLostSticky]) (some []) s (execLnCheckerLockLost x s) := by
  unfold execLnCheckerLockLost
  repeat' first
    | exact rfl
    | with_reducible first
        | exact .refl _ | refine onDev_only _ ?_ | apply Only.step (Dev.lnSet_only ..)
    | (intro _; try dsimp -proj only) | split

theorem execIntentAdd_only (ask result : List Byte) (readable : Bool) (payload : List Byte) (s : State) :
    outOnly [.bkts, .obs, .tm, .net, .fw, .tak, .plc] (some [.fwStatus_fillSticky, .plHead_head, .plStatus_failSticky,
          .plStatus_lastCode, .tkCtl_commit, .tkStatus_batchOpen, .tkStatus_code, .tkStatus_late]) (some [.fwAged,
          .plDoneCount, .plFailCount]) s (execIntentAdd ask result readable payload s) :=
  onDev_only s fun _ => Dev.runDesc_only ..

theorem execIntentChange_only (ask result : List Byte) (readable : Bool) (payload : List Byte) (s : State) :
    outOnly [.bkts, .obs, .tm, .net, .fw, .tak, .plc] (some [.fwStatus_fillSticky, .plHead_head, .plStatus_failSticky,
          .plStatus_lastCode, .tkCtl_commit, .tkStatus_batchOpen, .tkStatus_code, .tkStatus_late]) (some [.fwAged,
          .plDoneCount, .plFailCount]) s (execIntentChange ask result readable payload s) :=
  onDev_only s fun _ => Dev.runDesc_only ..

theorem execSweeperVisit_only (n : Die) (i : Nat) (s : State) :
    outOnly [.bkts, .obs, .net, .fw] (some [.fwStatus_fillSticky]) (some [.fwAged]) s (execSweeperVisit n i s) := by
  unfold execSweeperVisit
  repeat' first
    | exact rfl
    | with_reducible first
        | exact .refl _ | refine onDev_only _ ?_ | apply Only.step (Dev.sweep_only ..)
    | (intro _; try dsimp -proj only) | split

theorem execFbLaneOut_only (a : Die) (b : Die) (k : Fin 48) (out : Bool) (s : State) :
    outOnly [.errlog, .bkts, .obs, .net, .fab] (some [.fbLaneCtl_calibrate, .fbLaneCtl_out, .fbLaneStatus_lastCause,
          .fbLaneStatus_removals, .fbLaneStatus_state, .fbLaneStatus_txIdle, .fbLinkStatus_belowMinSticky,
          .hiErrlogStatus_overflowSticky, .lnTestStatus_code, .lnTestStatus_state]) (some [.hiErrDropped,
          .lnBitErrors, .lnBits, .lnSyncErrors]) s (execFbLaneOut a b k out s) := by
  unfold execFbLaneOut
  repeat' first
    | exact rfl
    | with_reducible first
        | exact .refl _ | refine onReg_only _ _ _ _ _ _ ?_ ?_ ?_ ?_ | apply Only.step (Dev.laneOut_only ..)
    | (intro _; try dsimp -proj only) | split

theorem execLsFaultFall_only (w : Option (Byte × Byte)) (e : Option (Byte × Byte)) (s : State) :
    outOnly [.bkts, .obs] (some [.dvLaserCtl_lsFault, .dvLaserCtl_lsFaultSticky]) (some []) s (execLsFaultFall w e s)
          := by
  unfold execLsFaultFall
  repeat' first
    | exact rfl
    | with_reducible first
        | exact .refl _ | refine onDev_only _ ?_ | apply Only.step (Dev.i2cPoll_only ..)
        | apply Only.step (Dev.raise_only ..) | apply Only.step (Dev.setCd_only ..)
    | (intro _; try dsimp -proj only) | split

theorem execLaserForceOff_only (v : Bool) (s : State) :
    outOnly [.errlog, .bkts, .obs, .tm, .net, .fw, .plc] (some [.aeFaultLast_addr, .aeFaultLast_cause,
          .aeFaultLast_prog, .aeStatus_faultSticky, .aeStatus_paritySticky, .dvLaserCtl_forceOff,
          .dvLaserCtl_lsEnState, .fpPortStatus_bpActive, .fpPortStatus_exceededSticky, .fwStatus_fillSticky,
          .hiErrlogStatus_overflowSticky, .opFibreStatus_dark, .ptMacThresh_exceededSticky, .ptPortStatus_downCount,
          .ptPortStatus_lastCause, .ptPortStatus_state, .swPortStatus_discarding, .swPortStatus_downBp,
          .swPortStatus_holding, .swPortStatus_xoff, .swStatus_globalXoff, .tmDieStatus_capOverflowSticky]) none s
          (execLaserForceOff v s) :=
  onReg_only _ _ _ _ _ s rfl rfl rfl fun _ => .wk (Dev.laserForce_only ..) rfl rfl rfl

theorem execCtLinkUp_only (k : Fin 4) (s : State) :
    outOnly [.bkts, .obs, .fab, .duo] (some [.duStatus_ctLanes, .duStatus_ctUp, .duStatus_takeLag]) (some []) s
          (execCtLinkUp k s) := by
  unfold execCtLinkUp
  repeat' first
    | exact rfl
    | with_reducible first
        | exact .refl _ | refine onDev_only _ ?_ | apply Only.step (Dev.lagUpdate_only ..)
        | apply Only.step (Dev.lnTrained_only ..) | apply Only.step (Dev.raise_only ..)
        | apply Only.step (Dev.setBit_only ..) | apply Only.step (Dev.setCd_only ..)
        | apply Only.step (Dev.setDuo_only ..)
    | (intro _; try dsimp -proj only) | split

theorem execIntentRemove_only (desc : List Byte) (readable : Bool) (payload : List Byte) (s : State) :
    outOnly [.bkts, .obs, .tm, .net, .fw, .tak, .plc] (some [.fwStatus_fillSticky, .plHead_head, .plStatus_failSticky,
          .plStatus_lastCode, .tkCtl_commit, .tkStatus_batchOpen, .tkStatus_code, .tkStatus_late]) (some [.fwAged,
          .plDoneCount, .plFailCount]) s (execIntentRemove desc readable payload s) :=
  onDev_only s fun _ => Dev.runDesc_only ..

theorem execFabricCellReceive_only (a : Die) (b : Die) (k : Fin 48) (crcOk : Bool) (s : State) :
    outOnly [.bkts, .obs, .tm, .net, .plc, .fab] (some [.fbLaneStatus_state, .fbLinkStatus_belowMinSticky,
          .swPortStatus_downBp, .swPortStatus_xoff, .swStatus_fabricErrSticky, .swStatus_globalXoff,
          .tmDieStatus_capOverflowSticky]) (some [.fbCellErrors, .swCtAbort, .swCtDiscard, .swDownBp,
          .swFabricCellError, .tmCapOverflow]) s (execFabricCellReceive a b k crcOk s) := by
  unfold execFabricCellReceive
  repeat' first
    | exact rfl
    | with_reducible first
        | exact .refl _ | refine onDev_only _ ?_ | apply Only.step (Dev.fabricReceive_only ..)
    | (intro _; try dsimp -proj only) | split

theorem execFwFlushComplete_only (n : Die) (s : State) :
    outOnly [.bkts, .obs, .fw] (some [.fwFlush_start]) (some []) s (execFwFlushComplete n s) := by
  unfold execFwFlushComplete
  repeat' first
    | exact rfl
    | with_reducible first
        | exact .refl _ | refine onDev_only _ ?_ | apply Only.step (Dev.raise_only ..)
        | apply Only.step (Dev.setFw_only ..) | apply Only.step (Dev.setPd_only ..)
    | (intro _; try dsimp -proj only) | split

theorem execLnTestStart_only (l : LaneId) (source : Fin 8) (loopback : Fin 4) (duration : BitVec 16) (s : State) :
    outOnly [.safe, .errlog, .bkts, .obs, .net, .fab] (some [.fbLaneStatus_lastCause, .fbLaneStatus_removals,
          .fbLaneStatus_state, .fbLaneStatus_txIdle, .fbLinkStatus_belowMinSticky, .hiErrlogStatus_overflowSticky,
          .lnTestCtl_duration, .lnTestCtl_loopback, .lnTestCtl_source, .lnTestStatus_code, .lnTestStatus_lock,
          .lnTestStatus_state]) (some [.hiErrDropped]) s (execLnTestStart l source loopback duration s) := by
  unfold execLnTestStart
  repeat' first
    | exact rfl
    | with_reducible first
        | exact .refl _ | refine onWord_only _ _ _ _ _ _ ?_ ?_ ?_ ?_ ?_ | apply Only.step (Dev.lnFields_only ..)
        | apply Only.step (Dev.lnStart_only ..)
    | (intro _; try dsimp -proj only) | split

theorem execVin12Restart_only (straps : BitVec 8) (s : State) :
    outOnly [.sup, .boot, .bkts, .obs] (some [.btResetCause_cause, .btStraps_bootHold, .btStraps_duoEn,
          .btStraps_istoreSize, .btStraps_pcieRev, .btStraps_spare, .btStraps_spillEn, .btStraps_unit, .duStatus_duo,
          .duStatus_role, .duStatus_unit, .imBootStatus_aResult, .imBootStatus_bResult, .scOtpStatus_advancesLeft,
          .scOtpStatus_broken, .scOtpStatus_patchLevel, .scOtpStatus_patchesLeft, .scOtpStatus_programmed,
          .scOtpStatus_revoked]) (some [.scKeyHash, .scRollback]) s (execVin12Restart straps s) := by
  unfold execVin12Restart
  try simp -proj -zeta only [Dev.mk_sup]
  try dsimp -proj only
  repeat' first
    | exact rfl
    | with_reducible first
        | exact .refl _ | apply Only.step (State.startBoot_only ..) | refine outOnly.next ?_
        | apply Only.step (Dev.withSup_only ..) | apply Only.step (Dev.quiet_only ..)
    | split

theorem execFpPortDisable_only (k : FieldPort) (s : State) :
    outOnly [.errlog, .bkts, .obs, .tm, .net, .fw, .plc] (some [.fpPortCtl_enable, .fpPortStatus_up,
          .fwStatus_fillSticky, .hiErrlogStatus_overflowSticky, .swPortStatus_discarding, .swPortStatus_downBp,
          .swPortStatus_holding, .swPortStatus_xoff, .swStatus_globalXoff, .tmDieStatus_capOverflowSticky]) none s
          (execFpPortDisable k s) :=
  onReg_only _ _ _ _ _ s rfl rfl rfl fun _ => .wk (Dev.fieldDisable_only ..) rfl rfl rfl

theorem execSequencerMove_only (m : SeqMove) (s : State) :
    outOnly [.tm, .net, .fw, .tak, .plc] (some [.tkCtl_commit, .tkStatus_batchOpen, .tkStatus_code, .tkStatus_late])
          (some []) s (execSequencerMove m s) :=
  onDev_only s fun _ => Dev.ownMove_only ..

theorem execTimeclkLoss_only (s : State) :
    outOnly [.bkts, .obs, .tm] (some [.tmStatus_timeclkLost, .tmStatus_timeclkLostSticky]) (some []) s
          (execTimeclkLoss s) :=
  onDev_only s fun _ => Dev.clkLost_only ..

theorem execMrd_only (n : Die) (p : Fin 4) (e : Fin 16) (rd : Fin 16) (i : Byte) (s : State) :
    outOnly [.bkts, .obs, .net] (some [.aeFaultLast_addr, .aeFaultLast_cause, .aeFaultLast_prog,
          .aeStatus_faultSticky, .aeStatus_paritySticky, .obSampleStatus_fullSticky]) none s (execMrd n p e rd i s) :=
          by
  unfold execMrd
  repeat' first
    | exact rfl
    | with_reducible first
        | exact .refl _ | refine onDev_only _ ?_ | refine Dev.issue_only _ _ _ _ _ _ ?_ ?_ ?_ | refine Eff.only.go ?_
    | (intro _; try dsimp -proj only)

theorem execStoryboardLoadComplete_only (s : State) :
    outOnly [.boot, .bkts, .obs, .tm, .net, .fw, .tak, .plc] none none s (execStoryboardLoadComplete s) := by
  unfold execStoryboardLoadComplete
  repeat' first
    | exact rfl
    | with_reducible first
        | exact .refl _ | refine onDev_only _ ?_ | apply Only.step (Dev.loaded_only ..)
    | (intro _; try dsimp -proj only) | split

theorem execTkCommit_only (at_ : Bool) (timeout : BitVec 16) (s : State) :
    outOnly [.safe, .errlog, .bkts, .obs, .tm, .tak] (some [.hiErrlogStatus_overflowSticky, .tkCtl_at, .tkCtl_commit,
          .tkCtl_timeout, .tkStatus_batchOpen, .tkStatus_code, .tkStatus_late]) (some [.hiErrDropped]) s (execTkCommit
          at_ timeout s) := by
  unfold execTkCommit
  repeat' first
    | exact rfl
    | with_reducible first
        | exact .refl _ | refine onWord_only _ _ _ _ _ _ ?_ ?_ ?_ ?_ ?_ | apply Only.step (Dev.tkCommit_only ..)
        | apply Only.step (Dev.tkFields_only ..)
    | (intro _; try dsimp -proj only)

theorem execDiePowerUp_only (s : State) :
    outOnly [.boot, .tm] (some [.pwStatus_railOn]) (some []) s (execDiePowerUp s) := by
  unfold execDiePowerUp
  repeat' first
    | exact rfl
    | with_reducible first
        | exact .refl _ | refine onDev_only _ ?_ | apply Only.step (Dev.powerNext_only ..)
    | (intro _; try dsimp -proj only) | split

theorem execBeq_only (n : Die) (p : Fin 4) (e : Fin 16) (ra : Fin 16) (rb : Fin 16) (off : BitVec 14) (s : State) :
    outOnly [.bkts, .obs, .net] (some [.aeFaultLast_addr, .aeFaultLast_cause, .aeFaultLast_prog,
          .aeStatus_faultSticky, .aeStatus_paritySticky, .obSampleStatus_fullSticky]) none s (execBeq n p e ra rb off
          s) :=
  onDev_only s fun _ => Dev.branch_only ..

theorem execHealthBeacon_only (k : Fin 7) (s : State) :
    outOnly [.bkts, .obs, .duo] (some [.duStatus_faultCause, .duStatus_role]) (some []) s (execHealthBeacon k s) := by
  unfold execHealthBeacon
  repeat' first
    | exact rfl
    | with_reducible first
        | exact .refl _ | refine onDev_only _ ?_ | apply Only.step (Dev.setDuo_only ..)
        | apply Only.step (Dev.tryClear_only ..)
    | (intro _; try dsimp -proj only)

theorem execThermalShutdown_only (die : Fin 8) (temp : BitVec 8) (s : State) :
    outOnly [.sup, .boot, .bkts, .obs, .tm, .net, .fw, .tak, .plc, .fab] (some [.aeFaultLast_addr, .aeFaultLast_cause,
          .aeFaultLast_prog, .aeStatus_faultSticky, .aeStatus_paritySticky, .clInspectUse_nodePct,
          .dvLaserCtl_lsEnState, .fbLaneCtl_calibrate, .fbLaneStatus_lastCause, .fbLaneStatus_removals,
          .fbLaneStatus_state, .fbLaneStatus_txIdle, .fbLinkStatus_belowMinSticky, .fpPortStatus_bpActive,
          .fpPortStatus_exceededSticky, .fpPortStatus_up, .fwStatus_fillSticky, .lnTestStatus_code,
          .lnTestStatus_state, .obFatal_cause, .obFatal_fatalSticky, .opFibreStatus_dark, .ptMacThresh_exceededSticky,
          .ptPortStatus_downCount, .ptPortStatus_lastCause, .ptPortStatus_state, .pwStatus_railOn,
          .swPortStatus_discarding, .swPortStatus_downBp, .swPortStatus_holding, .swPortStatus_xoff,
          .swStatus_globalXoff, .tmDieStatus_capOverflowSticky]) none s (execThermalShutdown die temp s) := by
  unfold execThermalShutdown
  try simp -proj -zeta only [Dev.mk_sup]
  repeat' first
    | exact rfl
    | with_reducible first
        | exact .refl _ | refine onDev_only _ ?_ | apply Only.step (Dev.fatalEvent_only ..)
        | apply Only.step (Dev.irq_only ..) | apply Only.step (Dev.loseRail_only ..)
        | apply Only.step (Dev.lsEnUpdate_only ..) | apply Only.step (Dev.withSup_only ..) | refine .foldl _ ?_ _ ?_
    | (intro _; try dsimp -proj only) | split

theorem execHostRingFull1ms_only (s : State) :
    outOnly [.bkts, .obs] (some []) (some []) s (execHostRingFull1ms s) := by
  unfold execHostRingFull1ms
  repeat' first
    | exact rfl
    | with_reducible first
        | exact .refl _ | refine onDev_only _ ?_ | apply Only.step (Dev.raise_only ..)
    | (intro _; try dsimp -proj only) | split

theorem execIllegal_only (n : Die) (p : Fin 4) (e : Fin 16) (s : State) :
    outOnly [.bkts, .obs, .net] (some [.aeFaultLast_addr, .aeFaultLast_cause, .aeFaultLast_prog,
          .aeStatus_faultSticky, .aeStatus_paritySticky, .obSampleStatus_fullSticky]) none s (execIllegal n p e s) :=
          by
  unfold execIllegal
  repeat' first
    | with_reducible first
        | refine onDev_only _ ?_ | refine Dev.issueIf_only _ _ _ _ _ _ ?_ ?_ ?_ | refine Eff.only.go ?_
    | (intro _; try dsimp -proj only) | trivial

theorem execCfgScrubPass_only (w : Fin 8) (bad : List (BitVec 22)) (s : State) :
    outOnly [.safe, .bkts, .obs, .tm, .net, .fw, .plc, .fab, .dma] (some [.aeFaultLast_addr, .aeFaultLast_cause,
          .aeFaultLast_prog, .aeStatus_faultSticky, .aeStatus_paritySticky, .dmChCtl_abort, .dmChCtl_start,
          .dmChIndex2_i2, .dmChIndex_i0, .dmChIndex_i1, .dmChStatus_code, .dmChStatus_state, .dvLaserCtl_lsEnState,
          .egGateStatus_gates, .fbLaneCtl_calibrate, .fbLaneCtl_out, .fbLaneStatus_lastCause, .fbLaneStatus_removals,
          .fbLaneStatus_state, .fbLaneStatus_txIdle, .fbLinkStatus_belowMinSticky, .fpPortStatus_bpActive,
          .fpPortStatus_exceededSticky, .fpPortStatus_up, .fwPrpCtl_pairErr, .fwStatus_fillSticky,
          .hiParityStatus_sticky, .lnTestStatus_code, .lnTestStatus_state, .opFibreStatus_dark,
          .ptMacThresh_exceededSticky, .ptPortStatus_downCount, .ptPortStatus_lastCause, .ptPortStatus_state,
          .swPortStatus_discarding, .swPortStatus_downBp, .swPortStatus_holding, .swPortStatus_xoff,
          .swStatus_globalXoff, .tmDieStatus_capOverflowSticky]) none s (execCfgScrubPass w bad s) := by
  unfold execCfgScrubPass
  repeat' first
    | exact rfl
    | with_reducible first
        | exact .refl _ | refine onDev_only _ ?_ | apply Only.step (Dev.enterSafe_only ..) | refine .foldl _ ?_ _ ?_
    | (intro _; try dsimp -proj only) | split

theorem execDupForget_only (n : Die) (src : Nat) (s : State) :
    outOnly [.fw] (some []) (some []) s (execDupForget n src s) :=
  onDev_only s fun _ => Dev.setFw_only ..

theorem execCtLaneLockLost_only (k : Fin 4) (s : State) :
    outOnly [.duo] (some [.duStatus_ctLanes]) (some []) s (execCtLaneLockLost k s) := by
  unfold execCtLaneLockLost
  repeat' first
    | exact rfl
    | with_reducible first
        | exact .refl _ | refine onDev_only _ ?_ | apply Only.step (Dev.clrBit_only ..)
        | apply Only.step (Dev.setDuo_only ..)
    | (intro _; try dsimp -proj only) | split

theorem execTakeSwitch_only (n : Die) (s : State) :
    outOnly [.bkts, .tm, .tak, .plc] (some [.clInspectUse_nodePct]) (some [.tkSwitchTime]) s (execTakeSwitch n s) :=
  onDev_only s fun _ => Dev.takeSwitch_only ..

theorem execFibreEnableUpdate_only (s : State) :
    outOnly [.net] (some [.opFibreStatus_dark, .opReach_lit]) (some []) s (execFibreEnableUpdate s) := by
  unfold execFibreEnableUpdate
  repeat' first
    | exact rfl
    | with_reducible first
        | exact .refl _ | refine onDev_only _ ?_ | apply Only.step (Dev.fibreEnable_only ..) | refine .foldl _ ?_ _ ?_
    | (intro _; try dsimp -proj only) | split

theorem execMovhi_only (n : Die) (p : Fin 4) (e : Fin 16) (rd : Fin 16) (imm : BitVec 16) (s : State) :
    outOnly [.bkts, .obs, .net] (some [.aeFaultLast_addr, .aeFaultLast_cause, .aeFaultLast_prog,
          .aeStatus_faultSticky, .aeStatus_paritySticky, .obSampleStatus_fullSticky]) none s (execMovhi n p e rd imm
          s) :=
  onDev_only s fun _ => Dev.alu_only ..

theorem execPortLocked_only (p : LinePort) (s : State) :
    outOnly [] (some [.ptPortStatus_state]) (some []) s (execPortLocked p s) :=
  onDev_only s fun _ => Dev.linkStep_only ..

theorem execDmRingCtlWrite_only (c : Option Tc) (v : BitVec 32) (s : State) :
    outOnly [.safe, .errlog, .bkts, .obs] (some [.dmRxCtl_bufKib, .dmRxCtl_enable, .dmRxCtl_irqCh, .dmRxCtl_irqEn,
          .dmRxCtl_ringLog2, .dmTxCtl_enable, .dmTxCtl_irqCh, .dmTxCtl_irqEn, .dmTxCtl_ringLog2,
          .hiErrlogStatus_overflowSticky]) (some [.hiErrDropped]) s (execDmRingCtlWrite c v s) := by
  unfold execDmRingCtlWrite
  repeat' first
    | exact rfl
    | with_reducible first
        | exact .refl _ | refine onWord_only _ _ _ _ _ _ ?_ ?_ ?_ ?_ ?_ | apply Only.step (Dev.ringCtl_only ..)
    | (intro _; try dsimp -proj only) | split

theorem execFpBackoffExpire_only (x : FieldPort × Bool) (s : State) :
    outOnly [.bkts, .obs, .net] (some []) (some [.tmPtpSkipped, .tmPtpUpdated]) s (execFpBackoffExpire x s) := by
  unfold execFpBackoffExpire
  repeat' first
    | exact rfl
    | with_reducible first
        | exact .refl _ | refine onDev_only _ ?_ | apply Only.step (Dev.retry_only ..)
    | (intro _; try dsimp -proj only) | split

theorem execFabricCellMissing_only (a : Die) (b : Die) (s : State) :
    outOnly [.bkts, .obs, .tm, .net, .plc] (some [.swPortStatus_downBp, .swPortStatus_xoff, .swStatus_fabricErrSticky,
          .swStatus_globalXoff, .tmDieStatus_capOverflowSticky]) (some [.swCtAbort, .swCtDiscard, .swDownBp,
          .swFabricCellError, .tmCapOverflow]) s (execFabricCellMissing a b s) := by
  unfold execFabricCellMissing
  try simp -proj -zeta only [Dev.mk_net]
  repeat' first
    | exact rfl
    | with_reducible first
        | exact .refl _ | refine onDev_only _ ?_ | apply Only.step (Dev.badCell_only ..)
        | apply Only.step (Dev.bump_only ..) | apply Only.step (Dev.setPd_only ..)
        | apply Only.step (Dev.withNet_only ..)
    | (intro _; try dsimp -proj only) | split

theorem execHwWdogExpire_only (k : Fin 7) (s : State) :
    outOnly [.boot, .bkts, .obs, .tm, .net, .plc, .duo] (some [.duStatus_faultCause, .duStatus_role, .obFatal_cause,
          .obFatal_fatalSticky, .swPortStatus_downBp, .swPortStatus_xoff, .swStatus_globalXoff,
          .tmDieStatus_capOverflowSticky]) none s (execHwWdogExpire k s) := by
  unfold execHwWdogExpire
  repeat' first
    | exact rfl
    | with_reducible first
        | exact .refl _ | refine onDev_only _ ?_ | apply Only.step (Dev.enterFault_only ..)
        | apply Only.step (Dev.setDuo_only ..)
    | (intro _; try dsimp -proj only) | split

theorem execTakeMsgReceive_only (lane : Fin 4) (seq : BitVec 16) (crcOk : Bool) (take : Fin 16) (at_ : BitVec 64)
      (count : BitVec 64) (s : State) :
    outOnly [.bkts, .obs, .net, .fw, .tak, .plc, .duo] (some [.duStatus_takeLag]) (some [.duCommitCount, .duCtBadMsg,
          .duPeerCommitCount, .fwEvict]) s (execTakeMsgReceive lane seq crcOk take at_ count s) := by
  unfold execTakeMsgReceive
  repeat' first
    | exact rfl
    | with_reducible first
        | exact .refl _ | refine onDev_only _ ?_ | assumption | refine Dev.ctTake_only _ _ _ _ _ ?_ ?_ ?_ ?_ ?_
        | apply Only.step (Dev.followTake_only ..) | apply Only.step (Dev.lagUpdate_only ..)
        | apply Only.step (Dev.setDuo_only ..) | apply Only.step (Dev.setWide_only ..)
    | (intro _; try dsimp -proj only) | split

theorem execTimeclkReturn_only (s : State) :
    outOnly [.bkts, .obs] (some [.tmStatus_timeclkLost]) (some []) s (execTimeclkReturn s) :=
  onDev_only s fun _ => Dev.clkBack_only ..

theorem execRcRead_only (a : BitVec 28) (form : AccForm) (s : State) :
    outOnly [] none (some [.hiReadAbort]) s (execRcRead a form s) :=
  onHost_only s fun _ => .wk (Dev.formRead_only ..) rfl rfl rfl

theorem execClaimCheck_only (edge : Bool) (s : State) :
    outOnly [.boot, .bkts, .obs, .tm, .net, .plc, .duo] (some [.duStatus_faultCause, .duStatus_role,
          .duStatus_takeoverSticky, .obFatal_cause, .obFatal_fatalSticky, .swPortStatus_downBp, .swPortStatus_xoff,
          .swStatus_globalXoff, .tmDieStatus_capOverflowSticky]) none s (execClaimCheck edge s) :=
  onDev_only s fun _ => Dev.claimCheck_only ..

theorem execFphyIntNRise_only (s : State) :
    outOnly [.sup] (some [.fpStatus_phyInt]) (some []) s (execFphyIntNRise s) := by
  unfold execFphyIntNRise
  repeat' first
    | exact rfl
    | with_reducible first
        | exact .refl _ | refine onDev_only _ ?_ | apply Only.step (Dev.setCd_only ..)
        | apply Only.step (Dev.setPhyInt_only ..)
    | (intro _; try dsimp -proj only) | split

theorem execGroupLightReached_only (g : Fin 16) (power : BitVec 16) (s : State) :
    outOnly [.net] (some [.opFibreStatus_dark, .opFibreStatus_inputPower, .ptPortStatus_state]) (some []) s
          (execGroupLightReached g power s) := by
  unfold execGroupLightReached
  repeat' first
    | exact rfl
    | with_reducible first
        | exact .refl _ | refine onDev_only _ ?_ | apply Only.step (Dev.groupBright_only ..)
        | apply Only.step (Dev.setInput_only ..) | apply Only.step (Dev.setLight_only ..)
    | (intro _; try dsimp -proj only) | split

theorem execFrameTailEnd_only (p : Port) (rest : Arrived) (fcsOk octets : Bool) (code : Coding) (falseCarrier : Bool)
      (s : State) :
    outOnly [.bkts, .obs, .tm, .net, .fw, .plc] (some [.aeFaultLast_addr, .aeFaultLast_cause, .aeFaultLast_prog,
          .aeStatus_faultSticky, .aeStatus_paritySticky, .aeStatus_rateSticky, .clInspectStatus_scanWaitSticky,
          .clInspectStatus_treeParitySticky, .clPipeStatus_paritySticky, .clPipeStatus_rateSticky,
          .fpPortStatus_bpActive, .fpPortStatus_exceededSticky, .psPortStatus_exceededSticky,
          .psPortStatus_lastReason, .psPortStatus_malformedSticky, .psStatus_graphParitySticky,
          .psStatus_noSessionSticky, .ptMacThresh_exceededSticky, .swPortStatus_downBp, .swPortStatus_xoff,
          .swStatus_globalXoff, .tmDieStatus_capOverflowSticky]) none s (execFrameTailEnd p rest fcsOk octets code
          falseCarrier s) := by
  unfold execFrameTailEnd
  repeat' first
    | exact rfl
    | with_reducible first
        | exact .refl _ | refine onDev_only _ ?_ | apply Only.step (Dev.fecStats_only ..)
        | apply Only.step (Dev.noteBad_only ..) | apply Only.step (Dev.resume_only ..)
        | apply Only.step (Dev.tailEnd_only ..)
    | (intro _; try dsimp -proj only) | split

theorem execIns_only (n : Die) (p : Fin 4) (e : Fin 16) (rd : Fin 16) (ra : Fin 16) (pos : BitVec 5) (len1 : BitVec 5)
      (s : State) :
    outOnly [.bkts, .obs, .net] (some [.aeFaultLast_addr, .aeFaultLast_cause, .aeFaultLast_prog,
          .aeStatus_faultSticky, .aeStatus_paritySticky, .obSampleStatus_fullSticky]) none s (execIns n p e rd ra pos
          len1 s) :=
  onDev_only s fun _ => Dev.alu_only ..

theorem execGraphWordReload_only (n : Die) (addr : Nat) (s : State) :
    outOnly [.net] (some []) (some []) s (execGraphWordReload n addr s) :=
  onDev_only s fun _ => Dev.mendWord_only ..

theorem execBistEnd_only (failedPd : BitVec 4) (failedCd : Bool) (s : State) :
    outOnly [.boot, .bkts, .obs] (some [.btBootCtl_continue, .btSceneStatus_phase, .dvBistCtl_code,
          .dvBistCtl_failedCd, .dvBistCtl_failedPd, .pwStatus_railOn]) (some []) s (execBistEnd failedPd failedCd s)
          := by
  unfold execBistEnd
  try dsimp -proj only
  repeat' first
    | exact rfl
    | with_reducible first
        | exact .refl _ | apply Only.step (State.readBanks_only ..) | refine outOnly.next ?_
        | apply Only.step (Dev.pdRails_only ..) | apply Only.step (Dev.raise_only ..)
        | apply Only.step (Dev.setCd_only ..) | apply Only.step (Dev.quiet_only ..)
    | split

theorem execIntentDelete_only (desc : List Byte) (payload : Option (List Byte)) (s : State) :
    outOnly [.bkts, .obs, .tm, .net, .fw, .tak, .plc] (some [.fwStatus_fillSticky, .plHead_head, .plStatus_failSticky,
          .plStatus_lastCode, .tkCtl_commit, .tkStatus_batchOpen, .tkStatus_code, .tkStatus_late]) (some [.fwAged,
          .plDoneCount, .plFailCount]) s (execIntentDelete desc payload s) :=
  onDev_only s fun _ => Dev.runDesc_only ..

theorem execSpillCut_only (s : State) :
    outOnly [.boot, .bkts, .obs, .tm, .net, .fw, .plc] (some [.aeFaultLast_addr, .aeFaultLast_cause,
          .aeFaultLast_prog, .aeStatus_faultSticky, .aeStatus_paritySticky, .btSceneStatus_cutting,
          .btSceneStatus_spillSticky, .fpPortStatus_bpActive, .fpPortStatus_exceededSticky, .fpPortStatus_up,
          .fwStatus_fillSticky, .imWriteCtl_abort, .imWriteCtl_start, .imWriteStatus_code, .imWriteStatus_state,
          .ptMacThresh_exceededSticky, .swPortStatus_discarding, .swPortStatus_downBp, .swPortStatus_holding,
          .swPortStatus_xoff, .swStatus_globalXoff, .tmDieStatus_capOverflowSticky]) none s (execSpillCut s) := by
  unfold execSpillCut
  repeat' first
    | exact rfl
    | with_reducible first
        | exact .refl _ | refine onDev_only _ ?_ | apply Only.step (Dev.spillCut_only ..)
    | (intro _; try dsimp -proj only) | split

theorem execHeartbeatSend_only (s : State) :
    outOnly [.duo] (some []) (some []) s (execHeartbeatSend s) := by
  unfold execHeartbeatSend
  repeat' first
    | exact rfl
    | with_reducible first
        | exact .refl _ | refine onDev_only _ ?_ | apply Only.step (Dev.ctNext_only ..)
    | (intro _; try dsimp -proj only) | split

theorem execCutawayBegin_only (s : State) :
    outOnly [.boot, .bkts, .obs, .tm, .net, .plc] (some [.aeFaultLast_addr, .aeFaultLast_cause, .aeFaultLast_prog,
          .aeStatus_faultSticky, .aeStatus_paritySticky, .btSceneStatus_cutting, .fpPortStatus_bpActive,
          .fpPortStatus_exceededSticky, .ptMacThresh_exceededSticky, .swPortStatus_downBp, .swPortStatus_xoff,
          .swStatus_globalXoff, .tmDieStatus_capOverflowSticky]) none s (execCutawayBegin s) :=
  onDev_only s fun _ => Dev.cutawayBegin_only ..

theorem execBbs_only (n : Die) (p : Fin 4) (e : Fin 16) (ra : Fin 16) (bit : BitVec 5) (off : Byte) (s : State) :
    outOnly [.bkts, .obs, .net] (some [.aeFaultLast_addr, .aeFaultLast_cause, .aeFaultLast_prog,
          .aeStatus_faultSticky, .aeStatus_paritySticky, .obSampleStatus_fullSticky]) none s (execBbs n p e ra bit off
          s) :=
  onDev_only s fun _ => Dev.branch_only ..

theorem execObTrigger_only (r : Isl) (s : State) :
    outOnly [.errlog, .bkts, .obs] (some [.hiErrlogStatus_overflowSticky]) (some [.hiErrDropped]) s (execObTrigger r
          s) :=
  onReg_only _ _ _ _ _ s rfl rfl rfl fun _ => .wk (Dev.obTrigger_only ..) rfl rfl rfl

theorem execDelb_only (n : Die) (p : Fin 4) (e : Fin 16) (base : Fin 16) (rb : Fin 16) (n1 : BitVec 5) (off : BitVec
      9) (s : State) :
    outOnly [.bkts, .obs, .net] (some [.aeFaultLast_addr, .aeFaultLast_cause, .aeFaultLast_prog,
          .aeStatus_faultSticky, .aeStatus_paritySticky, .obSampleStatus_fullSticky]) none s (execDelb n p e base rb
          n1 off s) := by
  unfold execDelb
  repeat' first
    | exact rfl
    | with_reducible first
        | refine onDev_only _ ?_ | apply Eff.only.wk (effDelete_only ..) | refine Dev.issue_only _ _ _ _ _ _ ?_ ?_ ?_
        | refine Eff.only.go ?_
    | (intro _; try dsimp -proj only)

theorem execAdd_only (n : Die) (p : Fin 4) (e : Fin 16) (rd : Fin 16) (ra : Fin 16) (rb : Fin 16) (s : State) :
    outOnly [.bkts, .obs, .net] (some [.aeFaultLast_addr, .aeFaultLast_cause, .aeFaultLast_prog,
          .aeStatus_faultSticky, .aeStatus_paritySticky, .obSampleStatus_fullSticky]) none s (execAdd n p e rd ra rb
          s) :=
  onDev_only s fun _ => Dev.alu_only ..

theorem execCommitConfirm_only (s : State) :
    outOnly [.bkts, .obs, .tm, .net, .fw, .tak, .plc] (some [.fwStatus_fillSticky, .plHead_head, .plStatus_failSticky,
          .plStatus_lastCode, .tkCtl_commit, .tkStatus_batchOpen, .tkStatus_code, .tkStatus_late]) (some [.fwAged,
          .plDoneCount, .plFailCount, .plMoveCount, .tkCommitCount, .tkLateness]) s (execCommitConfirm s) := by
  unfold execCommitConfirm
  repeat' first
    | exact rfl
    | with_reducible first
        | exact .refl _ | refine onDev_only _ ?_ | apply Only.step (Dev.confirm_only ..)
        | apply Only.step (Dev.goOn_only ..)
    | (intro _; try dsimp -proj only)

theorem execRtag_only (n : Die) (p : Fin 4) (e : Fin 16) (mode : Fin 4) (i : BitVec 12) (s : State) :
    outOnly [.bkts, .obs, .net] (some [.aeFaultLast_addr, .aeFaultLast_cause, .aeFaultLast_prog,
          .aeStatus_faultSticky, .aeStatus_paritySticky, .obSampleStatus_fullSticky]) none s (execRtag n p e mode i s)
          := by
  unfold execRtag
  repeat' first
    | exact rfl
    | with_reducible first
        | refine onDev_only _ ?_ | apply Eff.only.wk (effRtag_only ..) | refine Dev.issue_only _ _ _ _ _ _ ?_ ?_ ?_
        | refine Eff.only.go ?_
    | (intro _; try dsimp -proj only)

theorem execFrameHeadArrival_only (p : Port) (head : List Byte) (back : Nat) (slow : Fin 8) (read : List BadWord) (s :
      State) :
    outOnly [.bkts, .obs, .net, .plc] (some [.aeFaultLast_addr, .aeFaultLast_cause, .aeFaultLast_prog,
          .aeStatus_faultSticky, .aeStatus_paritySticky, .aeStatus_rateSticky, .clInspectStatus_scanWaitSticky,
          .clInspectStatus_treeParitySticky, .clPipeStatus_paritySticky, .clPipeStatus_rateSticky,
          .fpPortStatus_bpActive, .psPortStatus_exceededSticky, .psPortStatus_lastReason,
          .psPortStatus_malformedSticky, .psStatus_graphParitySticky, .psStatus_noSessionSticky, .swPortStatus_downBp,
          .swPortStatus_xoff, .swStatus_globalXoff]) none s (execFrameHeadArrival p head back slow read s) := by
  unfold execFrameHeadArrival
  repeat' first
    | exact rfl
    | with_reducible first
        | exact .refl _ | refine onDev_only _ ?_ | apply Only.step (Dev.headArrival_only ..)
    | (intro _; try dsimp -proj only) | split

theorem execFrameTransmitStart_only (q : Port) (carrier : Bool) (s : State) :
    outOnly [.bkts, .obs, .tm, .net, .fw, .plc] (some [.aeFaultLast_addr, .aeFaultLast_cause, .aeFaultLast_prog,
          .aeStatus_faultSticky, .aeStatus_paritySticky, .fpPortStatus_bpActive, .fpPortStatus_exceededSticky,
          .fwStatus_fillSticky, .fwStatus_paritySticky, .ptMacThresh_exceededSticky, .ptPortStatus_downCount,
          .ptPortStatus_lastCause, .ptPortStatus_state, .swPortStatus_discarding, .swPortStatus_downBp,
          .swPortStatus_holding, .swPortStatus_xoff, .swStatus_globalXoff, .tmDieStatus_capOverflowSticky]) none s
          (execFrameTransmitStart q carrier s) := by
  unfold execFrameTransmitStart
  repeat' first
    | exact rfl
    | with_reducible first
        | exact .refl _ | refine onDev_only _ ?_ | apply Only.step (Dev.finishDisable_only ..)
        | apply Only.step (Dev.startLoop_only ..)
    | (intro _; try dsimp -proj only) | split

theorem execCutawayEnd_only (s : State) :
    outOnly [.boot, .bkts, .obs, .tm, .net, .plc] (some [.aeFaultLast_addr, .aeFaultLast_cause, .aeFaultLast_prog,
          .aeStatus_faultSticky, .aeStatus_paritySticky, .btSceneStatus_cutting, .fpPortStatus_bpActive,
          .fpPortStatus_exceededSticky, .ptMacThresh_exceededSticky, .swPortStatus_downBp, .swPortStatus_xoff,
          .swStatus_globalXoff, .tmDieStatus_capOverflowSticky]) none s (execCutawayEnd s) := by
  unfold execCutawayEnd
  repeat' first
    | exact rfl
    | with_reducible first
        | exact .refl _ | refine onDev_only _ ?_ | apply Only.step (Dev.beginCut_only ..)
    | (intro _; try dsimp -proj only) | split

theorem execLnTestClear_only (l : LaneId) (s : State) :
    outOnly [.errlog, .bkts, .obs] (some [.hiErrlogStatus_overflowSticky]) (some [.hiErrDropped, .lnBitErrors,
          .lnBits, .lnSyncErrors]) s (execLnTestClear l s) := by
  unfold execLnTestClear
  repeat' first
    | exact rfl
    | with_reducible first
        | exact .refl _ | refine onReg_only _ _ _ _ _ _ ?_ ?_ ?_ ?_ | apply Only.step (Dev.lnClear_only ..)
    | (intro _; try dsimp -proj only) | split

theorem execWmbD3Read_only (w : Fin 16) (s : State) :
    outOnly [] none (some [.hiReadAbort]) s (execWmbD3Read w s) :=
  onHost_only s fun _ => .wk (Dev.hostRead_only ..) rfl rfl rfl

theorem execTkAbort_only (at_ : Bool) (timeout : BitVec 16) (s : State) :
    outOnly [.safe, .errlog, .bkts, .obs, .tm, .fw, .tak, .plc] (some [.hiErrlogStatus_overflowSticky, .tkCtl_at,
          .tkCtl_commit, .tkCtl_timeout, .tkStatus_batchOpen, .tkStatus_code, .tkStatus_late]) (some [.hiErrDropped])
          s (execTkAbort at_ timeout s) := by
  unfold execTkAbort
  repeat' first
    | exact rfl
    | with_reducible first
        | exact .refl _ | refine onWord_only _ _ _ _ _ _ ?_ ?_ ?_ ?_ ?_ | apply Only.step (Dev.tkAbort_only ..)
        | apply Only.step (Dev.tkFields_only ..)
    | (intro _; try dsimp -proj only)

end Sys2Proof.Machine
end

