-- ==== Sys2Proof/WellFormed.lean ====
section
/-! DEFINITION. Which commands are well formed: what their operands' types leave open of the ranges that the spec gives.  The
meanings are total and do not rest on it. -/

namespace Sys2Proof

/-- A lane that the device can have (R51, R276, R287). -/
def LaneId.ok : LaneId → Bool
  | .line s => s < 128
  | .fabric a b k => a < 4 && b < 4 && a ≠ b && k < 48
  | .cont k => k < 4

/-- A memory word of a pipeline die (R105, R118, R164, R183). -/
def BadWord.ok : BadWord → Bool
  | .graph d _ | .tree d _ | .pattern d _ => d < 4
  | .cam d p s => d < 4 && p < 4 && s < 12288
  | .prog d a => d < 4 && a < 16384
  | .addr d i => d < 4 && i < 5242880
  | .vlan d v => d < 4 && v < 4096
  | .dup d i => d < 4 && i < 65536
  | .stream d i => d < 4 && i < 16384

/-- Whether bytes are an intent's descriptor with an OP, or with one that Table 11-2 does not name. -/
def descOk (op : Nat) (desc : List Byte) : Bool :=
  let o := ((desc[4]?).map (·.toNat)).getD 0
  desc.length = 64 && (o = op || o = 0 || 8 < o)

/-- The places of a move of the sequencer (R252). -/
def SeqMove.ok : SeqMove → Bool
  | .cam d p _ h => d < 4 && p < 4 && h < 2 ^ 32
  | .static d _ h => d < 4 && h < 2 ^ 32
  | .plan d h => d < 4 && h < 2 ^ 32

/-- Whether a command is well formed. -/
def Instr.wf : Instr → Bool
  | .vaux33Apply => true
  | .vaux33Loss => true
  | .vin12Rise => true
  | .pwrGoodRelease _ => true
  | .vin12LowReset => true
  | .vin12Restart _ => true
  | .vin12SagAlarm _ => true
  | .porstNLow => true
  | .porstNGlitch _ => true
  | .porstNRelease _ => true
  | .romPhaseComplete _ _ _ => true
  | .continue_ => true
  | .bistStart => true
  | .bistEnd _ _ => true
  | .bankVerifyDone _ => true
  | .diePowerUp => true
  | .storyboardLoadComplete => true
  | .perstNAssert => true
  | .pcieD3hotEnter => true
  | .railFault _ => true
  | .thermAlertAssert _ _ => true
  | .thermAlertRelease _ _ => true
  | .thermalShutdown _ _ => true
  | .cutawayBegin => true
  | .cutawayEnd => true
  | .cutComplete => true
  | .spillCut => true
  | .spillRelease => true
  | .spillTest => true
  | .imWriteStart idx readable => !readable || 256 ≤ idx.bytes.length
  | .imWriteAbort => true
  | .imFlashOpComplete _ => true
  | .laserForceOff _ => true
  | .laserPoll _ _ => true
  | .fibreEnableUpdate => true
  | .lsFaultFall _ _ => true
  | .groupLightReached _ _ => true
  | .groupLightLost _ _ => true
  | .groupUnlitTimeout _ _ => true
  | .groupRelit _ _ => true
  | .portEnable _ => true
  | .portDisable _ => true
  | .portSignalDetect _ => true
  | .portLocked _ => true
  | .portFaultClear _ => true
  | .upDebounceExpire _ => true
  | .downCause _ _ => true
  | .holdoffExpire _ _ => true
  | .downCauseClear _ => true
  | .fpPortEnable _ => true
  | .fpPortDisable _ => true
  | .fphyIntFall => true
  | .frameHeadArrival p head _ _ read => p.val < 132 && head.length ≤ 10240 && read.all BadWord.ok
  | .illegal _ _ _ => true
  | .nop _ _ _ => true
  | .add _ _ _ _ _ _ => true
  | .sub _ _ _ _ _ _ => true
  | .and _ _ _ _ _ _ => true
  | .or _ _ _ _ _ _ => true
  | .xor _ _ _ _ _ _ => true
  | .shl _ _ _ _ _ _ => true
  | .shr _ _ _ _ _ _ => true
  | .addi _ _ _ _ _ _ => true
  | .andi _ _ _ _ _ _ => true
  | .ori _ _ _ _ _ _ => true
  | .xori _ _ _ _ _ _ => true
  | .movi _ _ _ _ _ => true
  | .movhi _ _ _ _ _ => true
  | .shli _ _ _ _ _ _ => true
  | .shri _ _ _ _ _ _ => true
  | .ext _ _ _ _ _ _ _ => true
  | .ins _ _ _ _ _ _ _ => true
  | .hld _ _ _ _ _ _ _ _ => true
  | .hst _ _ _ _ _ _ _ _ => true
  | .insb _ _ _ _ _ _ _ _ => true
  | .delb _ _ _ _ _ _ _ => true
  | .cksum _ _ _ _ _ => true
  | .rtag _ _ _ _ _ => true
  | .mrd _ _ _ _ _ => true
  | .mwr _ _ _ _ _ => true
  | .settc _ _ _ _ _ _ => true
  | .lookup _ _ _ => true
  | .redir _ _ _ _ _ _ => true
  | .group _ _ _ _ => true
  | .drop _ _ _ => true
  | .tohost _ _ _ _ _ => true
  | .mirror _ _ _ _ => true
  | .meter _ _ _ _ _ => true
  | .count _ _ _ _ _ => true
  | .beq _ _ _ _ _ _ => true
  | .bne _ _ _ _ _ _ => true
  | .blt _ _ _ _ _ _ => true
  | .bge _ _ _ _ _ _ => true
  | .beqi _ _ _ _ _ _ => true
  | .bnei _ _ _ _ _ _ => true
  | .bbs _ _ _ _ _ _ => true
  | .bbc _ _ _ _ _ _ => true
  | .jmp _ _ _ _ => true
  | .jtab _ _ _ _ _ => true
  | .exit _ _ _ => true
  | .actionHandoff _ => true
  | .replicate _ => true
  | .serviceChannelEntry p meets => 128 ≤ p.val && p.val < 132 && meets.bad.all BadWord.ok
  | .fpBpRepeat _ => true
  | .cellWritten p more => (p.val < 132 || more.bytes.isEmpty) && more.bytes.length ≤ 10240 && more.bad.all BadWord.ok
  | .frameTailEnd p rest _ _ _ _ => p.val < 132 && rest.bytes.length ≤ 10240 && rest.bad.all BadWord.ok
  | .pfcPauseExpire _ _ => true
  | .pfcHeld100ms _ _ => true
  | .pfcTransmit _ => true
  | .pfcRepeat _ => true
  | .oneSecondIntervalEnd _ => true
  | .fpCollision _ _ => true
  | .fpBackoffExpire _ => true
  | .graphWordReload _ _ => true
  | .clWordRewrite b => b.ok
  | .programWordReload _ addr => addr < 16384
  | .staticEntryRewrite _ idx => idx < 5242880
  | .memoryScrubPass _ found => found.all BadWord.ok
  | .tableScrubPass _ found => found.all BadWord.ok
  | .cfgScrubPass _ _ => true
  | .learnQueueApply _ => true
  | .sweeperVisit _ idx => idx < 5242880
  | .flushNotice _ p => p < 132
  | .fwFlushStart _ _ _ _ _ => true
  | .fwFlushComplete _ => true
  | .fwPrpCtlWrite _ _ _ _ _ _ => true
  | .dupForget _ src => src < 2 ^ 48
  | .streamReset _ id => id < 16384
  | .cellTime _ => true
  | .tokenExpire _ _ _ => true
  | .headScan _ => true
  | .holdExpire _ _ => true
  | .fabricCellReceive a b _ _ => a ≠ b
  | .fabricCellMissing a b => a ≠ b
  | .frameTransmitStart _ _ => true
  | .frameTransmitEnd _ => true
  | .gateConfigChange _ => true
  | .gateListOperational _ => true
  | .gateEntryAdvance _ => true
  | .gateEnWrite _ _ => true
  | .mirrorDeferRelease _ _ => true
  | .deferralAgeScan _ => true
  | .tkOpen _ _ => true
  | .tkCommit _ _ => true
  | .tkAbort _ _ => true
  | .commitActivate => true
  | .commitSeal => true
  | .commitTimeout => true
  | .takeSwitch _ => true
  | .commitConfirm => true
  | .takeRetire _ => true
  | .reclaimComplete _ => true
  | .clTreeRebuild _ => true
  | .treeStageComplete _ _ _ => true
  | .plTailWrite _ => true
  | .plCtlWrite _ _ => true
  | .intentCreate ask result _ _ => descOk 1 (ask ++ result)
  | .intentModify desc _ => descOk 2 desc
  | .intentDelete desc _ => descOk 3 desc
  | .intentAdd ask result _ _ => descOk 4 (ask ++ result)
  | .intentChange ask result _ _ => descOk 5 (ask ++ result)
  | .intentRemove desc _ _ => descOk 6 desc
  | .intentBind desc _ => descOk 7 desc
  | .intentWhere desc _ _ => descOk 8 desc
  | .intentRoomTimeout => true
  | .sequencerMove m => m.ok
  | .copySlotMeasure _ h => h < 2 ^ 32
  | .timeTick _ => true
  | .clapperPulse _ _ => true
  | .clapperMissed _ => true
  | .tmIncWrite _ => true
  | .tmSetWrite _ => true
  | .tmAdjWrite _ => true
  | .timeclkLoss => true
  | .timeclkReturn => true
  | .taArm _ _ => true
  | .taCancel _ _ => true
  | .taDispatch _ => true
  | .taRun _ _ => true
  | .ppsOutSecond => true
  | .ppsWidthEnd => true
  | .ppsInEdge => true
  | .tmSnap _ _ _ => true
  | .laneParkWindow a b => a ≠ b
  | .laneExitEnd a b _ _ => a ≠ b
  | .laneLongExitEnd a b _ _ => a ≠ b
  | .driftCheck _ ms => ms.all (fun e => e.1 < 6 && e.2.1 < 48)
  | .laneLockLost a b _ => a ≠ b
  | .lanePeerNotice a b _ => a ≠ b
  | .laneDrainComplete a b _ => a ≠ b
  | .laneCalibrationDone a b _ _ _ => a ≠ b
  | .laneQualifyDone a b _ _ _ _ => a ≠ b
  | .fbLaneOut a b _ _ => a ≠ b
  | .fbLaneCalibrate a b _ => a ≠ b
  | .lnTestStart l _ _ _ => l.ok
  | .lnTestStop l _ _ _ => l.ok
  | .lnTestClear l => l.ok
  | .lnInject l _ _ _ _ => l.ok
  | .lnTestDurationEnd l _ _ _ => l.ok
  | .duoEval _ _ => true
  | .claimCheck _ => true
  | .initTimeout => true
  | .healthBeacon _ => true
  | .hwWdogExpire _ => true
  | .swWdogExpire => true
  | .duFeed => true
  | .duClaim => true
  | .duRelease => true
  | .duClearFault => true
  | .heartbeatSend => true
  | .heartbeatReceive _ _ _ _ _ _ _ _ _ _ => true
  | .timeMsgReceive _ _ _ _ _ => true
  | .takeMsgReceive _ _ _ _ _ _ => true
  | .takeRequestReceive _ _ _ => true
  | .releaseMsgReceive _ _ _ => true
  | .ctLinkLost => true
  | .ctLinkUp _ => true
  | .registerWrite _ _ _ _ => true
  | .rcRead _ _ => true
  | .wmbRead _ => true
  | .wmbWrite _ => true
  | .wmbD3Read _ => true
  | .errlogClear => true
  | .irqEnableWrite _ _ => true
  | .dmStart _ _ _ => true
  | .dmAbort _ _ _ => true
  | .dmDescFetchDone _ desc => desc.length = 64
  | .dmAccessComplete _ data _ => data.length ≤ 64
  | .dmAccessFail _ _ _ => true
  | .dmRetry _ => true
  | .dmHostReadTimeout _ _ => true
  | .dmRingCtlWrite _ _ => true
  | .dmTxTailWrite _ _ => true
  | .dmTxFrame desc data meets => desc.length = 32 && (data.map (·.length)).getD 0 < 65536 && meets.bad.all BadWord.ok
  | .dmRxTailWrite _ => true
  | .dmRxRecord _ => true
  | .obSnap _ _ => true
  | .bwWindowEnd _ => true
  | .recordDeliver => true
  | .summaryRaise _ => true
  | .incidentEnd _ => true
  | .obTrigger _ => true
  | .ftbRelease _ => true
  | .obFatal => true
  | .obDRptrWrite _ => true
  | .hostRingFull1ms => true
  | .scReadSlate => true
  | .scQuote _ => true
  | .scGetChallenge => true
  | .scKeyCommand k => (k.map (·.length)).getD 29984 = 29984
  | .scAdvanceRollback => true
  | .scApplyPatch _ => true
  | .scRequestDone _ => true
  | .challengeExpire => true
  | .perstNDeassert => true
  | .pcieD3hotExit => true
  | .lsFaultNRise => true
  | .fphyIntNRise => true
  | .lnCheckerLock x => x.1.ok && x.2.length ≤ 95
  | .lnCheckerLockLost x => x.1.ok
  | .ctLaneLockLost _ => true
  | .intentReclaimWait1ms => true
  | .opticalPowerCalibration _ _ _ => true

/-- A well-formed command. -/
abbrev WellFormed (i : Instr) : Prop := i.wf = true

end Sys2Proof
end

