-- ==== Sys2Proof/Tests/Slice0.lean ====
section
/-! SUPPORT. The model's own tests: instruction words written out from Table 7-3 and Table 7-10, single commands on small
states with results worked out from the spec, an ill-formed term for each check of WellFormed, and for each statement a
state and operands that meet its hypotheses. -/

open Sys2Proof Sys2Proof.Machine

namespace Sys2Proof.Tests

set_option Elab.async false

/-! ### Small states -/

/-- The device after a command, or an empty one where it does not answer a next state. -/
def after (c : Instr) (s : State) : Dev := match exec c s with | .next t => t.dev | _ => {}

/-- The device of an outcome, or an empty one. -/
def got (o : Host.Outcome State Fault Refusal) : Dev := match o with | .next t => t.dev | _ => {}

/-- A storyboard of four dies whose lane slots are all 10G ports. -/
def board : Storyboard := { slots := List.replicate 128 .g10 }

/-- A device that runs that storyboard in the run scene, its host link up, every rail on and LS_EN released. -/
def up : Dev :=
  { sup := { porstN := true, perstN := true, cfgReady := true }
    boot := { run := true, applied := true, sb := board }
    flds := [(⟨.pwStatus_railOn, 7, 0, 0⟩, 63), (⟨.btSceneStatus_phase, 0, 0, 0⟩, 4), (⟨.btSceneStatus_scene, 0, 0, 0⟩, 2),
      (⟨.dvLaserCtl_lsEnState, 0, 0, 0⟩, 1)]
    tak := { live := [0] } }

/-- A device with fields of its registers at the given values. -/
def at_ (d : Dev) (l : List (FKey × Nat)) : Dev := { d with flds := l ++ d.flds }

/-- A device in its state. -/
def on (d : Dev) : State := { dev := d }

/-! ### Reset and the queue -/

theorem test_reset_queue : State.reset.pending = [] := by decide

/-- R7 and R317 to R320: before PORST_N is released the device does not run. -/
theorem test_reset_does_not_run : State.reset.dev.boot.run = false ∧ State.reset.dev.hostUp = false := by decide

theorem test_idle : step State.reset = .next State.reset := rfl

/-- First in, first out: the front command runs on the rest of the queue. -/
theorem test_queue_front : ∃ t, step { State.reset with pending := [.perstNAssert, .vin12Rise] } = .next t ∧ t.pending = [.vin12Rise] :=
  ⟨_, rfl, rfl⟩

/-! ### Instruction words -/

/-- The words of Table 7-10. -/
theorem test_words_of_program_12 :
    encH 0x18 2 3 0 1 2 = 0x608C1002 ∧ encBI 0x35 2 5010 6 = 0xD4939206 ∧ encM 0x27 4 0 40 = 0x9D000028 ∧
    encM 0x26 0 0 41 = 0x98000029 ∧ encM 0x28 0 0 42 = 0xA000002A := by decide

/-- Words of the other formats, bit by bit from Table 7-3: ADD g5, g2, g3; ADDI g5, g2, −16; EXT g5, g3, 28, 8; DELB base 0,
4 bytes at 12; BLT g2, g3, 3; BBS g2, 31, 3. -/
theorem test_words_of_the_formats :
    encR 0x02 5 2 3 = 0b00001001010010001100000000000000 ∧ encI 0x09 5 2 0x3FFF0 = 0b00100101010010111111111111110000 ∧
    encS 0x11 5 3 28 7 = 0b01000101010011000000001110000111 ∧ encD 0x1B 0 0 3 12 = 0b01101100000000000000011000001100 ∧
    encB 0x32 2 3 3 = 0b11001000000010001100000000000011 ∧ encBB 0x36 2 31 3 = 0b11011000100000000001111100000011 := by decide

/-! States for BootBegins. -/

def wPwr : State := on { sup := { pwrGood := false, porstN := true } }

def wVin : State := on { sup := { porstN := true, vinLow := true } }

def wDark : State := on { sup := { pwrGood := false } }

/-! States for RomPhaseAndHold. -/

def wRom : State := on { boot := { run := true } }

def wHold : State := on (at_ { boot := { run := true } } [(⟨.btStraps_bootHold, 0, 0, 0⟩, 1)])

def wWait : State := on (at_ up [(⟨.btSceneStatus_phase, 0, 0, 0⟩, 1)])

def wBist : State := on (at_ up [(⟨.btSceneStatus_phase, 0, 0, 0⟩, 1), (⟨.dvBistCtl_code, 0, 0, 0⟩, 1)])

def wBistGo : State := on (at_ wBist.dev [(⟨.btBootCtl_continue, 0, 0, 0⟩, 1)])

/-! States for BankChosen. -/

def wImg : ImgHeader := { sequence := 7, rollback := 1, length := 64 }

def wBank : State := { dev := at_ { boot := { run := true, todo := [.a] , flashOk := true} } [], flash := { a := { hdr := some wImg, body := some ([], []) } } }

def wBank2 : State := { dev := { boot := { run := true, todo := [.b, .a], flashOk := true } }, flash := { a := { hdr := some wImg, body := some ([], []) } } }

/-! States for DiesPoweredThenLoaded. -/

def wPower : State := on (at_ { boot := { run := true, power := [2, 4] } } [(⟨.btSceneStatus_phase, 0, 0, 0⟩, 3)])

def wLoad : State := on (at_ { boot := { run := true, sb := board } } [(⟨.btSceneStatus_phase, 0, 0, 0⟩, 3)])

/-! States for PcieResetAndD3hot. -/

def wPerst : State := on { up with sup := { up.sup with perstN := false } }

def wRun : State := on (at_ up [(⟨.dmChStatus_state, 0, 15, 0⟩, 2)])

def wD3 : State := on { at_ up [(⟨.msixTable_dword, 0, 127, 0⟩, 0), (⟨.msixPba_pending, 0, 0, 0⟩, 0x80000000)] with sup := { up.sup with d3hot := true } }

/-! States for PowerAndTemperature. -/

def wHot : State := on (at_ up [(⟨.dvTherm_alertActive, 0, 0, 0⟩, 1)])

/-! States for CutsBeginAndComplete. -/

/-- An image of 256 zero bytes. -/
def wImgW : Image := { bytes := List.replicate 256 0 }

def wCut : State := on { up with boot := { up.boot with write := some { img := wImgW } } }

def wDebt : State := on { up with boot := { up.boot with eraseDebt := true } }

def wAway : State := on (at_ up [(⟨.btSceneStatus_scene, 0, 0, 0⟩, 1)])

def wDue : State := on { up with boot := { up.boot with spillDue := some 1 } }

def wSpillEn : State := on (at_ up [(⟨.btStraps_spillEn, 0, 0, 0⟩, 1)])

def wSpillRst : State := on (at_ up [(⟨.btStraps_spillEn, 0, 0, 0⟩, 1), (⟨.btSceneStatus_scene, 0, 0, 0⟩, 0)])

def wSpill : State := on (at_ up [(⟨.btSceneStatus_scene, 0, 0, 0⟩, 3)])

def wCutting (x : Nat) : State := on { at_ up [(⟨.btSceneStatus_cutting, 0, 0, 0⟩, 1)] with boot := { up.boot with cutTo := some x } }

/-! States for ImageWritesRun. -/

def wStart : State := on up

/-- A write in a cutaway, its flash command issued. -/
def wWriting (state : Nat) (w : ImgWrite) : State :=
  on { at_ up [(⟨.imWriteStatus_state, 0, 0, 0⟩, state), (⟨.btSceneStatus_scene, 0, 0, 0⟩, 1)] with
    boot := { up.boot with write := some w, issued := true } }

/-- An erase owed after a write that a cut to spill ended. -/
def wOwed : State :=
  on { at_ up [(⟨.btSceneStatus_scene, 0, 0, 0⟩, 1)] with boot := { up.boot with eraseDebt := true, issued := true } }

/-! States for StartDuringWriteIgnored. -/

def wAbort (state todo : Nat) (hd er : Bool) : State :=
  wWriting state { img := wImgW, todo := todo, headerDone := hd, erased := er, abort := true }

/-! States for LightFollowsItsRules. -/

def wW1 : State := on { up with boot := { up.boot with sb := { board with active := 1 } } }

def wLight (v : Nat) : State := on { at_ up [] with net := { up.net with groups := [(15, v), (0, v), (7, 2)] } }

/-! States for LinkStatesAdvance. -/

def wPort (p state : Nat) : State :=
  on (at_ up [(⟨.ptPortCtl_enable, p / 32 + 1, p % 32, 0⟩, 1), (⟨.ptPortStatus_state, p / 32 + 1, p % 32, 0⟩, state), (⟨.ptPortCtl_downHoldoff, p / 32 + 1, p % 32, 0⟩, 100)])

def wClosed (p state : Nat) : State := on (at_ (wPort p state).dev [(⟨.ptPortCtl_enable, p / 32 + 1, p % 32, 0⟩, 0)])

/-! States for PortsEnabledAndDisabled. -/

def wOff (p : Nat) : State := on (at_ up [(⟨.ptPortStatus_state, p / 32 + 1, p % 32, 0⟩, 0)])

def wField (k v : Nat) : State := on (at_ up [(⟨.fpPortStatus_up, 0, k, 0⟩, v)])

/-! States for LaneTestsRun. -/

def wLane (state dur : Nat) : State := on (at_ up [(⟨.lnTestStatus_state, 1, 5, 0⟩, state), (⟨.lnTestCtl_duration, 1, 5, 0⟩, dur), (⟨.lnTestCtl_loopback, 1, 5, 0⟩, 1)])

def wFabLane : State := on (at_ up [(⟨.lnTestStatus_state, 1, 47, 2⟩, 2), (⟨.lnTestCtl_duration, 1, 47, 2⟩, 5), (⟨.fbLaneStatus_state, 1, 47, 1⟩, 4), (⟨.fbLaneStatus_state, 2, 47, 0⟩, 4)])

def wCtLane : State := on (at_ up [(⟨.lnTestStatus_state, 0, 3, 0⟩, 2), (⟨.lnTestCtl_duration, 0, 3, 0⟩, 5)])

def wIdle : State := on (at_ (wLane 2 5).dev [(⟨.lnTestCtl_source, 1, 5, 0⟩, 5)])

/-- Lane slot 127 in use by an enabled port. -/
def wSlotOn : State := on (at_ up [(⟨.ptPortStatus_state, 4, 31, 0⟩, 6)])

/-! States for FramesArrive. -/

def wGraph : List HType := [{ num := 0, len := .fixed 14, check := .eth }]

def wHead : List Byte := [1, 2, 3, 4, 5, 6, 0x22, 2, 2, 2, 2, 2, 8, 0]

def wRx (p : Nat) : State := on (at_ { up with boot := { up.boot with sb := { board with graph := wGraph } }, net := { nextId := 5 } }
  [(⟨.ptPortStatus_state, p / 32 + 1, p % 32, 0⟩, 6), (⟨.ptPortCtl_enable, p / 32 + 1, p % 32, 0⟩, 1)])

def wFr : Frame := { id := 4, die := 0, port := 0, take := 0, stamp := 77, bytes := wHead, work := { win := wHead }, init := { win := wHead } }

def wTail (f : Frame) : State := on { (wRx 0).dev with net := { frames := [{ wFr with id := 3, whole := true, stage := .ended, port := 2 }, f], nextId := 5 } }

/-! States for ServiceAndCells. -/

def wCellFr : Frame := { wFr with stage := .handed, whole := true, todo := [{ kind := .fwd, port := 1, tc := 0 }] }

def wNoRoom : State := { wTail wCellFr with dev := { (wTail wCellFr).dev with net := { (wTail wCellFr).dev.net with frames := [{ wFr with id := 9, admitted := true, cells := 524288, reserved := 524288, die := 0, port := 3, whole := false, stage := .handed }, wCellFr] } } }

/-- A frame without its layout, cut through, in its copies. -/
def wLateFr : Frame := { wFr with stage := .replicated, cells := 1, admitted := true }

def wCdFr : Frame := { wFr with port := 129, stage := .cd, whole := true }

/-- The service channel is closed: PD0's global threshold is passed. -/
def wClosedCh : State := on (at_ (wTail wCdFr).dev [(⟨.swStatus_globalXoff, 1, 0, 0⟩, 1)])

def wBp (dup : Nat) : State := on (at_ up [(⟨.fpPortStatus_bpActive, 0, 3, 0⟩, 1), (⟨.fpPortCtl_duplex, 0, 3, 0⟩, dup), (⟨.fpPortStatus_up, 0, 3, 0⟩, 1), (⟨.fpPortCtl_enable, 0, 3, 0⟩, 1)])

/-! States for PauseAndIntervals. -/

def wPfc (x : PortTx) : State := on { (wRx 5).dev with net := { tx := [(4, { held := [1] }), (5, x)] }, flds := (⟨.ptPfcStatus_txXoff, 1, 5, 0⟩, 0x81) :: (⟨.ptPfcCtl_quanta, 1, 5, 0⟩, 0x1234) :: (⟨.swPortStatus_xoff, 1, 5, 0⟩, 0x81) :: (⟨.ptPfcCtl_txEn, 1, 5, 0⟩, 0xBF) :: (wRx 5).dev.flds }

def wSec : State := on { up with net := { dropSum := [(0, 1, 2), (40, 1, 3), (129, 2, 2)], malSum := [(0, 1), (100, 2), (130, 4)] }, obs := { up.obs with once := [(0, 1, 2), (1, 2, 3), (4, 5, 6), (7, 1, 1)] } }

/-! States for ScrubsAndRepairs. -/

def wBad : State := on { up with net := { bad := [.graph 1 5, .prog 3 9, .addr 0 7, .cam 1 2 3, .vlan 3 5], alarmed := [.prog 3 9] }, fw := up.fw.set 0 { table := [(7, { mac := 5, fid := 1, dest := .port 3, static := true })] } }

/-! States for RegisterInstructions. -/

def wRegs : Vector Word 16 := ((Vector.replicate 16 (0 : Word)).set 2 0x8000000F).set 3 0xFFFFFFF0

def wPf : Frame :=
  { id := 4, die := 3, port := 97, take := 2, stamp := 77, whole := true, bytes := wHead ++ List.replicate 60 0x45
    stage := .running, prog := some 2, init := { win := wHead ++ List.replicate 60 0x45, stack := [⟨0, 0, 0, 14⟩, ⟨1, 14, 14, 20⟩] }
    work := { win := wHead ++ List.replicate 60 0x45, stack := [⟨0, 0, 0, 14⟩, ⟨1, 14, 14, 20⟩], payload := 34 } }

def wEng : Engine := { die := 3, pipe := 0, num := 5, frame := 4, pc := 9, prog := 2, faultAct := 0, regs := wRegs, slots := 3 }

/-- An engine that runs the program word w. -/
def wProg (w : Nat) : State :=
  on { up with
    boot := { up.boot with sb := { board with graph := [{ num := 0, len := .fixed 14, check := .eth }, { num := 1, len := .fixed 20, check := .ipv4 }]
                                              programs := [⟨3, 2, 8, [0, BitVec.ofNat 32 w]⟩] } }
    net := { nextId := 5, frames := [{ wFr with id := 3 }, wPf], engines := [{ wEng with num := 4, frame := 3 }, wEng] } }

/-! States for HeaderAccess. -/

/-- A UDP datagram at header 2. -/
def wUdpWork : Work :=
  { win := wHead ++ List.replicate 20 0x45 ++ List.replicate 40 0x11, stack := [⟨0, 0, 0, 14⟩, ⟨1, 14, 14, 20⟩, ⟨2, 34, 34, 8⟩], payload := 42 }

def wUdpFr (old now : Byte) : Frame :=
  { wPf with init := { wUdpWork with win := patch wUdpWork.win 40 [old, old] }, work := { wUdpWork with win := patch wUdpWork.win 36 [now, now] } }

def wUdp (old now : Byte) : State :=
  let d := (wProg (0x1C * 2 ^ 26 + 2 ^ 24 + 2 * 2 ^ 18)).dev
  on { d with boot := { d.boot with sb := { d.boot.sb with graph := [{ num := 0, len := .fixed 14, check := .eth }, { num := 1, len := .fixed 20, check := .ipv4 }, { num := 2, len := .fixed 8, check := .udp }] } }, net := { d.net with frames := [wUdpFr old now] } }

/-! States for MetadataAndDirectives. -/

def wObjs : List ObjVer := [{ h := 11, num := 1, data := .mcast 5 [1, 2], v := { from_ := some 2 } }, { h := 12, num := 7, data := .mirror { dest := 3, tc := 0, trunc := 0, age := 0 }, v := { from_ := some 2 } },
  { h := 13, num := 2, data :=   .meter { policer := false, cir := 8000, cbs := 5000, pir := 0, pbs := 0 }, v := { from_ := some 2 } }, { h := 14, num := 3, data := .cblock 16, v := { from_ := some 2 } }]

def wObj (w : Nat) : State := on { (wProg w).dev with plc := { objs := wObjs, binds := [⟨1, 11, { from_ := some 2 }⟩, ⟨2, 12, { from_ := some 2 }⟩, ⟨3, 13, { from_ := some 2 }⟩, ⟨4095, 14, { from_ := some 2 }⟩] }, tak := { live := [2] } }

/-! States for MetersCountersAndEnds. -/

def wMet (c p : Int) (aware : Bool) (w : Nat) : State :=
  let s := wObj w
  on { s.dev with plc := { s.dev.plc with objs := [{ h := 13, num := 2, data := .meter { policer := false, cir := 8000, cbs := 5000, pir := 0, pbs := 0, aware := aware }, v := { from_ := some 2 } }] }
                  bkts := [(.meterC 3 13, c), (.meterP 3 13, p), (.meterC 2 13, 5)] }

/-! States for HandedOnAndReplicated. -/

def wEnd : Frame := { wFr with stage := .ended, whole := true, work := { wFr.work with dir := .port 1 } }

def wReq : CopyReq := { kind := .fwd, port := 1, tc := 2, slot := 0 }

def wRepF (q : Nat) : Frame := { wEnd with stage := .handed, admitted := true, todo := [{ wReq with port := q }, { wReq with tc := 3 }] }

def wRep (q : Nat) : State :=
  let s := wTail (wRepF q)
  on { s.dev with flds := (⟨.swPortStatus_discarding, dieOf q + 1, idxOf q, 0⟩, 0) :: s.dev.flds, net := { s.dev.net with copies := [{ id := 1, frame := 3, kind := .fwd, port := 2, tc := 0, slot := 2, sf := false }], nextCopy := 6 } }

/-! States for QueuesAreTended. -/

def wTok : State := on { (wRx 0).dev with net := { tokens := [{ slot := 0, tc := 2, holder := 0, age := 4 }, { slot := 5, tc := 3, holder := 1, age := 1 }, { slot := 0, tc := 2, holder := 0, age := 7 }] } }

def wCopy : Copy := { id := 6, frame := 4, kind := .fwd, port := 1, tc := 2, slot := 0, sf := false }

def wQF (stamp : Nat) : Frame := { wEnd with stage := .replicated, cells := 1, admitted := true, stamp := stamp }

def wQ (c : Copy) (stamp lim : Nat) : State :=
  let s := wTail (wQF stamp)
  on { s.dev with flds := (⟨.swAgeLimit_limit, 1, 2, 0⟩, lim) :: s.dev.flds
                  net := { s.dev.net with copies := [c], nextCopy := 7, tokens := [{ slot := 1, tc := 2, holder := 0, age := 1 }] } }

def wHeld (q : Nat) : State :=
  let s := wQ { wCopy with port := q } 0 0
  on { s.dev with flds := (⟨.swPortStatus_holding, dieOf q + 1, idxOf q, 0⟩, 0x84) :: s.dev.flds }

/-! States for FabricCellsArrive. -/

def wFlight (copy cell : Nat) : Flight := { copy := copy, cell := cell, slot := 33, src := 0, dst := 1, lane := 47, last := true }

def wFly (lim cell : Nat) (c : Copy) : State :=
  let s := wQ { c with port := 33, sent := 3 } 0 0
  on { s.dev with flds := (⟨.fbCtl_cellErrLimit, 2, 0, 0⟩, lim) :: (⟨.fbLaneStatus_state, 2, 47, 0⟩, 1) :: s.dev.flds, net := { s.dev.net with flights := [wFlight 6 cell, wFlight 8 0] } }

def wLost : State :=
  let s := wQ { wCopy with port := 33, sent := 3, got := [(2, 33)] } 0 0
  on { s.dev with net := { s.dev.net with missing := [wFlight 6 1] } }

/-! States for FramesAreNotPreempted. -/

def wEg (q : Nat) (c : Copy) : State :=
  let s := wQ { c with port := q } 0 0
  on { s.dev with flds := (⟨.ptPortStatus_state, dieOf q + 1, idxOf q, 0⟩, 6) :: (⟨.ptPortCtl_enable, dieOf q + 1, idxOf q, 0⟩, 1) :: (⟨.egSched_strict, dieOf q + 1, idxOf q, 0⟩, 0x84) :: (⟨.fpPortStatus_up, 0, q - 128, 0⟩, 1) :: (⟨.fpPortCtl_enable, 0, q - 128, 0⟩, 1) :: (⟨.fpPortCtl_duplex, 0, q - 128, 0⟩, 0) :: s.dev.flds }

def wBusy (q : Nat) (c : Copy) : State := let s := wEg q { c with tx := true, got := if c.got = [] then [(0, 1)] else c.got }; on { s.dev with net := { s.dev.net with tx := [(q, { busy := true, held := [7] })] } }

/-! States for FramesLeaveTheirPort. -/

def wHere : Copy := { wCopy with port := 127, got := [(0, 1)], qseq := 1 }

def wGo : Dev := (wEg 127 wHere).dev

/-- A transmission whose cells are not all there as it ends. -/
def wShort : State := wBusy 127 { wCopy with got := [(1, 1)] }

def wOver : Frame := { wQF 0 with work := { (wQF 0).work with win := wHead ++ List.replicate 300 0 } }

def wOverAt : State :=
  let s := wBusy 127 { wCopy with got := [(1, 1), (0, 1)] }
  on { s.dev with flds := (⟨.ptMacCtl_maxlen, 4, 31, 0⟩, 100) :: s.dev.flds, net := { s.dev.net with frames := [wOver] } }

/-! States for GatesFollowTheirLists. -/

def wGate (code : Nat) : State := on (at_ { up with wides := [(⟨.egGcl1, 4, 31, 0⟩, code), (⟨.egGateCycle, 4, 31, 0⟩, 2000), (⟨.egGateBase, 4, 31, 0⟩, 500)] } [(⟨.egGateCtl_adminLen, 4, 31, 0⟩, 1), (⟨.egGateCtl_adminGates, 4, 31, 0⟩, 0x3C)])

def wPend : State := on { (at_ (wGate 0).dev [(⟨.egGateCtl_gateEn, 4, 31, 0⟩, 1)]) with net := { gates := [(127, { pending := some (0, 3) }), (5, { running := true })] }, tm := { ta := [(3, { kind := 2, t := 0, arg := 127 })] } }

def wRunL : State := on { wPend.dev with net := { gates := [(127, { running := true, len := 1, cycle := 1000 })] } }

/-- Every timer entry in use. -/
def wFullUp : State := on { (wGate 0x10055).dev with tm := { ta := (List.range 256).map (fun k => (k, { kind := 2, t := 0 })) } }

/-! States for DeferredMirrorsGo. -/

def wDefer (age : Nat) : State :=
  let s := wQ { wCopy with kind := .mirror 15, deferred := true, slot := 34, sf := true } (2 ^ 63) 0
  on { s.dev with flds := (⟨.swPortStatus_discarding, 1, 1, 0⟩, 0) :: s.dev.flds, plc := { objs := [{ h := 9, num := 15, data := .mirror { dest := 1, age := age } }] } }

/-! States for EntriesAreLearnedAndSwept. -/

def wReqL : LearnReq := { mac := 0x1234, fid := 5, port := 7, sticky := true, egress := false }

def wSlot : Nat := ((slotsOf (nBuckets 0) (fwKey 5 0x1234)).head?).getD 0

def wLearn (e : Option AddrEnt) : State := on { up with fw := up.fw.set 3 { table := (match e with | some x => [(wSlot, x), (wSlot + 1, { mac := 9, fid := 9, dest := .port 7 }), (wSlot + 2, { mac := 10, fid := 5, dest := .port 7, static := true })] | none => []), queue := [wReqL, wReqL], flushing := some (7, 5, 3), sweepAt := wSlot, notices := [9, 7, 8], dup := [⟨1, 2, 3⟩], recov := [(6, ⟨1, 2, 3⟩)] } }

def wEnt : AddrEnt := { mac := 0x1234, fid := 5, dest := .port 7, strike := true }

/-! States for BatchesOpenCommitAbort. -/

def wOpen (l : List ObjVer) (cs : List Commit) : State := on { (at_ up [(⟨.tkStatus_batchOpen, 0, 0, 0⟩, 1)]) with plc := { objs := l }, tak := { live := [0], commits := cs } }

def wStaged : List ObjVer := [{ h := 3, data := .cblock 4, v := { pending := true, owner := 1 } }]

def wTime : State := on { (wOpen wStaged []).dev with wides := [(⟨.tkAtTime, 0, 0, 0⟩, 200000)] }

/-- The same with every timer entry in use, and with a batch already being committed. -/
def wNoTimer : State := on { (wOpen wStaged []).dev with tm := wFullUp.dev.tm }

def wCommitting : State := on { (wOpen wStaged []).dev with tak := { live := [0], committing := true } }

def wCommit : Commit := { owner := 1, batch := true, step := .active, n := 1 }

def wHeavy : State := on { (wOpen wStaged [wCommit, { owner := 7 }]).dev with tak := { live := [0, 1, 2, 3, 4, 5, 6, 7, 8, 9, 10, 11, 12, 13, 14, 15], commits := [wCommit, { owner := 7 }] } }

/-! States for TakesAreSealedAndSwitched. -/

def wCs (c : Commit) : State := on { (wOpen wStaged [c]).dev with plc := { objs := wStaged ++ [{ h := 5, data := .cblock 2, v := { from_ := none, enders := [1] } }], evicts := [(0, 7, { mac := 4, fid := 4, dest := .drop, static := true, v := { pending := true, owner := 1 } })], outq := [{ idx := 0, handle := 3, op := 1, irq := true, batch := true, owner := 1, code := some 2 }] } }

def wSw (steps : CommitStep) (cur : List Nat) : State := on { (wCs { wCommit with step := steps, s := 0 }).dev with tak := { live := [0], commits := [{ wCommit with step := steps, s := 0 }], current := ⟨#[cur[0]?.getD 0, cur[1]?.getD 0, cur[2]?.getD 0, cur[3]?.getD 0], rfl⟩ } }

def wLive : State := on { up with tak := { live := [3, 4], reclaim := [2] }, plc := { objs := [{ h := 3, data := .cblock 4, v := { from_ := some 1, until_ := some 3 } }, { h := 4, data := .cblock 4, v := { until_ := some 4 } }] } }

/-! States for TreesAndTheIntentRing. -/

def wJob (j : List TreeJob) : State := on { (wOpen wStaged []).dev with plc := { objs := wStaged, jobs := j } }

def wRing : State := on (at_ up [(⟨.plTail_tail, 0, 0, 0⟩, 9), (⟨.plHead_head, 0, 0, 0⟩, 6), (⟨.plCtl_ringLog2, 0, 0, 0⟩, 4), (⟨.plCtl_enable, 0, 0, 0⟩, 1)])

/-! States for IntentsAreStaged. -/

/-- Bytes from fields given as widths in bytes and values. -/
def wBytes (l : List (Nat × Nat)) : List Byte := l.flatMap (fun x => toBytes (leBytes x.1 x.2))

/-- A descriptor of Table 11-2: HANDLE, OP, KIND, FLAGS, COUNT, ARG, PAYLOAD and LENGTH. -/
def wIntentDesc (handle op kind flags count arg addr len : Nat) : List Byte :=
  wBytes [(4, handle), (1, op), (1, kind), (1, flags), (1, 0), (4, count), (4, arg), (8, addr), (4, len), (36, 0)]

def wRule : RuleRec := { id := 8, priority := 1, result := 0, value := 5, mask := 255 }

def wPat : PatRec := { id := 8, anchor := 0, value := [1, 2], mask := [255, 255] }

def wRuleB (x : RuleRec) : List Byte := wBytes [(4, x.id), (4, x.priority), (8, x.result), (20, x.value), (20, x.mask), (8, 0)]

def wPatB (x : PatRec) : List Byte :=
  wBytes [(2, x.id), (1, x.value.length), (1, x.anchor), (1, x.lo), (1, x.hi), (2, 0), (64, x.value.headD 0 + 256 * (x.value.getD 1 0)),
    (64, x.mask.headD 0 + 256 * (x.mask.getD 1 0)), (8, 0)]

/-- Group headers of ports 1, or 1 and 2: one field of 160 bits, and none. -/
def wHdrR (ports : Nat) : List Byte := wBytes [(1, 0), (1, 1), (2, 0), (20, ports), (4, 0xC00), (60, 0), (8, 0)]

def wHdrP : List Byte := wBytes [(1, 0), (1, 0), (2, 0), (20, 2), (64, 0), (8, 0)]

def wIntent (l : List ObjVer) : State := on { (at_ wRing.dev [(⟨.tkStatus_batchOpen, 0, 0, 0⟩, 1)]) with plc := { objs := l }, tak := { live := [0] } }

def wHd (h op : Nat) : IntentHead := { handle := h, op := op, batch := true }

def wGroup : ObjVer := { h := 3, data := .rules false 160 [{ source := 0 }] [1] }

def wPats : ObjVer := { h := 4, data := .patterns [1] }

def wHas : State := on { (wIntent []).dev with plc := { objs := [wGroup, wPats, { h := 5, data := .cblock 9 }, { h := 6, data := .mirror { dest := 1 } }], rules := [{ g := 3, r := wRule, room := 1 }, { g := 3, r := { wRule with id := 9 }, room := 2 }], pats := [{ g := 4, r := wPat, room := 3 }] } }

/-- Whether a descriptor spells an intent that its checks pass and that stages with nothing left to wait for. -/
def wStages (s : State) (i : Intent) (desc : List Byte) (payload : Option (List Byte)) : Bool :=
  desc.length = 64 && s.dev.intentOf desc payload == i && s.dev.checkIntent i == none && s.dev.plc.jobs.isEmpty &&
    (match s.dev.quiet.freshOwner.2.stage i s.dev.tak.nextOwner with | .ok _ [] => true | _ => false)

/-! States for IntentsFailAndMovesRun. -/

/-- Whether a descriptor spells an intent that its checks fail. -/
def wFails (op : Nat) (desc : List Byte) : Bool :=
  let i := wHas.dev.intentOf desc none
  desc.length = 64 && (i.head.op == op || i.head.op == 0 || 8 < i.head.op) && (wHas.dev.checkIntent i).isSome

def wWaitI : State := on { wHas.dev with plc := { wHas.dev.plc with wait := some ⟨wHd 77 7, .bind 3⟩ } }

/-- A multicast group that has loaded one copy slot of PD0 with 7,000,000,000 bytes, and is to be planned anew on PD1. -/
def wMulti : State := on { wHas.dev with plc := { objs := [{ h := 7, num := 3, data := .mcast 5 [1, 2] }], slotBytes := [(0, 33, 7, 7000000000), (1, 33, 7, 1)], again := [.plan 1 7] } }

def wMeas : State := on { up with plc := { slotBytes := [(0, 33, 1, 5), (2, 34, 1, 6), (0, 35, 2, 7)] } }

/-! States for TimeTicksAndSteers. -/

def wIsl (l : List (Nat × Island)) : Vector Island 5 := l.foldl (fun v x => v.setIfInBounds x.1 x.2) (Vector.replicate 5 {})

def wTick : State := on { up with tm := { isl := wIsl [(0, { t := 2 ^ 96 - 1, slew := -5, slewTicks := 1 }), (3, { t := 3, inc := 5, slew := -50, slewTicks := 65536 }), (4, { t := 2 ^ 40, ticks := 9 })] } }

def wRole (r : Nat) (l : List (FKey × Nat)) : State := on (at_ wTick.dev (l ++ [(⟨.duStatus_role, 0, 0, 0⟩, r), (⟨.duStatus_duo, 0, 0, 0⟩, 1)]))

def wLostC (v : Nat) : State := wRole 0 [(⟨.tmStatus_timeclkLost, 0, 0, 0⟩, v)]

/-! States for ClapperCorrectsAndSteps. -/

def wClap (st : Option Step) (t0 t3 al : Nat) : State := on (at_ { up with tm := { isl := wIsl [(0, { t := t0 }), (3, { t := t3 }), (4, { t := 5 * 2 ^ 52 + 77, ticks := 20000 })], incPend := some (0x0200000007, 10000), step := st } } [(⟨.tmDieStatus_aligned, 1, 0, 0⟩, al), (⟨.tmDieStatus_aligned, 4, 0, 0⟩, al), (⟨.tmDieStatus_missed, 1, 0, 0⟩, 1)])

/-! States for ActionsAreArmedAndRun. -/

def wTa (ta : List (Nat × TaEntry)) (l : List (FKey × Nat)) : State := on (at_ { up with tm := { wTick.dev.tm with ta := ta } } l)

def wFull : List (Nat × TaEntry) := (List.range 256).map (fun k => (k, { kind := 6, t := 5 }))

def wAct (e : TaEntry) (l : List (FKey × Nat)) : State := let s := wTa [(9, e), (12, { kind := 6, t := 900 })] l; on { s.dev with tm := { s.dev.tm with ppsMode := 2, isl := wIsl [] } }

def wTrim : TaEntry := { kind := 5, t := 0, arg := regOffset .duCtTrim 0 0 0, mask := 0xF0F0, value := 0xABCD, dispatched := true }

/-! States for PpsFollowsTheSecond. -/

def wPps (m en snap : Nat) (e : Option Nat) : State := on (at_ { up with tm := { isl := wIsl [(4, { t := 123456789012345678901234, ticks := 2 ^ 28 + 5 })], lastEdge := e, ppsOut := true, ppsMode := m } } [(⟨.tmCtl_ppsOutMode, 0, 0, 0⟩, m), (⟨.tmCtl_ppsInEn, 0, 0, 0⟩, en), (⟨.tmCtl_snap, 0, 0, 0⟩, snap)])

/-- At a whole second, with a pulse that rose 999 µs ago and one that rose 1 ms ago. -/
def wSecond (m rose : Nat) : State :=
  let s := wPps m 0 0 none
  on { s.dev with tm := { s.dev.tm with isl := wIsl [(4, { t := 7 * 1000000000 * nsUnit, ticks := 1000000 })], ppsRose := some rose }
                  flds := (⟨.tmCtl_ppsWidth, 0, 0, 0⟩, 1000) :: s.dev.flds }

/-! States for LanesRestAndWake. -/

def wLn (l : List (FKey × Nat)) (x : Fab) : State := on (at_ { up with fab := x, boot := { up.boot with sb := { board with idle := [(0, 3)] } }, tm := { isl := wIsl [(3, { ticks := 5000000 })] } } l)

def wPark : State := wLn ((List.range 48).map (fun k => (⟨.fbLaneStatus_state, 4, k, 0⟩, if k % 3 = 0 then 2 else 0)) ++ (List.range 48).map (fun k => (⟨.fbLaneStatus_txIdle, 4, k, 0⟩, 0)) ++ [(⟨.fbLinkCtl_minAwake, 4, 0, 0⟩, 5)]) { sent := [(3, 0, 800), (0, 3, 4)] }

def wExit (idle base strikes out : Nat) : State := wLn ([(⟨.fbLaneStatus_state, 4, 47, 0⟩, 0), (⟨.fbLaneStatus_txIdle, 4, 47, 0⟩, idle), (⟨.fbLaneStatus_txIdle, 1, 47, 3⟩, 0), (⟨.lnTestStatus_baseline, 1, 47, 4⟩, base), (⟨.lnTestStatus_baseline, 4, 47, 1⟩, base)] ++ (List.range 47).map (fun k => (⟨.fbLaneStatus_state, 4, k, 0⟩, if k < out then 2 else 0)) ++ (List.range 47).map (fun k => (⟨.fbLaneStatus_lastCause, 4, k, 0⟩, if k < out then 2 else 0))) { lanes := [{ die := 3, peer := 0, lane := 47, strikes := strikes }] }

/-! States for LanesLeaveAndReturn. -/

def wPair (sa sb : Nat) : State := wLn ([(⟨.fbLaneStatus_state, 4, 47, 0⟩, sa), (⟨.fbLaneStatus_state, 1, 47, 3⟩, sb), (⟨.fbLaneStatus_lastCause, 1, 47, 3⟩, 6)] ++ (List.range 47).map (fun k => (⟨.fbLaneStatus_state, 4, k, 0⟩, 0))) { lanes := [{ die := 0, peer := 3, lane := 47, next := 4 }] }

/-- The same with OUT set at PD3. -/
def wOut (sa sb : Nat) : State := on (at_ (wPair sa sb).dev [(⟨.fbLaneCtl_out, 4, 47, 0⟩, 1)])

/-! States for RolesAreClaimedAndLost. -/

def wDuo (role : Nat) (x : Duo) (l : List (FKey × Nat)) : State := on (at_ { up with duo := x } (l ++ [(⟨.duStatus_duo, 0, 0, 0⟩, 1), (⟨.duStatus_role, 0, 0, 0⟩, role), (⟨.duStatus_ctUp, 0, 0, 0⟩, 1), (⟨.duStatus_ctLanes, 0, 0, 0⟩, 15)]))

/-! States for MessagesCrossTheLink. -/

/-- A standby unit whose peer beats as active. -/
def wActive : State := wDuo 2 { beat := some ⟨3, false, false, false, 0, 0, 0⟩ } []

/-! States for RegistersAreReadAndWritten. -/

def wDark6 : State := on { at_ up [] with flds := (⟨.pwStatus_railOn, 7, 0, 0⟩, 0) :: up.flds }

def wIrq : State := on (at_ { up with flds := (⟨.msixTable_dword, 0, 127, 0⟩, 0) :: (⟨.msixTable_dword, 0, 3, 0⟩, 0) :: up.flds } [(⟨.hiIrqEnableLo_enable, 0, 0, 0⟩, 1), (⟨.hiIrqCauseLo_cause, 0, 0, 0⟩, 0x80000001)])

/-! States for MailboxesMoveWideValues. -/

def wMail (w sel part : Nat) (sn : List (Nat × Snapshot)) : State := on (at_ { up with snaps := sn } [(⟨.wmbSel_selector, w, 0, 0⟩, sel), (⟨.wmbSel_part, w, 0, 0⟩, part), (⟨.wmbCtl_valid, w, 0, 0⟩, 1), (⟨.wmbD_data, w, 0, 0⟩, 0xDEADBEEF), (⟨.wmbD_data, w, 1, 0⟩, 5), (⟨.wmbD_data, w, 2, 0⟩, 6), (⟨.wmbD_data, w, 3, 0⟩, 7)])

/-! States for ChannelsMoveData. -/

def wCh (st : Nat) (c : DmChan) (l : List (FKey × Nat)) : State := on (at_ { up with dma := { chans := (Vector.replicate 16 ({} : DmChan)).set 15 c } } (l ++ [(⟨.dmChStatus_state, 0, 15, 0⟩, st), (⟨.dmChCtl_retryLimit, 0, 15, 0⟩, 0)]))

/-- A transfer of eight bytes from host memory to host memory. -/
def wDesc : DmDesc := { src := 64, dst := 4096, srcStep0 := 8, dstStep0 := 8, count0 := 1, elem := 1, space := 0 }

/-- The bytes of a channel descriptor (Table 17-1). -/
def wChanB (x : DmDesc) : List Byte :=
  wBytes [(8, x.src), (8, x.dst), (4, x.srcStep0.toNat), (4, x.srcStep1.toNat), (4, x.srcStep2.toNat), (4, x.dstStep0.toNat),
    (4, x.dstStep1.toNat), (4, x.dstStep2.toNat), (2, x.count0), (2, x.count1), (2, x.count2), (1, x.elem), (1, x.space), (16, x.tail)]

def wFail : DmFail := { write := false, device := false, type := 0xB, addr := 64 }

/-! States for RingsMoveFrames. -/

def wRings (l : List (FKey × Nat)) (q : List RxItem) : State := on (at_ { (wRx 0).dev with dma := { rxq := q } } (l ++ [(⟨.dmTxCtl_enable, 0, 7, 0⟩, 1), (⟨.dmTxPtr_head, 0, 7, 0⟩, 15), (⟨.dmTxPtr_tail, 0, 7, 0⟩, 3), (⟨.dmTxCtl_ringLog2, 0, 7, 0⟩, 4), (⟨.dmRxCtl_enable, 0, 0, 0⟩, 1), (⟨.dmRxPtr_head, 0, 0, 0⟩, 15), (⟨.dmRxPtr_tail, 0, 0, 0⟩, 3), (⟨.dmRxCtl_ringLog2, 0, 0, 0⟩, 4), (⟨.dmRxCtl_bufKib, 0, 0, 0⟩, 1)]))

def wItem : RxItem := { bytes := List.replicate 1500 9, inport := 5, tc := 3, malformed := false, code := 7, hdr := 2, stamp := 2 ^ 90, take := 3 }

/-- A transmit descriptor of Table 17-5: LEN, MODE and a reserved byte. -/
def wTxB (len mode reserved : Nat) : List Byte := wBytes [(8, 640), (2, len), (1, mode), (1, reserved), (20, 0)]

/-! States for RecordsAreKeptAndDelivered. -/

/-- A window of 1,000 µs of port 127 that has passed, and one that runs. -/
def wWindow (now us : Nat) : State :=
  on { at_ up [(⟨.obBwCtl_windowUs, 4, 31, 0⟩, us)] with
    obs := { up.obs with bw := [(127, 100, 20, 3, 4, 5), (3, 1, 2, 3, 4, 5)], bwAt := [(127, 5000000)] }
    tm := { isl := wIsl [(3, { t := now * nsUnit })] }, wides := [(⟨.obBw, 4, 31, 2⟩, 70)] }

def wEv (time : Nat) : EvRec := { time := time, code := 0x1001, source := 6, cls := 3, seq := 4, payload := 99 }

def wRecs (r : Nat) (x : Ring) (l : List (FKey × Nat)) : State := on (at_ { up with obs := { rings := (Vector.replicate 5 {}).setIfInBounds r x }, tm := { isl := wIsl [(4, { t := 2 ^ 60 })] }, bkts := [(.emission 1, 500)] } (l ++ [(⟨.obDCtl_enable, 0, 0, 0⟩, 1)]))

def wCo : Coalesced := { code := 0x0704, cls := 2, source := 1, count := 9, first := 2 ^ 50, last := 2 ^ 51 }

def wInc (r : Nat) : State := wRecs r { incident := true } [(⟨.obIncCtl_fillTrigger, ringWin r, 0, 0⟩, 75)]

/-! States for SecurityRequestsRun. -/

def wSc (st : Nat) (x : Sec) (l : Nat) : State := on (at_ { up with sec := x, wides := [(⟨.scOutLen, 0, 0, 0⟩, l)] } [(⟨.scStatus_state, 0, 0, 0⟩, st)])

/-- The first bytes of a key command of Table 19-7: MAGIC, OP, SLOT and AUTH_SLOT. -/
def wKeyB (magic op slot auth : Nat) : List Byte := wBytes [(4, magic), (1, op), (1, slot), (1, auth), (1, 0), (16, 0), (32, 7), (64, 5)]

/-- Engine 5 of pipe 0 of PD3 after a command. -/
def engAfter (o : Host.Outcome State Fault Refusal) : Engine := ((got o).engine? 3 0 5).getD wEng

/-- Register r of that engine. -/
def regAfter (o : Host.Outcome State Fault Refusal) (r : Fin 16) : Word := (engAfter o).reg r

/-! The engine holds g2 = 0x8000000F, g3 = 0xFFFFFFF0 and 0 elsewhere; its pc is 9. -/

theorem test_add_wraps :
    regAfter (exec (.add 3 0 5 5 2 3) (wProg 0b00001001010010001100000000000000)) 5 = 0x7FFFFFFF := by decide +kernel

theorem test_sub_wraps : regAfter (exec (.sub 3 0 5 2 2 3) (wProg 0x0C88C000)) 2 = 0x8000001F := by decide +kernel

theorem test_shl_low_five_bits : regAfter (exec (.shl 3 0 5 5 3 2) (wProg 0x1D4C8000)) 5 = 0xFFF80000 := by decide +kernel

theorem test_shr_fills_with_zero : regAfter (exec (.shr 3 0 5 5 3 2) (wProg 0x214C8000)) 5 = 0x1FFFF := by decide +kernel

theorem test_addi_sign :
    regAfter (exec (.addi 3 0 5 5 2 0x3FFF0) (wProg 0b00100101010010111111111111110000)) 5 = 0x7FFFFFFF := by decide +kernel

theorem test_andi_zero_extends : regAfter (exec (.andi 3 0 5 5 3 0x3FFFF) (wProg 0x294FFFFF)) 5 = 0x3FFF0 := by decide +kernel

theorem test_movi_sign : regAfter (exec (.movi 3 0 5 5 0x3FFFF) (wProg 0x3543FFFF)) 5 = 0xFFFFFFFF := by decide +kernel

theorem test_movhi_keeps_low : regAfter (exec (.movhi 3 0 5 2 0x1234) (wProg 0x38801234)) 2 = 0x1234000F := by decide +kernel

theorem test_ext_beyond_31 :
    regAfter (exec (.ext 3 0 5 5 3 28 7) (wProg 0b01000101010011000000001110000111)) 5 = 0xF := by decide +kernel

theorem test_ins_drops : regAfter (exec (.ins 3 0 5 2 3 28 7) (wProg 0x488C0387)) 2 = 0xF := by decide +kernel

/-- Base 12 is offset 0: bytes 12 and 13 of the frame are 08 00, and the unnamed register is not read. -/
theorem test_hld_network_order : regAfter (exec (.hld 3 0 5 5 12 0 1 12) (wProg 0x6170100C)) 5 = 0x0800 := by decide +kernel

/-- A word that is not the one at the pc does not issue. -/
theorem test_other_word_does_not_issue : engAfter (exec (.add 3 0 5 5 2 3) (wProg 0x0C88C000)) = wEng := by decide +kernel

/-- Comparisons are unsigned, and an offset counts from the next word. -/
theorem test_blt_unsigned :
    (engAfter (exec (.blt 3 0 5 2 3 3) (wProg 0b11001000000010001100000000000011))).pc = 13 := by decide +kernel

theorem test_beq_untaken : (engAfter (exec (.beq 3 0 5 2 3 7) (wProg 0xC008C007))).pc = 10 := by decide +kernel

theorem test_bbs_top_bit :
    (engAfter (exec (.bbs 3 0 5 2 31 3) (wProg 0b11011000100000000001111100000011))).pc = 13 := by decide +kernel

theorem test_jtab_above_n : (engAfter (exec (.jtab 3 0 5 2 4) (wProg 0xE4810000))).pc = 14 := by decide +kernel

/-- INSB takes two slots (Table 7-4). -/
theorem test_insb_two_slots : (engAfter (exec (.insb 3 0 5 2 12 0 0 12) (wProg 0x68B0000C))).slots = wEng.slots + 2 := by
  decide +kernel

/-- The engine's program word is METER g4, slot 40, of Table 7-10, and the slot is bound to a meter of 5,000 bytes. -/
def wTelegram : State :=
  on { (wProg 0x9D000028).dev with plc := { objs := [{ h := 13, num := 2, data := .meter { policer := false, cir := 8000, cbs := 5000, pir := 8000, pbs := 5000 } }], binds := [⟨40, 13, {}⟩] } }

/-- METER takes four slots and colours a frame green while both buckets hold it (R150, R232). -/
theorem test_meter_green :
    regAfter (exec (.meter 3 0 5 4 40) wTelegram) 4 = 0 ∧
    (engAfter (exec (.meter 3 0 5 4 40) wTelegram)).slots = wEng.slots + 4 ∧
    (engAfter (exec (.meter 3 0 5 4 40) wTelegram)).pc = 10 := by decide +kernel

/-! ### Single commands -/

/-- R317: the sag alarm sets its sticky bit. -/
theorem test_sag_alarm : (after (.vin12SagAlarm 11399) (on up)).fld .pwStatus_vin12LowSticky 7 = 1 := by decide +kernel

/-- R33: the dies are powered one at a time, the lowest first. -/
theorem test_die_power_up :
    (after .diePowerUp wPower).railOn 2 = true ∧ (after .diePowerUp wPower).railOn 4 = false := by decide +kernel

/-- R36: the storyboard applied, the boot ends in a cut to the run scene. -/
theorem test_storyboard_load :
    let s := on { wLoad.dev with boot := { wLoad.dev.boot with sb := { active := 1, slots := List.replicate 128 .unused } } }
    (after .storyboardLoadComplete s).boot.applied = true ∧ (after .storyboardLoadComplete s).tak.live = [0] := by
  decide +kernel

/-- R320, Table 17-3: a running channel ends with POWER_DOWN, 8. -/
theorem test_d3hot_ends_channel : (after .pcieD3hotEnter wRun).cd .dmChStatus_code 15 = 8 := by decide +kernel

/-- A message pending over D3hot leaves at its exit. -/
theorem test_d3hot_exit_sends : Out.msix 31 ∈ (after .pcieD3hotExit wD3).out := by decide +kernel

/-- R335: a rail fault takes the rail's ON bit and sets its sticky bit. -/
theorem test_rail_fault :
    (after (.railFault 3) (on up)).railOn 3 = false ∧ bitAt ((after (.railFault 3) (on up)).fld .pwStatus_railFaultSticky 7) 3 = 1 := by
  decide +kernel

/-- R351: a Set-alias write of 1 and a Clear-alias write of 1 of a bit of an RW field; a normal read shows it. -/
theorem test_alias_set :
    (after (.registerWrite (BitVec.ofNat 28 (barOffset 1 0 (regOffset .duCtTrim 0 0 0))) 5 .dword .nothing) (on up)).fld
      .duCtTrim_trim 0 = 5 := by decide +kernel

/-- R348: a write to the window of a die without power is an error of type UNPOWERED, 2. -/
theorem test_write_unpowered :
    ((after (.registerWrite (BitVec.ofNat 28 (barOffset 0 1 0)) 7 .dword .nothing) wDark6).errlog.map (·.type)) = [2] := by
  decide +kernel

/-- R348: such a read answers an abort and is counted. -/
theorem test_read_unpowered :
    (after (.rcRead (BitVec.ofNat 28 (barOffset 0 1 0)) .dword) wDark6).wide .hiReadAbort 0 = 1 := by decide +kernel

/-- An enable set while its cause is latched sends the message. -/
theorem test_irq_enable : Out.msix 31 ∈ (after (.irqEnableWrite false 0x80000001) wIrq).out := by decide +kernel

/-- R400, Table 19-6: an output buffer shorter than the slate refuses the request with 6. -/
theorem test_slate_needs_room : (after .scReadSlate (wSc 0 {} 0)).sec.run.map (·.code) = some 6 := by decide +kernel

/-- R401: ten minutes after it was given a challenge is no longer valid. -/
theorem test_challenge_expires :
    (after .challengeExpire (on { (wSc 1 { challenge := some (5, 0) } 0).dev with tm := { isl := wIsl [(4, { t := 600000000000 * 2 ^ 32 })] } })).sec.challenge
      = none := by decide +kernel

/-! ### Ill-formed terms are refused -/

theorem test_wf_accepts : Instr.wf (.lnTestStart (.fabric 0 3 47) 0 0 0) = true := by decide

theorem test_wf_line_slot : Instr.wf (.lnTestClear (.line 128)) = false := by decide
theorem test_wf_fabric_self : Instr.wf (.lnTestClear (.fabric 2 2 0)) = false := by decide
theorem test_wf_cont_lane : Instr.wf (.lnTestClear (.cont 4)) = false := by decide
theorem test_wf_bad_cam : BadWord.ok (.cam 0 0 12288) = false := by decide
theorem test_wf_bad_prog : Instr.wf (.clWordRewrite (.prog 0 16384)) = false := by decide
theorem test_wf_bad_addr : BadWord.ok (.addr 3 5242880) = false := by decide
theorem test_wf_bad_graph : BadWord.ok (.graph 4 0) = false := by decide
theorem test_wf_bad_vlan : BadWord.ok (.vlan 0 4096) = false := by decide
theorem test_wf_bad_dup : BadWord.ok (.dup 0 65536) = false := by decide
theorem test_wf_bad_stream : BadWord.ok (.stream 0 16384) = false := by decide
theorem test_wf_channel_descriptor : Instr.wf (.dmDescFetchDone 0 (List.replicate 63 0)) = false := by decide
theorem test_wf_transmit_descriptor : Instr.wf (.dmTxFrame (List.replicate 31 0) none {}) = false := by decide
theorem test_wf_access_data : Instr.wf (.dmAccessComplete 0 (List.replicate 65 0) .nothing) = false := by decide
theorem test_wf_intent_length : Instr.wf (.intentDelete (wIntentDesc 1 3 1 0 0 0 0 0 ++ [0]) none) = false := by decide +kernel
theorem test_wf_intent_op : Instr.wf (.intentDelete (wIntentDesc 1 4 1 0 0 0 0 0) none) = false ∧
    Instr.wf (.intentDelete (wIntentDesc 1 9 1 0 0 0 0 0) none) = true := by decide +kernel
theorem test_wf_image : Instr.wf (.imWriteStart { bytes := List.replicate 255 0 } true) = false := by decide +kernel
theorem test_wf_key_command : Instr.wf (.scKeyCommand (some [0])) = false := by decide
theorem test_wf_head_port : Instr.wf (.frameHeadArrival 132 [] 0 0 []) = false := by decide
theorem test_wf_read_word : Instr.wf (.frameHeadArrival 0 [] 0 0 [.prog 4 0]) = false := by decide
theorem test_wf_service_port : Instr.wf (.serviceChannelEntry 127 {}) = false := by decide
theorem test_wf_tail_port : Instr.wf (.frameTailEnd 132 {} true true {} false) = false := by decide
theorem test_wf_more_bytes : Instr.wf (.cellWritten 132 ⟨[0], []⟩) = false := by decide
theorem test_wf_reload : Instr.wf (.programWordReload 0 16384) = false := by decide
theorem test_wf_scrub : Instr.wf (.memoryScrubPass 0 [.tree 4 0]) = false := by decide
theorem test_wf_sweep : Instr.wf (.sweeperVisit 0 5242880) = false := by decide
theorem test_wf_stream : Instr.wf (.streamReset 0 16384) = false := by decide
theorem test_wf_measure : Instr.wf (.copySlotMeasure 0 (2 ^ 32)) = false := by decide
theorem test_wf_drift : Instr.wf (.driftCheck 0 [(0, 48, 0)]) = false := by decide
theorem test_wf_checker_bits : Instr.wf (.lnCheckerLock (.line 0, List.replicate 96 true)) = false := by decide
theorem test_wf_fabric_pair : Instr.wf (.fabricCellMissing 2 2) = false := by decide
theorem test_wf_move : Instr.wf (.sequencerMove (.cam 0 4 [] 0)) = false := by decide
theorem test_wf_static_index : Instr.wf (.staticEntryRewrite 0 5242880) = false := by decide
theorem test_wf_flush_port : Instr.wf (.flushNotice 0 132) = false := by decide
theorem test_wf_forget_source : Instr.wf (.dupForget 0 (2 ^ 48)) = false := by decide
theorem test_wf_lane_pair : Instr.wf (.laneParkWindow 1 1) = false := by decide

/-! ### Witnesses of the statements that speak of every command -/

theorem wit_StepRunsFront : State.reset.pending = [] := by decide

/-- A key is programmed: the command writes the OTP. -/
def wOtp : State := wSc 1 { run := some ⟨4, 1, .program 2 12⟩ } 0

theorem wit_OtpBitsOnlyGrow : ∃ t, exec (.scRequestDone true) wOtp = .next t := ⟨_, rfl⟩

theorem wit_OtpMarkerNeedsBegun :
    Otp.sound { wOtp with pending := [.scRequestDone true] }.otp ∧
    ∃ t, step { wOtp with pending := [.scRequestDone true] } = .next t := ⟨by unfold Otp.sound; decide, _, rfl⟩

theorem wit_StorageFrame :
    Instr.touchesStore (.railFault 3) = false ∧ (∃ t, exec (.railFault 3) (on up) = .next t) ∧
    (∃ t, exec (.imWriteStart wImgW true) wStart = .next t) ∧
    ∃ t, exec (.imFlashOpComplete .flashError) (wWriting 2 { img := wImgW }) = .next t :=
  ⟨rfl, ⟨_, rfl⟩, ⟨_, rfl⟩, _, rfl⟩

theorem wit_NoLinkNoEffect : Instr.hostAccess .duFeed = true ∧ State.reset.dev.hostUp = false := by decide

/-! ### Witnesses that rest on a signature that verifies -/

/-- A body of 64 bytes. -/
def wBody : List Byte := List.replicate 64 7

/-- An image header for that body under the vendor key 5 in slot 0. -/
def wGood : ImgHeader := { keyIndex := 0, sequence := 7, length := 64, pubkey := 5, digest := digestOf wBody }

/-- A bank with that image. -/
def wGoodBank : BankData := { hdr := some wGood, body := some (wBody, []) }

/-- An OTP whose slot 0 holds the hash of that key. -/
def wGoodOtp : Otp := { slots := (Vector.replicate 4 {}).set 0 { content := keyHash 5, begun := true, marker := true } }

theorem wit_bank_passes (hv : Config.headerVerifies wGood [] = true) : bankResult wGoodOtp true wGoodBank = 0 := by
  simp [bankResult, wGoodBank, wGood, ImgHeader.lengthOk, Otp.holds, Otp.slot, wGoodOtp, KeySlot.dead, KeySlot.broken,
    Otp.rollback, lastValue] at *
  simp [hv]

/-- The state in which BANK_VERIFY_DONE chooses that bank. -/
def wChoose : State := { dev := { boot := { run := true, todo := [.a, .b], flashOk := true } }, flash := { a := wGoodBank }, otp := wGoodOtp }

theorem wit_BankChosen_good (hv : Config.headerVerifies wGood [] = true) (hs : sbCheck (boardOf wGood wBody) = 0) :
    wChoose.dev.boot.todo = [.a, .b] ∧
    bankResult wChoose.otp (true && wChoose.dev.boot.flashOk) (Flash.bank wChoose.flash .a) = 0 ∧
    (Flash.bank wChoose.flash .a).hdr = some wGood ∧ (Flash.bank wChoose.flash .a).body = some (wBody, []) ∧
    sbCheck (boardOf wGood wBody) = 0 :=
  ⟨rfl, wit_bank_passes hv, rfl, rfl, hs⟩

/-- An image in host memory: the header of Table 2-7 with a body of 64 bytes, LENGTH 64, SEQUENCE 7 and the key 5. -/
def wGoodImg : Image :=
  { bytes := wBytes [(4, 0x42535856), (2, 1), (1, 0), (1, 0), (4, 7), (4, 64), (8, 0), (4, 0), (4, 0), (64, 0), (64, 5), (96, 0)] }

/-- The header of that image, field by field. -/
theorem test_header_of_bytes :
    imgHdr wGoodImg = { keyIndex := 0, sequence := 7, length := 64, pubkey := 5, digest := 0 } := by decide +kernel

/-- An image write that passes its checks. -/
def wGoodStart : State :=
  { on (at_ { up with boot := { up.boot with factory := true } } [(⟨.imWriteLen_len, 0, 0, 0⟩, 256 + 256 + 29792)]) with otp := wGoodOtp }

theorem wit_ImageWritesRun_start :
    wGoodStart.dev.hostUp = true ∧ wGoodStart.dev.imageRuns = false ∧ wGoodStart.dev.boot.applied = true ∧
    imgCheck wGoodStart.otp wGoodStart.dev wGoodImg true = 0 := by
  refine ⟨by decide +kernel, by decide +kernel, by decide +kernel, ?_⟩
  have h : wGoodStart.dev.cfg .imWriteLen_len 0 = 256 + 256 + 29792 := by decide +kernel
  have f : wGoodStart.dev.boot.factory = true := by decide +kernel
  have o : wGoodStart.otp = wGoodOtp := rfl
  simp [imgCheck, test_header_of_bytes, h, f, o, ImgHeader.isImage, ImgHeader.total, ImgHeader.padded, Otp.holds, Otp.slot,
    wGoodOtp, KeySlot.dead, KeySlot.broken, Otp.rollback, lastValue]

/-- The read-back of an image whose signature verifies. -/
def wReadBack : State :=
  { wWriting 4 { img := wGoodImg, todo := 1, headerDone := true } with flash := { a := wGoodBank }, otp := wGoodOtp }

theorem wit_ImageWritesRun_done (hv : Config.headerVerifies wGood [] = true) :
    wReadBack.dev.cd .imWriteStatus_state = 4 ∧ wReadBack.dev.boot.issued = true ∧ wReadBack.dev.imageTarget = .a ∧
    bankResult wReadBack.otp true (Flash.bank wReadBack.flash .a) = 0 :=
  ⟨by decide +kernel, by decide +kernel, by decide +kernel, wit_bank_passes hv⟩

/-! ### Witnesses of the other statements -/

theorem wit_SuppliesAndResets :
    (on up).dev.boot.run = true ∧ (11399#64).toNat < 11400 ∧ (on up).dev.boot.run = true ∧ 1000 ≤ (1000#32).toNat ∧
    (9999#32).toNat < 10000 ∧ (on up).dev.boot.run = true ∧ State.reset.dev.boot.run = false := by decide +kernel

theorem wit_BootBegins :
    State.reset.dev.sup.porstN = false ∧ State.reset.dev.boot.run = false ∧ State.reset.dev.sup.vaux33 = true ∧
    State.reset.dev.sup.pwrGood = true ∧ State.reset.dev.sup.vinLow = false ∧ wPwr.dev.sup.conv = true ∧
    wPwr.dev.sup.pwrGood = false ∧ wPwr.dev.sup.porstN = true ∧ wPwr.dev.sup.vinLow = false ∧
    wVin.dev.sup.vaux33 = true ∧ wVin.dev.sup.vinLow = true ∧ wVin.dev.sup.porstN = true ∧
    wDark.dev.sup.porstN = false ∧ wDark.dev.boot.run = false ∧ wDark.dev.sup.pwrGood = false := by decide +kernel

theorem wit_RomPhaseAndHold :
    wRom.dev.boot.run = true ∧ wRom.dev.cd .btSceneStatus_phase = 0 ∧ wRom.dev.boot.applied = false ∧
    wHold.dev.cd .btStraps_bootHold = 1 ∧ wWait.dev.hostUp = true ∧ wWait.dev.cd .btSceneStatus_phase = 1 ∧
    wWait.dev.bist = false ∧ wBist.dev.hostUp = true ∧ wBist.dev.cd .btSceneStatus_phase = 1 ∧ wBist.dev.bist = true ∧
    wBist.dev.bist = true ∧ wBist.dev.cd .btBootCtl_continue = 0 ∧ wBistGo.dev.bist = true ∧
    wBistGo.dev.cd .btBootCtl_continue = 1 := by decide +kernel

theorem wit_BankChosen :
    wBank2.dev.boot.todo = [.b, .a] ∧
    bankResult wBank2.otp (true && wBank2.dev.boot.flashOk) (Flash.bank wBank2.flash .b) ≠ 0 := by decide +kernel

theorem wit_DiesPoweredThenLoaded :
    wPower.dev.cd .btSceneStatus_phase = 3 ∧ wPower.dev.sup.thermShut = false ∧ wPower.dev.boot.power = [2, 4] ∧
    wLoad.dev.cd .btSceneStatus_phase = 3 ∧ wLoad.dev.sup.thermShut = false ∧ wLoad.dev.boot.power = [] ∧
    wLoad.dev.boot.applied = false := by decide +kernel

theorem wit_PcieResetAndD3hot :
    wPerst.dev.sup.perstN = false ∧ wRun.dev.sup.perstN = true ∧ wRun.dev.sup.cfgReady = true ∧
    wRun.dev.chRuns 15 = true ∧ wRun.dev.chRuns 0 = false ∧ wD3.dev.sup.d3hot = true ∧ wD3.dev.sup.perstN = true ∧
    wD3.dev.cd .msixTable_dword (4 * 31 + 3) % 2 = 0 ∧ bitAt (wD3.dev.cd .msixPba_pending (31 / 32)) (31 % 32) = 1 := by decide +kernel

theorem wit_PowerAndTemperature :
    up.railOn 0 = true ∧ up.railOn 5 = true ∧ up.boot.run = true ∧ up.sup.thermShut = false ∧ 125 ≤ (125#8).toInt ∧
    up.boot.run = true ∧ (up.cfg .dvTherm_alert 0 : Int) ≤ (105#8).toInt ∧ up.cd .dvTherm_alertActive = 0 ∧
    wHot.dev.boot.run = true ∧ (100#8).toInt ≤ (wHot.dev.cfg .dvTherm_alert 0 : Int) - 5 ∧
    wHot.dev.cd .dvTherm_alertActive = 1 := by decide +kernel

theorem wit_CutsBeginAndComplete :
    wCut.dev.inRun = true ∧ wCut.dev.boot.spillDue = none ∧ wCut.dev.boot.write.isSome = true ∧
    wCut.dev.imageHeld = false ∧ wCut.dev.ranEnough = true ∧ wDebt.dev.inRun = true ∧ wDebt.dev.boot.spillDue = none ∧
    wDebt.dev.boot.eraseDebt = true ∧ wDebt.dev.imageHeld = false ∧ wDebt.dev.ranEnough = true ∧
    wAway.dev.cd .btSceneStatus_scene = 1 ∧ wAway.dev.cd .btSceneStatus_cutting = 0 ∧
    wDue.dev.boot.spillDue = some 1 ∧ wDue.dev.cd .btSceneStatus_scene ≠ 0 ∧ wSpillEn.dev.hostUp = true ∧
    wSpillEn.dev.cd .btStraps_spillEn = 1 ∧ wSpillEn.dev.toSpill = false ∧ wSpillEn.dev.boot.spillDue = none ∧
    wSpillEn.dev.cd .btSceneStatus_scene ≠ 0 ∧ wSpillRst.dev.hostUp = true ∧ wSpillRst.dev.cd .btStraps_spillEn = 1 ∧
    wSpillRst.dev.toSpill = false ∧ wSpillRst.dev.boot.spillDue = none ∧ wSpillRst.dev.cd .btSceneStatus_scene = 0 ∧
    wSpill.dev.hostUp = true ∧ wSpill.dev.spilling = true ∧ (wCutting 1).dev.boot.cutTo = some 1 ∧
    (wCutting 2).dev.boot.cutTo = some 2 ∧ (wCutting 2).dev.boot.spillDue = none ∧
    (wCutting 3).dev.boot.cutTo = some 3 := by decide +kernel

theorem wit_ImageWritesRun :
    wStart.dev.hostUp = true ∧ wStart.dev.imageRuns = false ∧ wStart.dev.boot.applied = true ∧
    imgCheck wStart.otp wStart.dev wImgW false ≠ 0 ∧ (wWriting 2 { img := wImgW, todo := 2 }).dev.boot.issued = true ∧
    (wWriting 2 { img := wImgW, todo := 2 }).dev.cd .imWriteStatus_state = 2 ∧
    (wWriting 3 { img := wImgW, todo := 1 }).dev.cd .imWriteStatus_state = 3 ∧
    ({ img := wImgW, erased := true } : ImgWrite).owes = false ∧ ({ img := wImgW } : ImgWrite).owes = true ∧
    wOwed.dev.boot.issued = true ∧ wOwed.dev.boot.write = none ∧ wOwed.dev.boot.eraseDebt = true := by decide +kernel

theorem wit_StartDuringWriteIgnored :
    (wWriting 1 { img := wImgW }).dev.hostUp = true ∧ (wWriting 1 { img := wImgW }).dev.imageRuns = true ∧
    (wWriting 4 { img := wImgW }).dev.imageRuns = true ∧ (wAbort 2 1 false false).dev.boot.issued = true ∧
    (wAbort 3 2 false true).dev.cd .imWriteStatus_state = 3 ∧
    (wAbort 3 1 false true).dev.cd .imWriteStatus_state = 3 ∧ (wAbort 4 1 true true).dev.cd .imWriteStatus_state = 4 ∧
    ({ img := wImgW, todo := 2, erased := true, abort := true } : ImgWrite).owes = false := by decide +kernel

theorem wit_LightFollowsItsRules :
    up.hostUp = true ∧ up.inSafe .dvLaserCtl 0 = false ∧ up.cd .dvLaserCtl_lsEnState ≤ 1 ∧ up.live = true ∧
    wW1.dev.live = true ∧ wW1.dev.boot.sb.active = 1 ∧ up.live = true ∧ (wLight 1).dev.live = true ∧
    (wLight 1).dev.railOn (4 + 15 / 8) = true ∧ (wLight 1).dev.cd .dvLaserCtl_lsEnState = 1 ∧
    (wLight 1).dev.light 15 = 1 ∧ (wLight 2).dev.light 15 = 2 ∧ (wLight 3).dev.light 15 = 3 ∧
    (wLight 1).dev.litAt 15 ≤ (1450#16).toInt ∧ (1000#16).toInt < (wLight 2).dev.darkBelow 15 := by decide +kernel

theorem wit_LinkStatesAdvance :
    up.live = true ∧ (wPort 127 2).dev.portEnabled 127 = true ∧ (wPort 127 2).dev.linkState 127 = 2 ∧
    (wPort 0 3).dev.linkState 0 = 3 ∧ (wPort 0 4).dev.linkState 0 = 4 ∧ (wPort 0 5).dev.linkState 0 = 5 ∧
    (wPort 127 6).dev.portExists 127 = true ∧ (wPort 127 6).dev.linkState 127 = 6 ∧
    (wPort 127 6).dev.cfg .ptPortCtl_downHoldoff (127 / 32 + 1) (127 % 32) ≠ 0 ∧ (wPort 0 7).dev.linkState 0 = 7 ∧
    (wPort 127 6).dev.live = true ∧ (wPort 127 6).dev.portEnabled 127 = true ∧ (wClosed 0 7).dev.linkState 0 = 7 ∧
    (wClosed 0 7).dev.portEnabled 0 = false ∧ ((wClosed 0 7).dev.sending 0).isNone = true := by decide +kernel

theorem wit_PortsEnabledAndDisabled :
    (wOff 127).dev.hostUp = true ∧ (wOff 127).dev.railOn (127 / 32) = true ∧ (wOff 127).dev.portExists 127 = true ∧
    (wOff 127).dev.live = true ∧ (wOff 127).dev.boot.factory = false ∧ (wOff 127).dev.portSafe 127 = false ∧
    (wOff 127).dev.linkState 127 = 0 ∧ ((wOff 127).dev.sending 127).isNone = true ∧ up.hostUp = true ∧
    up.live = true ∧ up.boot.factory = false ∧ up.inRun = true ∧ up.inSafe .fpPortCtl 0 3 = false ∧
    (wField 3 1).dev.cd .fpPortStatus_up 3 ≤ 1 ∧ wAway.dev.inRun = false := by decide +kernel

theorem wit_LaneTestsRun :
    up.hostUp = true ∧ up.railOn (127 / 32) = true ∧ up.inSafe .lnTestCtl (127 / 32 + 1) (127 % 32) = false ∧
    (wLane 1 0).dev.lnFld (.line 5) .lnTestStatus_state ∈ [1, 2, 3] ∧
    up.lnFld (.line 5) .lnTestStatus_state ∉ [1, 2, 3] ∧ up.linkState (up.slotPort (5 : Fin 128)) = 0 ∧
    (wLane 2 5).dev.laneThere (.line 5) = true ∧ (wLane 2 5).dev.lnFld (.line 5) .lnTestStatus_state = 2 ∧
    (wLane 2 5).dev.winPowered 1 = true ∧ (wLane 2 5).dev.lnFld (.line 5) .lnTestCtl_duration ≠ 0 ∧
    wFabLane.dev.laneThere (.fabric 0 1 47) = true ∧ wFabLane.dev.lnFld (.fabric 0 1 47) .lnTestStatus_state = 2 ∧
    wCtLane.dev.laneThere (.cont 3) = true ∧ wCtLane.dev.lnFld (.cont 3) .lnTestStatus_state = 2 ∧
    wFabLane.dev.winPowered 1 = true ∧ wCtLane.dev.winPowered 0 = true ∧
    checkerLocks ((wLane 2 5).dev.lnFld (.line 5) .lnTestCtl_source) ((wLane 2 5).dev.wide .lnUserPattern 1 5 0) (List.replicate 95 false) = true ∧
    checkerLocks 7 9 (List.replicate 63 false) = false ∧ 16 ≤ (16 : Fin 65).val ∧
    (on ((wLane 2 5).dev.lnSet (.line 5) .lnTestStatus_lock 1)).dev.lnFld (.line 5) .lnTestStatus_lock = 1 ∧
    up.hostUp = true ∧ up.laneThere (.fabric 3 0 0) = true ∧ up.winPowered 4 = true ∧ up.live = true ∧
    up.railOn (4 + 127 / 64) = true ∧ wSlotOn.dev.slotOn 127 = true ∧ wSlotOn.dev.live = true ∧
    (wLane 2 5).dev.lnFld (.line 5) .lnTestCtl_loopback ≠ 0 ∧ (wLane 2 5).dev.lnFld (.line 5) .lnTestCtl_source ≠ 5 ∧
    (wLane 2 5).dev.inSafe .lnInjCtl 1 5 0 = false ∧ (wLane 2 5).dev.hostUp = true := by decide +kernel

theorem wit_FramesArrive :
    (wRx 127).dev.liveDie (dieOf 127) = true ∧ (wRx 127).dev.portExists 127 = true ∧ (wRx 127).dev.portUp 127 = true ∧
    (wRx 127).dev.arriving 127 = none ∧ (∀ f ∈ (wRx 127).dev.net.frames, f.id < (wRx 127).dev.net.nextId) ∧
    (wTail wFr).dev.arriving 0 = some wFr ∧ (∀ g ∈ (wTail wFr).dev.net.frames, g.id = 4 → g = wFr) ∧
    (let r := wFr.receive (List.replicate 50 0); macVerdict r true (r.bytes.length + r.excess + 4) true true false (validPfc r) = none ∧ r.control = false) ∧
    (let r := wFr.receive []; macVerdict r true (r.bytes.length + r.excess + 4) true true false (validPfc r) = some 7) ∧
    (∀ g ∈ (wTail wFr).dev.net.frames, g.port = 0 → g.waiting = false) := by decide +kernel

theorem wit_ServiceAndCells :
    (wTail { wCellFr with admitted := true }).dev.nextCell 0 = some { wCellFr with admitted := true } ∧
    (wTail { wCellFr with admitted := true }).dev.frame? 4 = some { wCellFr with admitted := true } ∧
    (wTail wCellFr).dev.nextCell 0 = some wCellFr ∧ (wTail wCellFr).dev.frame? 4 = some wCellFr ∧
    admitCells wCellFr ≤ (wTail wCellFr).dev.cellsFree 0 ∧
    (wTail wCellFr).dev.headroomDraw 0 (inputOf 0) wCellFr.work.tc ≤ (wTail wCellFr).dev.cfg .swPortCtl_headroom 1 (idxOf 0) ∧
    (∀ g ∈ (wTail wCellFr).dev.net.frames, g.port = 0 → g.waiting = false) ∧ wNoRoom.dev.nextCell 0 = some wCellFr ∧
    wNoRoom.dev.frame? 4 = some wCellFr ∧ wNoRoom.dev.cellsFree 0 < admitCells wCellFr ∧
    (∀ g ∈ wNoRoom.dev.net.frames, g.port = 0 → g.waiting = false) ∧ (wTail wLateFr).dev.arriving 0 = some wLateFr ∧
    wLateFr.known = false ∧ wLateFr.stage ∉ [Stage.cd, .arriving, .parsed, .looked, .ready] ∧
    (wTail wLateFr).dev.frame? 4 = some wLateFr ∧
    (wTail wCdFr).dev.net.frames.find? (fun f => f.port = 129 && f.stage = .cd) = some wCdFr ∧
    (wTail wCdFr).dev.frame? 4 = some wCdFr ∧ (wTail wCdFr).dev.serviceOpen = true ∧
    (wTail wCdFr).dev.liveDie 0 = true ∧ wCdFr.control = false ∧ wCdFr.noRoom = false ∧ 14 ≤ wCdFr.bytes.length ∧
    admitCells wCdFr ≤ (wTail wCdFr).dev.cellsFree 0 ∧ wClosedCh.dev.serviceOpen = false ∧
    wClosedCh.dev.net.frames.find? (fun f => f.port = 129 && f.stage = .cd) = some wCdFr ∧
    (wBp 1).dev.cd .fpPortStatus_bpActive 3 = 1 ∧ (wBp 1).dev.fullDuplex (128 + 3) = true ∧
    (wBp 1).dev.canSend (128 + 3) = true ∧ (wBp 0).dev.cd .fpPortStatus_bpActive 3 = 1 ∧
    (wBp 0).dev.fullDuplex (128 + 3) = false := by decide +kernel

theorem wit_PauseAndIntervals :
    ((wPfc { held := [0, 7], heldSaid := [0] }).dev.tx 5).held.contains 7 = true ∧
    ((wPfc { held := [0, 7], heldSaid := [0] }).dev.tx 5).heldSaid.contains 7 = false ∧
    (wPfc { pfcDue := [(0, 1), (7, 0), (3, 1), (3, 0)] }).dev.canSend 5 = true ∧
    (wPfc { pfcDue := [(0, 1), (7, 0)] }).dev.pfcToSend 5 ≠ [] ∧ (wPfc {}).dev.xoffClasses 5 ≠ [] ∧
    wSec.dev.net.dropSum ≠ [] := by decide +kernel

theorem wit_ScrubsAndRepairs :
    wBad.dev.entAt 0 7 = some { mac := 5, fid := 1, dest := .port 3, static := true } ∧
    up.net.alarmed.contains (.addr 3 8) = false ∧ up.boot.run = true ∧ up.winPowered 7 = true ∧
    regAt 1 0x040000 = some (.ptPortCtl, 0, 0) ∧ Reg.ptPortCtl.guarded = true ∧ up.ghost .ptPortCtl 1 0 = false ∧
    up.inSafe .ptPortCtl 1 0 0 = false := by decide +kernel

theorem wit_RegisterInstructions :
    (wProg (encR 2 2 2 3)).dev.engine? 3 0 5 = some wEng ∧ (wProg (encR 2 2 2 3)).dev.frame? 4 = some wPf ∧
    (wProg (encR 2 2 2 3)).dev.net.bad.contains (.prog 3 9) = false ∧
    storeWord (wProg (encR 2 2 2 3)).dev.boot.sb 3 9 = encR 2 2 2 3 ∧
    wEng.slots + 4 ≤ (wProg (encR 2 2 2 3)).dev.budget 3 := by decide +kernel

theorem wit_BranchesGoForward :
    wEng.slots + 1 ≤ up.budget 3 := by decide +kernel

theorem wit_HeaderAccess :
    accessAt wEng wPf 0 0 12 = some 12 ∧ 12 + 2 - 1 ≤ wPf.work.lastOff ∧
    (winRead wPf.work wPf.whole 12 2).isSome = true ∧ 12 + 2 ≤ wPf.work.win.length ∧ 12 ≤ wPf.work.payload ∧
    wPf.work.growth + (2 : Nat) ≤ 32 ∧ 12 + (21 + 1) ≤ wPf.work.payload ∧ wPf.work.stack[1]? = some ⟨1, 14, 14, 20⟩ ∧
    wPf.init.stack[1]? = some ⟨1, 14, 14, 20⟩ ∧ hdrClass (wProg 0).dev.boot.sb.graph ⟨1, 14, 14, 20⟩ = .ipv4 ∧
    hdrClass (wUdp 0 0).dev.boot.sb.graph ⟨2, 34, 34, 8⟩ = .udp ∧ (wUdpFr 0 0).work.stack[2]? = some ⟨2, 34, 34, 8⟩ ∧
    enclosingIp (wUdp 0 0).dev.boot.sb.graph (wUdpFr 0 0).work.stack 2 = some (⟨1, 14, 14, 20⟩, true) ∧
    enclosingIp (wUdp 0 0).dev.boot.sb.graph (wUdpFr 0 0).init.stack 2 = some (⟨1, 14, 14, 20⟩, true) ∧
    storeWord (wUdp 0 0).dev.boot.sb 3 9 = 0x1C * 2 ^ 26 + 2 ^ 24 + 2 * 2 ^ 18 := by decide +kernel

theorem wit_MetadataAndDirectives :
    (wObj 0).dev.bound 1 wPf.take = wObjs[0]? ∧ (wObj 0).dev.bound 2 wPf.take = wObjs[1]? ∧
    wObjs[1].data = .mirror { dest := 3, tc := 0, trunc := 0, age := 0 } ∧
    wPf.work.mirrors.contains wObjs[1].num = false ∧ wPf.work.mirrors.length < 4 ∧ wPf.work.untag.growth + 6 ≤ 32 ∧
    ({ wPf.work with mirrors := [7] } : Work).mirrors.contains wObjs[1].num = true ∧
    (wObj 0).dev.portExists 127 = true ∧ (wObj 0).dev.railOn (dieOf 127) = true := by decide +kernel

theorem wit_MetersCountersAndEnds :
    (wObj 0).dev.bound 3 wPf.take = wObjs[2]? ∧ (wObj 0).dev.bound 4095 wPf.take = wObjs[3]? ∧
    wObjs[3].data = .cblock 16 ∧ (wRegs[0]).toNat < 16 ∧ ((wMet 5 5 true 0).dev.bound 3 wPf.take).isSome = true ∧
    (∀ x ∈ (wProg 0).dev.net.frames, x.stage ≠ .ready) ∧ wPf.prog = some 2 ∧
    ({ wPf.work with dir := .drop } : Work).dir = .drop ∧ wPf.silent = false := by decide +kernel

theorem wit_HandedOnAndReplicated :
    (wTail wEnd).dev.nextHandoff 0 = some wEnd ∧ (wRep 1).dev.liveDie 0 = true ∧
    (wRep 1).dev.toReplicate 0 = [wRepF 1] ∧ (wRep 1).dev.frame? 4 = some (wRepF 1) ∧
    (wRepF 1).todo = [wReq, { wReq with tc := 3 }] ∧ (wRep 1).dev.standsBy = false ∧
    (wRep 1).dev.outBit .swPortStatus_discarding 1 2 = false ∧ wReq.kind = .fwd ∧ wReq.slot < 33 := by decide +kernel

theorem wit_QueuesAreTended :
    wTok.dev.liveDie 0 = true ∧ wTok.dev.net.copies = [] ∧
    ({ slot := 0, tc := 2, holder := 0, age := 4 } : Token) ∈ wTok.dev.net.tokens ∧
    (wQ wCopy (2 ^ 63) 1).dev.heads 0 = [wCopy] ∧ (wQ wCopy (2 ^ 63) 1).dev.frame? 4 = some (wQF (2 ^ 63)) ∧
    (wQ wCopy (2 ^ 63) 1).dev.tooOld 0 2 (wQF (2 ^ 63)) = true ∧ copyMade (wQF (2 ^ 63)) wCopy = true ∧
    (wQ wCopy (2 ^ 63) 0).dev.heads 0 = [wCopy] ∧ (wQ wCopy (2 ^ 63) 0).dev.frame? 4 = some (wQF (2 ^ 63)) ∧
    (wQ wCopy (2 ^ 63) 0).dev.tooOld 0 2 (wQF (2 ^ 63)) = false ∧
    (wHeld 132).dev.outBit .swPortStatus_holding 132 2 = true ∧
    (wHeld 0).dev.outBit .swPortStatus_holding 0 2 = true ∧ (wQ wCopy 0 0).dev.liveDie 0 = true ∧
    (wQ wCopy 0 0).dev.portOfSlot 1 = outOf 1 ∧ slotDie 1 = 0 ∧ (wQ wCopy 0 0).dev.frame? 4 = some (wQF 0) ∧
    (wQ wCopy 0 0).dev.tooOld 0 2 (wQF 0) = false ∧ (wQ wCopy 0 0).dev.ready 0 0 1 2 = some wCopy ∧
    0 ∈ (wQ wCopy 0 0).dev.inSlots 0 ∧ (wQ wCopy 0 0).dev.voqSlot 0 0 = 0 := by decide +kernel

theorem wit_FabricCellsArrive :
    (wFly 1 0 wCopy).dev.link 0 1 = true ∧ (wFly 1 0 wCopy).dev.laneState 1 0 47 ≤ 1 ∧
    (wFly 1 0 wCopy).dev.onLane 0 1 47 = [wFlight 6 0, wFlight 8 0] ∧
    (wFly 1 0 wCopy).dev.net.copies.find? (fun c => c.id = 6) = some { wCopy with port := 33, sent := 3 } ∧
    (wFly 1 0 wCopy).dev.net.copies = [{ wCopy with port := 33, sent := 3 }] ∧
    ((wFly 1 0 wCopy).dev.frame? 4).isSome = true ∧ wFlight 6 1 ∈ wLost.dev.net.missing ∧
    { wCopy with port := 33, sent := 3, got := [(2, 33)] } ∈ wLost.dev.net.copies ∧ 1 < ((2, 33) : Nat × Nat).1 := by decide +kernel

theorem wit_FramesAreNotPreempted :
    ((wBusy 127 wCopy).dev.tx 127).busy = true ∧ ((wBusy 127 wCopy).dev.sending 127).isSome = true := by decide +kernel

theorem wit_FramesLeaveTheirPort :
    wGo.portEnabled 127 = true ∧ wGo.canStart 127 = true ∧ wGo.egressHead 127 2 = some wHere ∧
    wGo.strict 127 2 = true ∧ wGo.eligible 127 2 = true ∧ wGo.gating 127 = false ∧ wGo.frame? 4 = some (wQF 0) ∧
    wGo.tooOld 3 2 (wQF 0) = false ∧ wGo.streamOf (wQF 0) wHere = none ∧ copyWhole (wQF 0) wHere = true ∧
    wGo.sentLen (wQF 0) wHere ≤ wGo.egressLimit (wQF 0) wHere ∧ (false && wGo.halfDuplex 127) = false ∧
    (wBusy 127 wCopy).dev.sending 127 = some { wCopy with port := 127, tx := true, got := [(0, 1)] } ∧
    (wBusy 127 wCopy).dev.frame? 4 = some (wQF 0) ∧ copyWhole (wQF 0) wCopy = true ∧
    copyCells (wQF 0) wCopy ≤ ({ wCopy with got := [(0, 1)] } : Copy).front ∧
    (wBusy 127 wCopy).dev.portEnabled 127 = true ∧
    max 64 ((padTo60 ((wBusy 127 wCopy).dev.finalBytes (wQF 0) { wCopy with port := 127, tx := true, got := [(0, 1)] })).length + 4) ≤ (wBusy 127 wCopy).dev.egressLimit (wQF 0) { wCopy with port := 127, tx := true, got := [(0, 1)] } ∧
    ({ wCopy with got := [(1, 1)] } : Copy).front < copyCells (wQF 0) wCopy ∧
    wOverAt.dev.sending 127 = some { wCopy with port := 127, tx := true, got := [(1, 1), (0, 1)] } ∧
    wOverAt.dev.frame? 4 = some wOver ∧
    copyCells wOver wCopy ≤ ({ wCopy with got := [(1, 1), (0, 1)] } : Copy).front ∧
    wOverAt.dev.egressLimit wOver { wCopy with port := 127 } < max 64 ((padTo60 (wOverAt.dev.finalBytes wOver { wCopy with port := 127, tx := true, got := [(1, 1), (0, 1)] })).length + 4) ∧
    (wBusy 131 wCopy).dev.sending (128 + 3) = some { wCopy with port := 131, tx := true, got := [(0, 1)] } ∧
    (wBusy 131 wCopy).dev.halfDuplex (128 + 3) = true ∧
    (wBusy 131 { wCopy with waiting := true, attempts := 3 }).dev.sending 131 = some { wCopy with port := 131, tx := true, got := [(0, 1)], waiting := true, attempts := 3 } := by decide +kernel

theorem wit_GatesFollowTheirLists :
    (wGate 0x10055).dev.hostUp = true ∧ (wGate 0x10055).dev.railOn 3 = true ∧
    ((wGate 0x10055).dev.gate 127).pending = none ∧ wFullUp.dev.badList 127 = false ∧ wFullUp.dev.freeTimer = none ∧
    (wGate 0x10055).dev.badList 127 = false ∧ (wGate 0x10055).dev.freeTimer = some 0 ∧
    (wGate 0).dev.badList 127 = true ∧ (wPend.dev.gate 127).pending = some (0, 3) ∧ 0 ≤ diff64 (wPend.dev.now 3) 0 ∧
    (wRunL.dev.gate 127).running = true ∧ wRunL.dev.gating 127 = true ∧ (wGate 0).dev.pd .egGateCtl_gateEn 3 31 ≠ 1 := by decide +kernel

theorem wit_DeferredMirrorsGo :
    (wDefer 1).dev.frame? 4 = some (wQF (2 ^ 63)) ∧
    (wDefer 1).dev.deferrals 0 15 = [{ wCopy with kind := .mirror 15, deferred := true, slot := 34, sf := true }] ∧
    (wDefer 1).dev.standsBy = false ∧ (wDefer 1).dev.outBit .swPortStatus_discarding 1 2 = false ∧
    (∀ x ∈ (wDefer 1).dev.net.copies, x.id < (wDefer 1).dev.net.nextCopy) ∧
    (wDefer 1).dev.voqCells 0 34 1 2 < (wDefer 1).dev.voqLimit 0 2 ∧
    (∀ k : Fin 15, (wDefer 1).dev.deferrals 0 k = []) ∧ (wDefer 1).dev.mirror? 0 15 = some { dest := 1, age := 1 } ∧
    ageBad ((wDefer 1).dev.ageOf 0 (wQF (2 ^ 63))) 1 = true := by decide +kernel

theorem wit_EntriesAreLearnedAndSwept :
    ((wLearn none).dev.fwOf 3).queue = [wReqL, wReqL] ∧ (wLearn none).dev.hasStatic 3 (fwKey 5 0x1234) = false ∧
    (wLearn none).dev.learnedEnt 3 (fwKey 5 0x1234) = none ∧
    (slotsOf (nBuckets 0) (fwKey 5 0x1234)).find? ((wLearn none).dev.freeSlot 3) = some wSlot ∧
    (wLearn (some wEnt)).dev.learnedEnt 3 (fwKey 5 0x1234) = some (wSlot, wEnt) ∧
    (wLearn (some { wEnt with dest := .port 9 })).dev.learnedEnt 3 (fwKey 5 0x1234) = some (wSlot, { wEnt with dest := .port 9 }) ∧
    (wLearn (some wEnt)).dev.entAt 3 wSlot = some wEnt ∧ (wLearn (some wEnt)).dev.badEnt 3 wSlot = false ∧
    (wLearn (some wEnt)).dev.liveDie 3 = true ∧ ((wLearn (some wEnt)).dev.fwOf 3).sweepAt = wSlot ∧
    (wLearn (some wEnt)).dev.hostUp = true ∧ (wLearn (some wEnt)).dev.railOn 3 = true ∧
    (wLearn (some wEnt)).dev.pd .fwFlush_start 3 ≠ 1 ∧ ((wLearn none).dev.fwOf 3).flushing = some (7, 5, 3) ∧
    aget ((wLearn none).dev.fwOf 3).recov 6 = some ⟨1, 2, 3⟩ ∧ ((wLearn none).dev.fwOf 3).notices.contains 7 = true ∧
    up.hostUp = true ∧ up.railOn 3 = true := by decide +kernel

theorem wit_BatchesOpenCommitAbort :
    up.hostUp = true ∧ up.inSafe .tkCtl 0 = false ∧ up.cd .tkStatus_batchOpen = 0 ∧
    (wOpen wStaged []).dev.cd .tkStatus_batchOpen = 1 ∧ (wOpen wStaged []).dev.tak.committing = false ∧
    (wOpen wStaged []).dev.follows = false ∧ (wOpen [] []).dev.emptyCommit 1 = true ∧ (wOpen [] []).dev.queued = 0 ∧
    (wOpen wStaged []).dev.emptyCommit 1 = false ∧ wTime.dev.freeTimer = some 0 ∧
    diff64 (wTime.dev.now 4 + 100000) (wTime.dev.wide .tkAtTime 0) < 0 ∧ wNoTimer.dev.freeTimer = none ∧
    wNoTimer.dev.cd .tkStatus_batchOpen = 1 ∧ wCommitting.dev.tak.committing = true ∧
    wCommitting.dev.cd .tkStatus_batchOpen = 1 ∧ wHeavy.dev.commitNow = some wCommit ∧
    wHeavy.dev.canSeal wCommit = false := by decide +kernel

theorem wit_TakesAreSealedAndSwitched :
    (wCs { owner := 1, batch := true }).dev.commitNow = none ∧
    (wCs { owner := 1, batch := true }).dev.follows = false ∧
    (wCs { owner := 1, batch := true }).dev.tak.commits.find? (wCs { owner := 1, batch := true }).dev.commitReady = some { owner := 1, batch := true } ∧
    (wCs { owner := 1, batch := true }).dev.emptyCommit 1 = false ∧ (wCs wCommit).dev.commitNow = some wCommit ∧
    (wCs wCommit).dev.canSeal wCommit = true ∧
    (wSw .sealed [1, 1, 0, 1]).dev.tak.commits.find? (fun c => decide (c.step = .sealed)) = some { wCommit with step := .sealed, s := 0 } ∧
    (wSw .sealed [1, 1, 0, 1]).dev.railOn 2 = true ∧ 0 ≤ instDiff ((wSw .sealed [1, 1, 0, 1]).dev.instant 2) 0 ∧
    (wSw .sealed [1, 1, 0, 1]).dev.takeOf 2 ≠ 1 ∧
    (∀ m ∈ (wSw .sealed [1, 1, 0, 1]).dev.dies, m ≠ 2 → (wSw .sealed [1, 1, 0, 1]).dev.takeOf m = 1) ∧
    (wSw .switched []).dev.tak.commits.find? (fun c => decide (c.step = .switched)) = some { wCommit with step := .switched, s := 0 } ∧
    3 ∈ wLive.dev.tak.live.dropLast ∧ (∀ n ∈ wLive.dev.dies, wLive.dev.inflight n 3 = 0) ∧ wLive.dev.plc.again = [] ∧
    2 ∈ wLive.dev.tak.reclaim ∧ wLive.dev.plc.wait = none ∧ (∀ o ∈ wLive.dev.plc.outq, o.redo = false) := by decide +kernel

theorem wit_VersionsOfATake :
    ({ from_ := some 3 } : Ver).pending = false ∧ ({ from_ := some 3 } : Ver).until_ = none ∧
    Ver.seal 7 5 (Ver.begin_ 7) = some { from_ := some 5, owner := 7 } ∧
    (Ver.seal 7 5 (({ from_ := some 3 } : Ver).endBy 7)).isSome = true := by decide +kernel

theorem wit_TreesAndTheIntentRing :
    (wJob []).dev.hostUp = true ∧ (wJob []).dev.railOn 3 = true ∧ (wJob []).dev.plc.jobs = [] ∧
    (wJob [⟨3, true, 9, 0, true, []⟩]).dev.plc.jobs = [⟨3, true, 9, 0, true, []⟩] ∧
    (wJob [⟨3, true, 9, 0, true, []⟩]).dev.otherUsed false 3 = false ∧
    (wJob [⟨3, true, 9, 0, true, []⟩]).dev.tak.commits = [] ∧ (wJob [⟨3, true, 9, 0, true, []⟩]).dev.plc.outq = [] ∧
    wRing.dev.inSafe .plTail 0 = false ∧ wRing.dev.inSafe .plCtl 0 = false ∧ wRing.dev.queued = 3 := by decide +kernel

theorem wit_IntentsAreStaged :
    (wIntent []).dev.mayRun = true ∧ (wIntent []).dev.plc.lost = false ∧ (wIntent []).dev.plc.outq = [] ∧
    (wIntent []).dev.cd .tkStatus_batchOpen = 1 ∧ wHas.dev.mayRun = true ∧ wHas.dev.plc.lost = false ∧
    wHas.dev.plc.outq = [] ∧ wHas.dev.cd .tkStatus_batchOpen = 1 ∧
    wStages (wIntent []) ⟨wHd 3 1, .create (.cblock 9) [] []⟩ (wIntentDesc 3 1 7 1 0 0 64 16) (some (wBytes [(4, 9), (12, 0)])) = true ∧
    wStages (wIntent []) ⟨wHd 3 1, .create wPats.data [] [wPat]⟩ (wIntentDesc 3 1 3 1 1 0 64 240) (some (wHdrP ++ wPatB wPat)) = true ∧
    (wIntent []).dev.intentOf (wIntentDesc 3 1 1 1 1 0 64 160) (some (wHdrR 2 ++ wRuleB wRule)) = ⟨wHd 3 1, .create wGroup.data [wRule] []⟩ ∧
    wStages wHas ⟨wHd 5 2, .modify (.cblock 7)⟩ (wIntentDesc 5 2 7 1 0 0 64 16) (some (wBytes [(4, 7), (12, 0)])) = true ∧
    wStages wHas ⟨wHd 3 3, .delete 1⟩ (wIntentDesc 3 3 1 1 0 0 0 0) none = true ∧
    wStages wHas ⟨wHd 4 4, .add 3 [] [{ wPat with id := 10 }]⟩ (wIntentDesc 4 4 3 1 1 0 64 144) (some (wPatB { wPat with id := 10 })) = true ∧
    wStages wHas ⟨wHd 4 5, .change 3 [] [wPat]⟩ (wIntentDesc 4 5 3 1 1 0 64 144) (some (wPatB wPat)) = true ∧
    wStages wHas ⟨wHd 3 6, .remove 1 [9]⟩ (wIntentDesc 3 6 1 1 1 0 64 4) (some (wBytes [(4, 9)])) = true ∧
    wStages wHas ⟨wHd 5 7, .bind 4095⟩ (wIntentDesc 5 7 0 1 0 4095 0 0) none = true ∧
    wHas.dev.intentOf (wIntentDesc 5 8 0 1 0 0 64 48) none = ⟨wHd 5 8, .ask 3 64⟩ ∧
    wHas.dev.checkIntent ⟨wHd 5 8, .ask 3 64⟩ = none ∧ (wIntentDesc 5 8 0 1 0 0 64 48).length = 64 := by decide +kernel

theorem wit_IntentsFailAndMovesRun :
    [1, 2, 3, 4, 5, 6, 7, 8].all (fun op => wFails op (wIntentDesc 99 op 7 1 0 5 64 0) && wFails op (wIntentDesc 3 0 0 1 0 0 0 0) && wFails op (wIntentDesc 3 9 0 1 0 0 0 0)) = true ∧
    wWaitI.dev.plc.wait = some ⟨wHd 77 7, .bind 3⟩ ∧ wWaitI.dev.plc.outq = [] ∧ wMulti.dev.moveFree = true ∧
    wMulti.dev.latestObj false 7 = some { h := 7, num := 3, data := .mcast 5 [1, 2] } ∧
    wMulti.dev.moveCause (.plan 0 7) = true ∧ wMulti.dev.moveCause (.plan 1 7) = true ∧
    wMulti.dev.copyHot 0 7 = true ∧ wMeas.dev.copyHot 0 9 = false := by decide +kernel

theorem wit_TimeTicksAndSteers :
    (∀ n : Fin 5, wTick.dev.ticking n = true) ∧ (wRole 3 []).dev.hostUp = true ∧
    (wRole 3 []).dev.cd .duStatus_role ≠ 2 ∧ (wRole 2 []).dev.cd .duStatus_role = 2 ∧
    (wLostC 0).dev.cd .tmStatus_timeclkLost = 0 ∧ (wLostC 1).dev.cd .tmStatus_timeclkLost = 1 := by decide +kernel

theorem wit_ClapperCorrectsAndSteps :
    (wClap none 0 0 1).dev.boot.run = true ∧ (wClap none 0 0 1).dev.tmHeld = false ∧
    (wClap none 0 0 1).dev.tm.ta = [] ∧
    (wClap none 0 0 1).dev.instant 4 % (2 ^ 20 * nsUnit) < ((wClap none 0 0 1).dev.isl 4).inc ∧
    (wClap none 0 0 1).dev.tm.incPend = some (0x0200000007, 10000) ∧ 10000 + 10000 ≤ (wClap none 0 0 1).dev.ticks 4 ∧
    (0b1001 : BitVec 4).getLsbD 3 = true ∧ (wClap none 0 0 1).dev.railOn 3 = true ∧
    (wClap (some ⟨-7, 10000, true⟩) 0 0 1).dev.tm.step = some ⟨-7, 10000, true⟩ := by decide +kernel

theorem wit_ActionsAreArmedAndRun :
    up.hostUp = true ∧ up.inSafe .tmTaCtl 0 = false ∧
    (wTa [] []).dev.badArg 7 ((wTa [] []).dev.cd .tmTaArg_arg) = false ∧
    (wTa [] [(⟨.tmTaArg_arg, 0, 0, 0⟩, 200)]).dev.badArg 3 200 = true ∧
    (wTa [(0, { kind := 4, t := 5 })] []).dev.freeTimer = some 1 ∧ (wTa wFull []).dev.freeTimer = none ∧
    aget (wAct { kind := 4, t := 0 } []).dev.tm.ta 9 = some { kind := 4, t := 0 } ∧
    diff64 0 ((wAct { kind := 4, t := 0 } []).dev.now 4) ≤ 50000 ∧ 3 ≤ ({ kind := 4, t := 0 } : TaEntry).kind ∧
    (wAct { kind := 6, t := 0 } []).dev.boot.run = true ∧
    (wAct { kind := 6, t := 0 } []).dev.taDue 9 { kind := 6, t := 0 } = true ∧
    (wAct wTrim [(⟨.duCtTrim_trim, 0, 0, 0⟩, 0x1234)]).dev.target 0 0 (bits wTrim.arg 21 0) false = .reg .duCtTrim 0 0 ∧
    bits wTrim.arg 25 22 = 0 := by decide +kernel

theorem wit_PpsFollowsTheSecond :
    (wPps 0 0 0 none).dev.cd .tmCtl_ppsInEn = 0 ∧ (wPps 0 1 1 (some (2 ^ 28))).dev.cd .tmCtl_ppsInEn = 1 ∧
    ((wPps 0 1 1 (some (2 ^ 28))).dev.ticks 4 - 2 ^ 28) * 2 < 500000000 ∧
    500000000 ≤ ((wPps 0 1 1 (some 5)).dev.ticks 4 - 5) * 2 ∧ up.hostUp = true ∧ up.inSafe .tmCtl 0 = false ∧
    (wSecond 1 500000).dev.boot.run = true ∧
    (wSecond 1 500000).dev.instant 4 % (1000000000 * nsUnit) < ((wSecond 1 500000).dev.isl 4).inc ∧
    ((wPps 1 0 0 none).dev.isl 4).inc ≤ (wPps 1 0 0 none).dev.instant 4 % (1000000000 * nsUnit) ∧
    (wSecond 0 5).dev.tm.ppsMode ≠ 1 ∧
    (wSecond 1 500001).dev.ticks 4 - 500001 < (wSecond 1 500001).dev.cfg .tmCtl_ppsWidth 0 * 500 ∧
    (wSecond 1 500000).dev.cfg .tmCtl_ppsWidth 0 * 500 ≤ (wSecond 1 500000).dev.ticks 4 - 500000 := by decide +kernel

theorem wit_LanesRestAndWake :
    wPark.dev.link 3 0 = true ∧ wPark.dev.idleEligible 3 0 = true ∧
    wPark.dev.cfg .fbLinkCtl_entryUs 4 0 * 500 ≤ wPark.dev.ticks 3 - sumOf wPark.dev.fab.lastWake 3 0 ∧
    wPark.dev.idleEligible 3 1 = false ∧ (wExit 2 100 0 0).dev.link 3 0 = true ∧
    (wExit 2 100 0 0).dev.laneState 3 0 47 = 0 ∧ (wExit 2 100 0 0).dev.laneIdle 3 0 47 = 2 ∧
    (wExit 3 100 0 0).dev.laneIdle 3 0 47 = 3 ∧ (wExit 3 100 0 0).dev.laneIdle 0 3 47 = 0 ∧
    ((wExit 3 100 0 0).dev.pairX 3 0 47).history = [] ∧ (wExit 3 100 0 0).dev.outAsked 3 0 47 = false ∧
    ((wExit 3 100 0 0).dev.laneX 3 0 47).noted = false ∧ 100 ≤ 100 + (wExit 2 100 0 0).dev.cfg .fbCtl_exitSteps 1 ∧
    (wExit 0 100 1 0).dev.outCount 3 0 < 4 ∧ 1 ≤ ((wExit 0 100 1 0).dev.laneX 3 0 47).strikes := by decide +kernel

theorem wit_LanesLeaveAndReturn :
    (wPair 0 0).dev.link 3 0 = true ∧ ((wPair 0 0).dev.pairX 3 0 47).history = [] ∧
    (wPair 0 2).dev.laneState 3 0 47 = 0 ∧ (wPair 0 2).dev.laneState 0 3 47 ≠ 0 ∧
    (wPair 1 1).dev.laneState 3 0 47 = 1 ∧ (wPair 1 1).dev.onLane 3 0 47 = [] ∧ (wPair 1 1).dev.onLane 0 3 47 = [] ∧
    ((wPair 0 0).dev.laneX 3 0 47).noted = false ∧ (wPair 2 2).dev.laneState 3 0 47 = 2 ∧
    (wPair 3 3).dev.laneState 3 0 47 = 3 ∧ ((wPair 3 3).dev.pairX 3 0 47).waiting = none ∧
    (wOut 5 5).dev.laneState 3 0 47 = 5 ∧ (wOut 5 5).dev.pd .fbLaneCtl_out 3 47 0 = 1 ∧
    (wOut 5 5).dev.cfg .fbLaneCtl_out 1 47 3 = 0 ∧ (wOut 5 5).dev.inSafe .fbLaneCtl 4 47 0 = false ∧
    (wPair 0 0).dev.mayTake 3 0 47 = true ∧ (wPair 2 2).dev.mayTake 3 0 47 = false ∧
    (wPair 6 6).dev.laneState 3 0 47 = 6 ∧ (wPair 6 6).dev.link 3 0 = true ∧
    ((wPair 6 6).dev.pairX 3 0 47).history = [] := by decide +kernel

theorem wit_RolesAreClaimedAndLost :
    (wDuo 2 {} []).dev.isDuo = true ∧ (wDuo 2 {} []).dev.duo.beat = none ∧ (wDuo 2 {} []).dev.role = 2 ∧
    7 ≤ (wDuo 2 {} []).dev.duo.peerEdge ∧ (wDuo 2 {} []).dev.claimable = true ∧
    (wDuo 2 {} []).dev.duo.held < (wDuo 2 {} []).dev.claimHold ∧
    (wDuo 2 { held := 100000 } []).dev.claimHold ≤ 100000 ∧ (wDuo 3 { badFor := 20 } []).dev.role = 3 ∧
    7 ≤ (wDuo 3 {} []).dev.duo.ownEdge ∧ (wDuo 3 {} []).dev.duo.checking = false ∧
    (wDuo 3 {} []).dev.duo.contended = false ∧ (wDuo 3 { checking := true } []).dev.duo.checking = true ∧
    (wDuo 3 { checking := true } []).dev.duo.returned = false ∧ (wDuo 1 {} []).dev.role = 1 ∧
    Duo.peerClaim {} = false ∧ (wDuo 3 { badFor := 20 } []).dev.cd .duStatus_unit ≠ 1 ∧
    (wDuo 3 {} []).dev.duo.badFor < 20 ∧ (wDuo 3 { badFor := 20 } []).dev.duo.beat = none ∧ up.inSafe .duCtl 0 = false := by decide +kernel

theorem wit_WatchdogsFaultTheUnit :
    (wDuo 3 {} []).dev.isDuo = true ∧ (wDuo 3 {} []).dev.boot.applied = true ∧ (wDuo 3 {} []).dev.role ≠ 4 ∧
    (wDuo 3 {} []).dev.beaconSource 6 = true ∧
    (wDuo 3 {} [(⟨.duCtl_swWdogMs, 0, 0, 0⟩, 5)]).dev.cfg .duCtl_swWdogMs 0 ≠ 0 ∧
    (wDuo 4 { silent := [6], clearAsked := true } []).dev.role = 4 ∧
    (∀ y ∈ (wDuo 4 { silent := [6], clearAsked := true } []).dev.duo.silent, y = 6) := by decide +kernel

theorem wit_MessagesCrossTheLink :
    (wDuo 2 {} []).dev.isDuo = true ∧ bitAt ((wDuo 2 {} []).dev.cd .duStatus_ctLanes) 3 = 1 ∧
    aget (wDuo 2 { seqs := [(1, 4)] } []).dev.duo.seqs 1 = some 4 ∧
    aget (wDuo 2 { seqs := [(1, 4)] } []).dev.duo.seqs 3 ≠ some 4 ∧ (wDuo 3 {} []).dev.role = 3 ∧
    (wDuo 3 {} []).dev.tak.commits = [] ∧ (wDuo 3 {} []).dev.cd .duStatus_ctLanes < 16 ∧
    (wDuo 3 { lossTimer := true } []).dev.cd .duStatus_ctUp = 1 ∧
    (wDuo 3 { lossTimer := true } []).dev.duo.lossTimer = true ∧ (wDuo 2 {} []).dev.role = 2 ∧ wActive.dev.role = 2 ∧
    wActive.dev.duo.beat.map (·.role) = some 3 ∧ (wDuo 2 {} []).dev.duo.beat.map (·.role) ≠ some 3 := by decide +kernel

theorem wit_RegistersAreReadAndWritten :
    regAt 0 (regOffset .duCtTrim 0 0 0) = some (.duCtTrim, 0, 0) ∧ up.winPowered 0 = true ∧
    up.ghost .duCtTrim 0 0 = false ∧ up.inSafe .duCtTrim 0 0 0 = false ∧ Reg.duCtTrim.mailbox = false ∧
    up.errlog.length < 16 ∧ up.hostUp = true ∧ wDark6.dev.winPowered 6 = false ∧ up.inSafe .hiIrqEnableHi 0 = false ∧
    up.inSafe .hiIrqEnableLo 0 = false ∧ bitAt (wIrq.dev.cd .hiIrqCauseLo_cause) 31 = 1 ∧
    bitAt (wIrq.dev.cd .hiIrqEnableLo_enable) 31 = 0 ∧ wIrq.dev.cd .msixTable_dword (4 * 31 + 3) % 2 = 0 := by decide +kernel

theorem wit_MailboxesMoveWideValues :
    wideAt 0 (match Wide.tmTaTime.layouts with | l :: _ => l.base | [] => 0) = some (.tmTaTime, 0, 0) ∧
    wideAt 3 1 = none ∧ (wMail 3 1 0 []).dev.fld .wmbSel_selector 3 = 1 := by decide +kernel

theorem wit_ChannelsMoveData :
    up.hostUp = true ∧ (wCh 0 {} []).dev.inSafe .dmChCtl 0 15 = false ∧ (wCh 0 {} []).dev.chRuns 15 = false ∧
    (wCh 2 { desc := wDesc } []).dev.chRuns 15 = true ∧ (wCh 1 {} []).dev.chState 15 = 1 ∧
    (wCh 2 { desc := wDesc } []).dev.chState 15 = 2 ∧ dmBad (readChan (wChanB wDesc)) = false ∧
    dmBad (readChan (wChanB { wDesc with tail := 1 })) = true ∧ ((wCh 1 {} []).dev.chan 15).fail = none ∧
    DmChan.reads { desc := wDesc } = true ∧ dmSrcDev wDesc = false ∧ dmDstDev wDesc = false ∧
    DmChan.reads { desc := wDesc, read := 2, buf := [[1, 2, 3, 4, 5, 6, 7, 8]] } = false ∧ 1 < dmTotal wDesc ∧
    dmTotal wDesc ≤ 1 + 1 ∧ dmSize wDesc = 8 ∧
    (wCh 2 { desc := wDesc, fail := some wFail } [(⟨.dmChCtl_retryLimit, 0, 15, 0⟩, 2)]).dev.cfg .dmChCtl_retryLimit 0 15 = 2 ∧
    (wCh 2 { desc := wDesc } []).dev.cfg .dmChCtl_retryLimit 0 15 = 0 ∧ wFail.waiting = true := by decide +kernel

theorem wit_RingsMoveFrames :
    (wRings [] [wItem]).dev.ringsRun = true ∧ (wRings [] []).dev.txClass = some 7 ∧
    (wRings [] [wItem]).dev.dma.rxq = [wItem] ∧ (wRings [] []).dev.cfg .dmRxCtl_enable 0 = 1 ∧
    (wRings [] []).dev.cd .dmRxPtr_head % (wRings [] []).dev.rxRing ≠ (wRings [] []).dev.cd .dmRxPtr_tail % (wRings [] []).dev.rxRing ∧
    up.inSafe .dmRxCtl 0 = false ∧ up.inSafe .dmTxCtl 0 7 = false ∧ up.inSafe .dmTxPtr 0 7 = false ∧
    up.inSafe .dmRxPtr 0 = false ∧ (readTx (wTxB 60 3 0)).clean = true ∧ (readTx (wTxB 60 3 0)).len = 60 ∧
    (readTx (wTxB 60 4 0)).clean = false := by decide +kernel

theorem wit_RecordsAreKeptAndDelivered :
    up.inSafe .obSnapCtl 4 = false ∧ up.liveDie 3 = true ∧ up.portExists 127 = true ∧
    (wWindow 6000000 1000).dev.bwPassed 127 1000 = true ∧ (wWindow 5999999 1000).dev.bwPassed 127 1000 = false ∧
    (aget (wWindow 5999999 1000).dev.obs.bwOld 127).getD 1000 = 1000 ∧
    (wRecs 4 { recs := [wEv 7] } []).dev.delivers = true ∧ (wRecs 4 { recs := [wEv 7] } []).dev.hostRingFull = false ∧
    (wRecs 4 { recs := [wEv 7] } []).dev.nextRecord = some (4, wEv 7, false) ∧
    (wRecs 4 { recs := [wEv 7] } [(⟨.obDRptr_rptr, 0, 0, 0⟩, 1)]).dev.hostRingFull = true ∧
    (wRecs 4 {} []).dev.cfg .obDCtl_enable 0 = 1 ∧ up.inSafe .obDRptr 0 = false ∧
    wCo.last / 1000000000 ≠ (wRecs 1 { summ := [wCo] } []).dev.now 1 / 1000000000 ∧
    ((wRecs 1 { summ := [wCo] } []).dev.ring 1).summ = [wCo] ∧ ((wRecs 1 { summ := [wCo] } []).dev.ring 1).recs = [] ∧
    500 ≤ (wRecs 1 { summ := [wCo] } []).dev.bucket (.emission 1) ∧ ((wInc 3).dev.ring 3).incident = true ∧
    ((wInc 3).dev.ring 3).recs.length * 4 < 8192 ∧ (wInc 3).dev.railOn 3 = true ∧
    (wInc 3).dev.fateOf 3 0x1103 = .emitted ∧ (wInc 3).dev.fld .obIncCtl_fillTrigger (ringWin 3) * 8192 > 204900 ∧
    (wInc 3).dev.winPowered (ringWin 3) = true ∧ up.hostUp = true := by decide +kernel

theorem wit_SecurityRequestsRun :
    (wSc 0 {} 0).dev.inSafe .scCmd 0 = false ∧ (wSc 0 {} 0).dev.cd .scStatus_state ≠ 1 ∧
    (wSc 1 {} 0).dev.cd .scStatus_state = 1 ∧ (wSc 0 {} 0).dev.wide .scOutLen 0 < (wSc 0 {} 0).dev.slate.length ∧
    32 ≤ (wSc 0 {} 4000).dev.wide .scOutLen 0 ∧ KeyCmd.formed (readKey (wKeyB 0x434B5856 1 3 0xFF)) = true ∧
    KeyCmd.formed (readKey (wKeyB 0x434B5856 1 4 0)) = false ∧ (wSc 0 {} 0).dev.sec.challenge = none ∧
    up.boot.applied = true ∧ up.boot.factory = false ∧ (wSc 0 {} 0).otp.rollback < wImg.rollback ∧
    (wSc 1 { run := some ⟨4, 1, .program 2 12⟩ } 0).dev.sec.run = some ⟨4, 1, .program 2 12⟩ ∧
    (wSc 1 { challenge := some (5, 0) } 0).dev.sec.challenge = some (5, 0) ∧ 600000000000 ≤ diff64 600000000000 0 := by decide +kernel

end Sys2Proof.Tests
end

section
/-! Proofs of the statements on frames that arrive and frames that leave: what of a frame the frame path keeps as reception
wrote it, and which statistics of a port the drop of a frame changes. -/

namespace Sys2Proof.Machine

/-! ### A sending port begins nothing (R23) -/

/-- A port that sends a copy does not reach DISABLED yet. -/
theorem Dev.finishDisable_of_sending {d : Dev} {p : Nat} (h : (d.sending p).isSome = true) : d.finishDisable p = d := by
  simp [Dev.finishDisable, Option.isSome_iff_ne_none.mp h]

/-- A busy port may begin no queued frame. -/
theorem Dev.canStart_of_busy {d : Dev} {q : Nat} (h : (d.tx q).busy = true) : d.canStart q = false := by
  simp [Dev.canStart, Dev.canSend, h]

/-- Settles O35: a disabled port that still sends is left alone, and an enabled one may not start while it is busy. -/
theorem framesAreNotPreempted : Obligations.FramesAreNotPreempted := by
  intro q carrier s hbusy hsending
  have hs : (s.dev.quiet.sending q).isSome = true := hsending
  have hb : (s.dev.quiet.tx q).busy = true := hbusy
  simp [exec, execFrameTransmitStart, onDev, State.put, Dev.finishDisable_of_sending hs, Dev.canStart_of_busy hb]

/-! ### Operations that leave the frames alone -/

/-- The frames, and the number of the next one, are what they were. -/
structure Dev.SameFrames (d t : Dev) : Prop where
  frames : t.net.frames = d.net.frames
  nextId : t.net.nextId = d.net.nextId

namespace Dev.SameFrames

theorem refl (d : Dev) : d.SameFrames d := ⟨rfl, rfl⟩

theorem trans {a b c : Dev} (h : a.SameFrames b) (k : b.SameFrames c) : a.SameFrames c :=
  ⟨k.frames.trans h.frames, k.nextId.trans h.nextId⟩

theorem ite {d a b : Dev} {c : Prop} [Decidable c] (h : d.SameFrames a) (k : d.SameFrames b) :
    d.SameFrames (if c then a else b) := by split <;> assumption

theorem foldl {α : Type} {d t : Dev} {f : Dev → α → Dev} (h : ∀ (e : Dev) a, e.SameFrames (f e a)) (l : List α)
    (k : d.SameFrames t) : d.SameFrames (l.foldl f t) := by
  induction l generalizing t with
  | nil => exact k
  | cons a l ih => exact ih (k.trans (h t a))

/-- The frames lie in the part `net`. -/
theorem ofOnly {ps : List Part} {fs : Option (List Fld)} {xs : Option (List Wide)} {d t : Dev} (h : Only ps fs xs d t)
    (hn : ps.contains .net = false := by decide) : d.SameFrames t :=
  have e : t.net = d.net := h.part .net hn
  ⟨by rw [e], by rw [e]⟩

end Dev.SameFrames

theorem Dev.setTx_sameFrames (d : Dev) (p : Nat) (x : PortTx) : d.SameFrames (d.setTx p x) := ⟨rfl, rfl⟩

theorem Dev.noteBad_sameFrames (d : Dev) (read : List BadWord) : d.SameFrames (d.noteBad read) := ⟨rfl, rfl⟩

theorem Dev.fpPfcDue_sameFrames (d : Dev) (p on : Nat) : d.SameFrames (d.fpPfcDue p on) := by
  unfold Dev.fpPfcDue
  exact .ite (d.setTx_sameFrames ..) (.refl d)

theorem Dev.bpTest_sameFrames (d : Dev) (p : Nat) : d.SameFrames (d.bpTest p) := by
  unfold Dev.bpTest
  exact .ite (.trans (.ofOnly (d.setCd_only ..)) (Dev.fpPfcDue_sameFrames ..))
    (.ite (.trans (.ofOnly (d.setCd_only ..)) (Dev.fpPfcDue_sameFrames ..)) (.refl d))

theorem Dev.pauseRaise_sameFrames (d : Dev) (n inp c : Nat) : d.SameFrames (d.pauseRaise n inp c) := by
  unfold Dev.pauseRaise
  extract_lets d1 d2 d3 p x
  have h1 : d.SameFrames d1 := .foldl (fun e a => .ofOnly (e.setBit_only ..)) _ (.refl d)
  have h2 : d.SameFrames d2 := h1.trans (.ofOnly (d1.pmc_only ..))
  have h3 : d.SameFrames d3 := .ite (h2.trans (.ofOnly (d2.bump_only ..))) h2
  exact .ite (.ite (h3.trans (d3.setTx_sameFrames ..)) h3) h3

theorem Dev.pauseDrop_sameFrames (d : Dev) (n inp c : Nat) : d.SameFrames (d.pauseDrop n inp c) := by
  unfold Dev.pauseDrop
  extract_lets d1 p x rest
  have h1 : d.SameFrames d1 := .foldl (fun e a => .ofOnly (e.clrBit_only ..)) _ (.refl d)
  exact .ite (h1.trans (d1.setTx_sameFrames ..)) h1

theorem Dev.pauseTest_sameFrames (d : Dev) (n inp c : Nat) : d.SameFrames (d.pauseTest n inp c) :=
  .ite (.ite (d.pauseDrop_sameFrames n inp c) (.refl d)) (.ite (d.pauseRaise_sameFrames n inp c) (.refl d))

theorem Dev.pauseInput_sameFrames (d : Dev) (n inp : Nat) : d.SameFrames (d.pauseInput n inp) := by
  have h1 : d.SameFrames ((List.range 8).foldl (fun d c => d.pauseTest n inp c) d) :=
    .foldl (fun e c => e.pauseTest_sameFrames n inp c) _ (.refl d)
  exact .ite h1 (h1.trans (.ofOnly (Dev.setPd_only ..)))

theorem Dev.globalTest_sameFrames (d : Dev) (n : Nat) : d.SameFrames (d.globalTest n) := by
  unfold Dev.globalTest
  have inputs {t : Dev} (h : d.SameFrames t) : d.SameFrames ((inputsOf n).foldl (fun d i => d.pauseInput n i) t) :=
    .foldl (fun e i => e.pauseInput_sameFrames n i) _ h
  exact .ite (inputs (.trans (.ofOnly (d.setPd_only ..)) (.ofOnly (Dev.raise_only ..))))
    (.ite (inputs (.ofOnly (d.setPd_only ..))) (.refl d))

theorem Dev.cellTest_sameFrames (d : Dev) (n p : Nat) : d.SameFrames (d.cellTest n p) :=
  (d.pauseInput_sameFrames ..).trans (Dev.globalTest_sameFrames ..)

theorem Dev.sampleInterval_sameFrames (d : Dev) (n : Nat) : d.SameFrames (d.sampleInterval n).2 := by
  unfold Dev.sampleInterval
  dsimp only
  split
  · exact ⟨rfl, rfl⟩
  · exact .refl d

theorem Dev.sampleStart_sameFrames (d : Dev) (n p : Nat) : d.SameFrames (d.sampleStart n p).2 := by
  unfold Dev.sampleStart
  split
  · extract_lets put c r
    have hput (e : Dev) (v : Nat) : e.SameFrames (put e v) := ⟨rfl, rfl⟩
    have hc : d.SameFrames c.2 := by
      simp only [c]
      split
      · exact .refl d
      · exact d.sampleInterval_sameFrames n
    split
    · exact (hc.trans (c.2.sampleInterval_sameFrames n)).trans (hput ..)
    · exact hc.trans (hput ..)
  · exact .refl d

theorem Dev.malReport_sameFrames (d : Dev) (f : Frame) (a : MalAct) : d.SameFrames (d.malReport f a) := by
  unfold Dev.malReport
  extract_lets n s d1 d2 c net d3 t d4
  have h1 : d.SameFrames d1 := .trans (.ofOnly (d.bump_only ..)) (.ofOnly (Dev.pmc_only ..))
  have h2 : d.SameFrames d2 := (h1.trans (.ofOnly (d1.setPd_only ..))).trans (.ofOnly (Dev.setPd_only ..))
  clear_value d2
  have h3 : d.SameFrames d3 := h2.trans (show d2.SameFrames d3 from ⟨rfl, rfl⟩)
  have h4 : d.SameFrames d4 := .ite (h3.trans (.ofOnly (d3.setPd_only ..))) h3
  exact .ite (h4.trans (.ofOnly (d4.raise_only ..))) h4

theorem Dev.dropSum_sameFrames (d : Dev) (p dir : Nat) : d.SameFrames (d.dropSum p dir) := by
  unfold Dev.dropSum
  extract_lets s net d1
  have h1 : d.SameFrames d1 := ⟨rfl, rfl⟩
  exact .ite (.ite (h1.trans (.ofOnly (d1.setPd_only ..))) (h1.trans (.ofOnly (d1.setCd_only ..)))) h1

theorem Dev.macDrop_sameFrames (d : Dev) (p k n : Nat) : d.SameFrames (d.macDrop p k n) :=
  (Dev.SameFrames.trans (.ofOnly (d.stat_only ..)) (.ofOnly (Dev.stat_only ..))).trans (Dev.dropSum_sameFrames ..)

theorem Dev.chargeTx_sameFrames (d : Dev) (q c wire : Nat) : d.SameFrames (d.chargeTx q c wire) := by
  unfold Dev.chargeTx
  extract_lets n s x x1 d1
  have h1 : d.SameFrames d1 := ⟨rfl, rfl⟩
  exact .ite (h1.trans ⟨rfl, rfl⟩) h1

theorem Dev.placeCopies_sameFrames (d : Dev) (l : List Copy) : d.SameFrames (d.placeCopies l) := by
  induction l generalizing d with
  | nil => exact .refl d
  | cons c cs ih => refine .ite (.refl d) (.trans ?_ (ih _)); exact ⟨rfl, rfl⟩

/-! ### What reception writes of a frame -/

/-- What of a frame reception alone writes: no later step of its path changes it. -/
structure Received where
  id : Nat
  port : Nat
  die : Nat
  take : Nat
  stamp : Nat
  bytes : List Byte
  whole : Bool

/-- What reception has written of a frame. -/
def Frame.received (f : Frame) : Received := ⟨f.id, f.port, f.die, f.take, f.stamp, f.bytes, f.whole⟩

/-- Every frame of the device is received in a way that P tells. -/
def Dev.AllFrames (P : Received → Prop) (d : Dev) : Prop := ∀ g ∈ d.net.frames, P g.received

/-- From d to t every frame has kept its place and number, no frame was added, and frames that P tells of became none of
which it does not. -/
structure Dev.Passed (P : Received → Prop) (d t : Dev) : Prop where
  ids : t.net.frames.map (·.id) = d.net.frames.map (·.id)
  nextId : t.net.nextId = d.net.nextId
  all : d.AllFrames P → t.AllFrames P

section
variable {P : Received → Prop} {d t : Dev} {f : Frame}

theorem Dev.mem_of_frame? {id : Nat} (h : d.frame? id = some f) : f ∈ d.net.frames := List.mem_of_find?_eq_some h

theorem Dev.id_of_frame? {id : Nat} (h : d.frame? id = some f) : f.id = id := by
  simpa using List.find?_some h

theorem Dev.AllFrames.of_frame? {id : Nat} (h : d.AllFrames P) (e : d.frame? id = some f) : P f.received :=
  h f (Dev.mem_of_frame? e)

theorem Dev.SameFrames.all (h : d.SameFrames t) (k : d.AllFrames P) : t.AllFrames P := by
  unfold Dev.AllFrames
  rw [h.frames]
  exact k

theorem Dev.SameFrames.passed (h : d.SameFrames t) : d.Passed P t := ⟨by rw [h.frames], h.nextId, h.all⟩

theorem Dev.Passed.refl (d : Dev) : d.Passed P d := (SameFrames.refl d).passed

theorem Dev.Passed.trans {u : Dev} (h : d.Passed P t) (k : t.Passed P u) : d.Passed P u :=
  ⟨k.ids.trans h.ids, k.nextId.trans h.nextId, fun a => k.all (h.all a)⟩

theorem Dev.Passed.ite {u : Dev} {c : Prop} [Decidable c] (h : d.Passed P t) (k : d.Passed P u) :
    d.Passed P (if c then t else u) := by split <;> assumption

/-! ### The front of the frame path passes frames on -/

theorem Dev.setFrame_ids (d : Dev) (f : Frame) : (d.setFrame f).net.frames.map (·.id) = d.net.frames.map (·.id) := by
  simp only [Dev.setFrame, List.map_map]
  refine List.map_congr_left fun g _ => ?_
  by_cases h : g.id = f.id <;> simp [h]

theorem Dev.setFrame_all (h : d.AllFrames P) (hf : P f.received) : (d.setFrame f).AllFrames P := by
  intro g hg
  obtain ⟨x, hx, rfl⟩ := List.mem_map.mp hg
  split
  · exact hf
  · exact h x hx

theorem Dev.setFrame_passed (d : Dev) (hf : P f.received) : d.Passed P (d.setFrame f) :=
  ⟨d.setFrame_ids f, rfl, fun h => Dev.setFrame_all h hf⟩

/-- A frame of the device replaced by one that arrived the same way. -/
theorem Dev.setFrame_passed_of_frame? {id : Nat} {g : Frame} (e : d.frame? id = some g) (hr : f.received = g.received) :
    d.Passed P (d.setFrame f) :=
  ⟨d.setFrame_ids f, rfl, fun h => Dev.setFrame_all h (hr ▸ h.of_frame? e)⟩

theorem Dev.countFor_passed (d : Dev) (f : Frame) (k : WKey) : d.Passed P (d.countFor f k) := by
  unfold Dev.countFor
  split
  next g e =>
    split
    · exact (SameFrames.ofOnly (d.bump_only ..)).passed
    · exact Dev.setFrame_passed_of_frame? e rfl
  next => exact (SameFrames.ofOnly (d.bump_only ..)).passed

theorem Dev.hostLoop_passed (d : Dev) (hf : P f.received) : d.Passed P (d.hostLoop f).1 := by
  unfold Dev.hostLoop
  split
  · split
    · exact (d.setFrame_passed (by exact hf)).trans (Dev.countFor_passed ..)
    · exact d.setFrame_passed hf
  · exact d.setFrame_passed hf

theorem Dev.outcome_passed (d : Dev) (hf : P f.received) : d.Passed P (d.outcome f) := by
  unfold Dev.outcome
  extract_lets f1
  have h1 : P f1.received := hf
  refine .ite (d.setFrame_passed h1) ?_
  split
  · exact (d.setFrame_passed h1).trans (Dev.countFor_passed ..)
  · exact d.hostLoop_passed h1

theorem Dev.faultAction_passed (d : Dev) (act cause : Nat) (hf : P f.received) : d.Passed P (d.faultAction f act cause) := by
  unfold Dev.faultAction
  split
  · exact d.setFrame_passed (by exact hf)
  · exact d.outcome_passed hf
  · exact d.setFrame_passed (by exact hf)
  · exact .ite (d.setFrame_passed (by exact hf)) (d.hostLoop_passed (by exact hf))

theorem Dev.startProgram_passed (d : Dev) (hf : P f.received) : d.Passed P (d.startProgram f) := by
  unfold Dev.startProgram
  dsimp only
  split
  · exact .refl d
  · refine .ite ?_ (.ite ?_ ?_)
    · have h := d.sampleStart_sameFrames f.die (pipeOf f.port)
      refine .trans (.trans (SameFrames.passed ?_) (Dev.setFrame_passed _ ?_)) (SameFrames.ofOnly (Dev.pmc_only ..)).passed
      · exact h.trans ⟨rfl, rfl⟩
      · exact hf
    · exact (SameFrames.ofOnly (d.faultReport_only ..)).passed.trans (Dev.faultAction_passed _ _ _ (by exact hf))
    · refine .trans (.trans (.ite ?_ (.refl d)) (SameFrames.ofOnly (Dev.faultReport_only ..)).passed)
        (Dev.faultAction_passed _ _ _ hf)
      exact (SameFrames.trans (.ofOnly (d.setPd_only ..)) (.ofOnly (Dev.raise_only ..))).passed

theorem Dev.stall_passed (d : Dev) (k : Nat) (hf : P f.received) : d.Passed P (d.stall f k) :=
  (d.setFrame_passed (by exact hf)).trans
    (SameFrames.trans (.ofOnly (Dev.slowNote_only ..)) (Dev.cellTest_sameFrames ..)).passed

theorem Dev.startOrWait_passed (d : Dev) (hf : P f.received) : d.Passed P (d.startOrWait f) := by
  unfold Dev.startOrWait
  extract_lets f1
  have h1 : P f1.received := hf
  exact .ite (d.stall_passed 2 h1) ((d.setFrame_passed h1).trans (Dev.startProgram_passed _ h1))

theorem Dev.parityDrop_passed (d : Dev) (c : ClsRes) (hf : P f.received) : d.Passed P (d.parityDrop f c) := by
  unfold Dev.parityDrop
  exact (d.setFrame_passed (by exact hf)).trans (Dev.countFor_passed ..)

theorem Dev.scanStep_passed (d : Dev) (read : List BadWord) (hf : P f.received) : d.Passed P (d.scanStep f read) := by
  unfold Dev.scanStep
  dsimp only
  refine .ite (d.startOrWait_passed hf) ?_
  split
  · exact d.setFrame_passed (by exact hf)
  next r e =>
    have hr : d.Passed P r.1 := (SameFrames.ofOnly ((d.scan_only ..).of e)).passed
    exact .ite (d.stall_passed 1 (by exact hf))
      (.ite (hr.trans (Dev.parityDrop_passed _ _ hf)) (hr.trans (Dev.startOrWait_passed _ (by exact hf))))

theorem Dev.lookStep_passed (d : Dev) (read : List BadWord) (hf : P f.received) : d.Passed P (d.lookStep f read) := by
  unfold Dev.lookStep
  dsimp only
  have hs : d.Passed P (d.search f read).1 := (SameFrames.ofOnly (d.search_only f read)).passed
  exact .ite (d.parityDrop_passed _ hf) (.ite (d.stall_passed 0 (by exact hf))
    (.ite (hs.trans (Dev.parityDrop_passed _ _ hf)) (hs.trans (Dev.scanStep_passed _ _ (by exact hf)))))

theorem Dev.malEarly_passed (d : Dev) (f : Frame) (a : MalAct) : d.Passed P (d.malEarly f a) := by
  unfold Dev.malEarly
  extract_lets d1 r
  have h1 : d.SameFrames d1 := d.malReport_sameFrames f a
  have hr : d.SameFrames r.1 := h1.trans (.ofOnly (d1.malCopy_only ..))
  refine .ite h1.passed ?_
  split
  next g e => exact hr.passed.trans (Dev.setFrame_passed_of_frame? e rfl)
  next => exact hr.passed

theorem Dev.verdict_passed (d : Dev) (r : ParseRes) (hf : P f.received) : d.Passed P (d.verdict f r) := by
  unfold Dev.verdict
  dsimp only
  have set {t : Dev} {g : Frame} (h : d.Passed P t) (hg : P g.received) : d.Passed P (t.setFrame g) :=
    h.trans (t.setFrame_passed hg)
  have h0 {c : Prop} [Decidable c] : d.Passed P (if c then d.graphAlarm f.die f.port r.badAddr else d) :=
    .ite (SameFrames.ofOnly (d.graphAlarm_only ..)).passed (.refl d)
  exact .ite ((set h0 (by exact hf)).trans (Dev.malEarly_passed ..)) (set h0 (by exact hf))

theorem Dev.verdictSafe_passed (d : Dev) (hf : P f.received) : d.Passed P (d.verdictSafe f) := by
  unfold Dev.verdictSafe
  dsimp only
  exact .ite ((d.setFrame_passed (by exact hf)).trans (Dev.malEarly_passed ..)) (d.setFrame_passed (by exact hf))

theorem Dev.parseNow_passed (d : Dev) (read : List BadWord) (hf : P f.received) : d.Passed P (d.parseNow f read) := by
  unfold Dev.parseNow
  dsimp only
  refine .ite (.refl d) (.ite (d.verdictSafe_passed hf) ?_)
  split
  · exact .refl d
  · have h1 : d.Passed P (d.pmc f.die 0x01 (some (pipeOf f.port)) none (some (idxOf f.port)) 1) :=
      (SameFrames.ofOnly (d.pmc_only ..)).passed
    exact .ite (h1.trans (Dev.verdict_passed _ _ hf)) (h1.trans (Dev.lookStep_passed _ read (by exact hf)))

theorem Dev.startWalk_passed (d : Dev) (read : List BadWord) (hf : P f.received) : d.Passed P (d.startWalk f read) :=
  (d.setFrame_passed (by exact hf)).trans (Dev.parseNow_passed _ read (by exact hf))

theorem Dev.advance_passed (d : Dev) (read : List BadWord) (hf : P f.received) : d.Passed P (d.advance f read) := by
  unfold Dev.advance
  split
  · exact d.parseNow_passed read hf
  · exact d.lookStep_passed read hf
  · exact d.scanStep_passed read hf
  · exact d.startOrWait_passed hf
  · exact .refl d

end

section
variable {P : Received → Prop} {d t : Dev} {f : Frame}

/-! ### The end of a frame keeps what reception wrote of the others -/

theorem Dev.dropFrame_all (id : Nat) (h : d.AllFrames P) : (d.dropFrame id).AllFrames P :=
  fun g hg => h g (List.mem_filter.mp hg).1

theorem Dev.moveLast_all (h : d.AllFrames P) (hf : P f.received) : (d.moveLast f).AllFrames P := by
  intro g hg
  obtain hg | hg := List.mem_append.mp hg
  · exact h g (List.mem_filter.mp hg).1
  · rw [List.mem_singleton.mp hg]
    exact hf

theorem Dev.AllFrames.foldl {α : Type} {op : Dev → α → Dev} (hop : ∀ (e : Dev) a, e.AllFrames P → (op e a).AllFrames P)
    (l : List α) (h : d.AllFrames P) : (l.foldl op d).AllFrames P := by
  induction l generalizing d with
  | nil => exact h
  | cons a l ih => exact ih (hop d a h)

theorem Dev.AllFrames.ite {c : Prop} [Decidable c] (h : d.AllFrames P) (k : t.AllFrames P) :
    (if c then d else t).AllFrames P := by split <;> assumption

theorem Dev.reap_all (id : Nat) (h : d.AllFrames P) : (d.reap id).AllFrames P := by
  unfold Dev.reap
  split
  · exact .ite ((Dev.cellTest_sameFrames ..).all (Dev.dropFrame_all _ h)) ((d.cellTest_sameFrames ..).all h)
  · exact h

theorem Dev.takeOut_all (c : Copy) (sentOut : Bool) (h : d.AllFrames P) : (d.takeOut c sentOut).AllFrames P := by
  unfold Dev.takeOut
  extract_lets net d1
  have h1 : d1.AllFrames P := h
  split
  next f _ =>
    have h2 : (if sentOut then d1 else d1.captureLost f c.port).AllFrames P :=
      .ite h1 ((SameFrames.ofOnly (d1.captureLost_only ..)).all h1)
    exact Dev.reap_all _ ((Dev.placeCopies_sameFrames ..).all ((SameFrames.ofOnly (Dev.slotMeasure_only ..)).all h2))
  next => exact h1

theorem Dev.endBad_all (f : Frame) (c : Copy) (cause : Nat) (h : d.AllFrames P) : (d.endBad f c cause).AllFrames P := by
  unfold Dev.endBad
  refine .ite (Dev.takeOut_all _ _ h) (.ite ?_ (Dev.takeOut_all _ _ ((SameFrames.ofOnly (d.bump_only ..)).all h)))
  refine Dev.takeOut_all _ _ ((Dev.chargeTx_sameFrames ..).all (.ite ?_ ?_))
  · exact (SameFrames.ofOnly (d.abortEvent_only ..)).all h
  · exact (SameFrames.ofOnly (d.countAbort_only ..)).all h

theorem Dev.badOutcome_all (id cause : Nat) (h : d.AllFrames P) : (d.badOutcome id cause).AllFrames P := by
  refine .foldl (fun e c he => ?_) _ h
  split
  · exact Dev.endBad_all _ _ _ he
  · exact he

theorem Dev.verdictLate_all (reason idx off : Nat) (h : d.AllFrames P) (hf : P f.received) :
    (d.verdictLate f reason idx off).AllFrames P := by
  unfold Dev.verdictLate
  dsimp only
  have h1 {g : Frame} {a : MalAct} (hg : P g.received) : ((d.setFrame g).malReport g a).AllFrames P :=
    (Dev.malReport_sameFrames ..).all (Dev.setFrame_all h hg)
  have h2 {g : Frame} {a : MalAct} (hg : P g.received) :
      ((((d.setFrame g).malReport g a).badOutcome f.id 1).malCopy g a).1.AllFrames P :=
    (SameFrames.ofOnly (Dev.malCopy_only ..)).all (Dev.badOutcome_all _ _ (h1 hg))
  refine .ite (h1 (by exact hf)) ?_
  split
  · exact h2 (by exact hf)
  next g e =>
    have hg : P g.received := (h2 (by exact hf)).of_frame? e
    exact .ite (Dev.moveLast_all (h2 (by exact hf)) (by exact hg)) (Dev.setFrame_all (h2 (by exact hf)) (by exact hg))

theorem Dev.tailLate_all (h : d.AllFrames P) (hf : P f.received) : (d.tailLate f).AllFrames P := by
  unfold Dev.tailLate
  refine .ite ?_ h
  split
  · exact Dev.verdictLate_all _ _ _ h hf
  · exact h

theorem Dev.tailChecks_all (read : List BadWord) (h : d.AllFrames P) (hf : P f.received) :
    (d.tailChecks f read).AllFrames P := by
  unfold Dev.tailChecks
  split
  · exact (d.malEarly_passed ..).all h
  · have h1 : (d.tailLate f).AllFrames P := Dev.tailLate_all h hf
    dsimp only
    split
    next g e => exact .ite ((Dev.advance_passed _ read (h1.of_frame? e)).all h1) h1
    next => exact h1

theorem Dev.tailKnown_all (id : Nat) (h : d.AllFrames P) : (d.tailKnown id).AllFrames P := by
  unfold Dev.tailKnown
  split
  next g e =>
    have hg : P g.received := h.of_frame? e
    exact .foldl (fun x k hx => (SameFrames.ofOnly (x.bump_only ..)).all hx) _ (Dev.setFrame_all h (by exact hg))
  next => exact h

theorem Dev.ingressLearn_all (id : Nat) (h : d.AllFrames P) : (d.ingressLearn id).AllFrames P := by
  unfold Dev.ingressLearn
  split
  next g e =>
    have hg : P g.received := h.of_frame? e
    exact .ite ((SameFrames.ofOnly (Dev.learn_only ..)).all (Dev.setFrame_all h (by exact hg))) h
  next => exact h

theorem Dev.tailHost_all (id : Nat) (h : d.AllFrames P) : (d.tailHost id).AllFrames P := by
  unfold Dev.tailHost
  split
  next g e =>
    have hg : P g.received := h.of_frame? e
    exact .ite h (.ite (Dev.moveLast_all h (by exact hg)) (Dev.setFrame_all h (by exact hg)))
  next => exact h

theorem Dev.countRed_all (h : d.AllFrames P) (hf : P f.received) : (d.countRed f).AllFrames P := by
  unfold Dev.countRed
  split
  · refine .ite (Dev.setFrame_all ?_ (by exact hf)) h
    exact (SameFrames.ofOnly (Dev.raiseOnce_only ..)).all h
  · exact h

theorem Dev.startReady_all (n p : Nat) (h : d.AllFrames P) : (d.startReady n p).AllFrames P := by
  refine .foldl (fun e f he => ?_) _ h
  split
  next g eg => exact .ite ((e.startProgram_passed (he.of_frame? eg)).all he) he
  next => exact he

theorem Dev.freeFrame_all (id : Nat) (h : d.AllFrames P) : (d.freeFrame id).AllFrames P := by
  unfold Dev.freeFrame
  split
  · exact Dev.startReady_all _ _ h
  · exact h

end

/-- What has arrived is whole if it came under number id. -/
def Received.wholeAs (id : Nat) (r : Received) : Prop := r.id = id → r.whole = true

/-- After a frame is set whole, the frames of its number are whole. -/
theorem Dev.setFrame_whole (d : Dev) {f : Frame} (hw : f.whole = true) :
    (d.setFrame f).AllFrames (Received.wholeAs f.id) := by
  intro g hg
  obtain ⟨x, -, rfl⟩ := List.mem_map.mp hg
  split
  · exact fun _ => hw
  next hx => exact fun h => absurd h hx

/-- A frame that its MAC accepts is whole as long as it is there. -/
theorem Dev.accept_whole (d : Dev) (f : Frame) (read : List BadWord) :
    (d.accept f read).AllFrames (Received.wholeAs f.id) := by
  unfold Dev.accept
  extract_lets f0 f1 d1 d2 f2 d3
  have hf1 : f1.received.wholeAs f.id := fun _ => rfl
  have h1 : d1.AllFrames (Received.wholeAs f.id) :=
    (SameFrames.trans (.ofOnly (Dev.rxStats_only ..)) (.ofOnly (Dev.countAccepted_only ..))).all (d.setFrame_whole rfl)
  have h2 : d2.AllFrames (Received.wholeAs f.id) := .ite (Dev.countRed_all h1 hf1) h1
  have hf2 : f2.received.wholeAs f.id := by
    cases e : d2.frame? f.id with
    | none => simpa [f2, e] using hf1
    | some g => simpa [f2, e] using h2.of_frame? e
  have h3 : d3.AllFrames (Received.wholeAs f.id) :=
    .ite ((d2.bpTest_sameFrames f.port).all h2) (Dev.tailChecks_all read h2 hf2)
  exact Dev.reap_all _ (Dev.tailHost_all _ (Dev.ingressLearn_all _ (Dev.tailKnown_all _ h3)))

/-- No frame under the number of one that its MAC drops is left. -/
theorem Dev.macDropFrame_gone (d : Dev) (f : Frame) (k len cause : Nat) :
    (d.macDropFrame f k len cause).AllFrames (·.id ≠ f.id) := by
  have gone (e : Dev) : (e.dropFrame f.id).AllFrames (·.id ≠ f.id) := fun g hg => by
    simpa [Frame.received] using (List.mem_filter.mp hg).2
  have h : Dev.AllFrames (·.id ≠ f.id) (((((d.macDrop f.port k len).badOutcome f.id cause).dropFrame f.id).freeFrame
      f.id).cellTest f.die f.port) := (Dev.cellTest_sameFrames ..).all (Dev.freeFrame_all _ (gone _))
  exact .ite ((Dev.bpTest_sameFrames ..).all h) h

/-! ### The statistics of a port -/

/-- A statistic of a port after one of them has advanced. -/
theorem Dev.portStat_stat (d : Dev) (p idx n i : Nat) :
    (d.stat p idx n).portStat p i = if idx = i then (d.portStat p idx + n) % 2 ^ 64 else d.portStat p i := by
  unfold Dev.stat Dev.portStat
  split <;> simp [Wide.info]

/-- The statistics of ports lie in the wide value obStat. -/
theorem Only.portStat {ps : List Part} {fs : Option (List Fld)} {xs : List Wide} {d t : Dev}
    (h : Only ps fs (some xs) d t) (p i : Nat) (hx : xs.contains .obStat = false := by decide) :
    t.portStat p i = d.portStat p i := by
  have hw (w i j : Nat) : t.wide .obStat w i j = d.wide .obStat w i j := h.wide xs rfl _ w i j hx (by simp)
  simp [Dev.portStat, hw]

section
variable (d : Dev) (f : Frame) (p i : Nat)

theorem Dev.countFor_portStat {k : WKey} (hk : k.x ≠ .obStat) : (d.countFor f k).portStat p i = d.portStat p i := by
  have hb : (d.bump k.x k.w k.i k.j 1).portStat p i = d.portStat p i :=
    (d.bump_only ..).portStat p i (by simpa using Ne.symm hk)
  unfold Dev.countFor
  split
  · split
    · exact hb
    · rfl
  · exact hb

theorem Dev.hostLoop_portStat : (d.hostLoop f).1.portStat p i = d.portStat p i := by
  unfold Dev.hostLoop
  split
  · split
    · exact Dev.countFor_portStat _ _ p i (by simp)
    · rfl
  · rfl

theorem Dev.outcome_portStat : (d.outcome f).portStat p i = d.portStat p i := by
  unfold Dev.outcome
  extract_lets f1
  split
  · rfl
  · split
    · exact Dev.countFor_portStat _ _ p i (by simp)
    · exact d.hostLoop_portStat f1 p i

theorem Dev.faultAction_portStat (act cause : Nat) : (d.faultAction f act cause).portStat p i = d.portStat p i := by
  unfold Dev.faultAction
  split
  · rfl
  · exact d.outcome_portStat f p i
  · rfl
  · split
    · rfl
    · exact d.hostLoop_portStat _ p i

theorem Dev.startProgram_portStat : (d.startProgram f).portStat p i = d.portStat p i := by
  unfold Dev.startProgram
  dsimp only
  split
  · rfl
  · split
    · exact ((Dev.pmc_only ..).portStat p i).trans ((d.sampleStart_only ..).portStat p i)
    · split
      · exact (Dev.faultAction_portStat _ _ p i ..).trans ((d.faultReport_only ..).portStat p i)
      · refine ((Dev.faultAction_portStat _ _ p i ..).trans ((Dev.faultReport_only ..).portStat p i)).trans ?_
        split
        · exact ((Dev.raise_only ..).portStat p i).trans ((d.setPd_only ..).portStat p i)
        · rfl

theorem Dev.startReady_portStat (n q : Nat) : (d.startReady n q).portStat p i = d.portStat p i := by
  unfold Dev.startReady
  refine List.foldlRecOn (motive := fun e : Dev => e.portStat p i = d.portStat p i) _ _ rfl fun e he f _ => ?_
  split
  · split
    · exact (e.startProgram_portStat _ p i).trans he
    · exact he
  · exact he

theorem Dev.freeFrame_portStat (id : Nat) : (d.freeFrame id).portStat p i = d.portStat p i := by
  unfold Dev.freeFrame
  split
  · exact (Dev.startReady_portStat _ p i ..).trans ((d.freeEngine_only _).portStat p i)
  · rfl

end

/-- A frame that a MAC drops under precedence k counts one in the drop counter of k. -/
theorem Dev.macDropFrame_portStat (d : Dev) (f : Frame) {k : Nat} (len cause : Nat) :
    (d.macDropFrame f k len cause).portStat f.port (0x0F + k) = (d.portStat f.port (0x0F + k) + 1) % 2 ^ 64 := by
  have hdrop : (d.macDrop f.port k len).portStat f.port (0x0F + k) = (d.portStat f.port (0x0F + k) + 1) % 2 ^ 64 := by
    unfold Dev.macDrop
    rw [(Dev.dropSum_only ..).portStat, Dev.portStat_stat, if_neg (by omega), Dev.portStat_stat, if_pos rfl]
  have hend : (((((d.macDrop f.port k len).badOutcome f.id cause).dropFrame f.id).freeFrame f.id).cellTest f.die
      f.port).portStat f.port (0x0F + k) = (d.portStat f.port (0x0F + k) + 1) % 2 ^ 64 := by
    rw [(Dev.cellTest_only ..).portStat, Dev.freeFrame_portStat, (Dev.dropFrame_only ..).portStat,
      (Dev.badOutcome_only ..).portStat, hdrop]
  unfold Dev.macDropFrame
  dsimp only
  split
  · rw [(Dev.bpTest_only ..).portStat, hend]
  · exact hend

/-- The counts of codewords are statistics 0x3C and 0x3D. -/
theorem Dev.fecStats_portStat (d : Dev) (p : Nat) (fec : Nat × Nat) {i : Nat} (h1 : i ≠ 0x3C) (h2 : i ≠ 0x3D) :
    (d.fecStats p fec).portStat p i = d.portStat p i := by
  unfold Dev.fecStats
  split
  · rw [Dev.portStat_stat, if_neg h2.symm, Dev.portStat_stat, if_neg h1.symm]
  · rfl

/-! ### The MAC's verdict on a frame in reception -/

/-- The precedences of Table 4-1 are 12 at most. -/
theorem macVerdict_le {f : Frame} {line fcsOk octets codeErr pfc : Bool} {len k : Nat}
    (h : macVerdict f line len fcsOk octets codeErr pfc = some k) : k ≤ 12 := by
  unfold macVerdict at h
  repeat' split at h
  all_goals cases h <;> decide

/-- No frame of a port waits: its next part finds none to serve first. -/
theorem Dev.resume_of_none_waiting {d : Dev} {p : Nat} (h : ∀ g ∈ d.net.frames, g.port = p → g.waiting = false)
    (read : List BadWord) : d.resume p read = d := by
  have hn : d.net.frames.find? (fun f => f.port = p && f.waiting) = none := by
    rw [List.find?_eq_none]
    intro g hg hw
    simp only [Bool.and_eq_true, decide_eq_true_eq] at hw
    simp [h g hg hw.1] at hw
  simp [Dev.resume, hn]

theorem Dev.port_of_arriving {d : Dev} {p : Nat} {f : Frame} (h : d.arriving p = some f) : f.port = p := by
  have := List.find?_some h
  simp only [Bool.and_eq_true, decide_eq_true_eq] at this
  exact this.1

/-- What the MAC makes of the frame that a port is receiving once its tail is there. -/
theorem Dev.tailEnd_of_arriving {d : Dev} {p : Nat} {f : Frame} (h : d.arriving p = some f) (rest : List Byte)
    (fcsOk octets codeErr fc : Bool) (read : List BadWord) :
    d.tailEnd p rest fcsOk octets codeErr fc read =
      let r := f.receive rest
      let g := { r with counts := [] }
      match macVerdict r (p < 128) r.lenNow fcsOk (octets || p < 128) codeErr (validPfc r) with
      | some k => (d.countTail r).macDropFrame g k (if k = 12 then 0 else r.lenNow) 0
      | none => if r.control then (d.countTail r).takePfc g else (d.countTail r).accept g read := by
  unfold Dev.tailEnd
  rw [h]
  rfl

/-! ### FRAME_HEAD_ARRIVAL at a line port -/

/-- The frame that a head at a line port begins, with its stamp (R264) and the take of it (R129). -/
def Dev.lineFrame (d : Dev) (p : Nat) (head : List Byte) (back slow : Nat) : Frame :=
  let stamp := stampAt (d.instant (dieOf p)) (d.rxOffset p - back)
  Frame.receive { id := d.net.nextId, die := dieOf p, port := p, take := d.takeAt (dieOf p) stamp, bytes := [],
                  maxlen := d.maxlenOf p, stage := .cd, slow := slow, stamp := stamp } head

/-- The device with one frame more, under the next number. -/
def Dev.addFrame (d : Dev) (f : Frame) : Dev :=
  { d with net := { d.net with nextId := d.net.nextId + 1, frames := d.net.frames ++ [f] } }

/-- A head at an up line port with no frame in reception adds its frame, whose walk begins. -/
theorem Dev.headArrival_line {d : Dev} {p : Nat} (hp : p < 128) (hlive : d.liveDie (dieOf p) = true)
    (hexists : d.portExists p = true) (hup : d.portUp p = true) (hidle : d.arriving p = none) (head : List Byte)
    (back slow : Nat) (read : List BadWord) :
    d.headArrival p head back slow read =
      ((d.noteBad read).addFrame (d.lineFrame p head back slow)).startWalk (d.lineFrame p head back slow) read := by
  have hfield : ¬ 128 ≤ p := by omega
  have hisl : stampIsl p = dieOf p := by simp [stampIsl, dieOf, hp]
  simp [Dev.headArrival, hlive, hexists, hup, hidle, hfield, hp, hisl, Dev.lineFrame, Dev.addFrame, Dev.noteBad]

theorem Dev.lineFrame_received (d : Dev) (p : Nat) (head : List Byte) (back slow : Nat) :
    (d.lineFrame p head back slow).received =
      let stamp := stampAt (d.instant (dieOf p)) (d.rxOffset p - back)
      ⟨d.net.nextId, p, dieOf p, d.takeAt (dieOf p) stamp, stamp, head.take (d.maxlenOf p + 1), false⟩ := by
  simp [Dev.lineFrame, Frame.receive, Frame.received]

/-- What has arrived is x if it came under the number of x. -/
def Received.only (x r : Received) : Prop := r.id = x.id → r = x

/-- With every number below the next one, the frame added under the next number is the only one of it. -/
theorem Dev.addFrame_only {d : Dev} {f : Frame} (hf : f.id = d.net.nextId) (hd : ∀ g ∈ d.net.frames, g.id < d.net.nextId) :
    (d.addFrame f).AllFrames f.received.only := by
  intro g hg hid
  have hid : g.id = f.id := hid
  obtain hg | hg := List.mem_append.mp hg
  · have := hd g hg
    omega
  · rw [List.mem_singleton.mp hg]

/-- A frame that is the only one of its number is found under it after the front of the frame path. -/
theorem Dev.Passed.frame?_of_only {d t : Dev} {f : Frame} (h : d.Passed f.received.only t)
    (hd : d.AllFrames f.received.only) (hf : f ∈ d.net.frames) :
    ∃ g, t.frame? f.id = some g ∧ g.received = f.received := by
  have hids : f.id ∈ t.net.frames.map (·.id) := h.ids ▸ List.mem_map_of_mem hf
  obtain ⟨x, hx, hxid⟩ := List.mem_map.mp hids
  have hsome : (t.frame? f.id).isSome = true := List.find?_isSome.mpr ⟨x, hx, by simpa using hxid⟩
  obtain ⟨g, hg⟩ := Option.isSome_iff_exists.mp hsome
  exact ⟨g, hg, (h.all hd).of_frame? hg (Dev.id_of_frame? hg)⟩

/-- A head that begins a frame leaves it in the device as it arrived, and the next number one higher. -/
theorem Dev.headArrival_adds {d : Dev} {p : Nat} (hp : p < 128) (hlive : d.liveDie (dieOf p) = true)
    (hexists : d.portExists p = true) (hup : d.portUp p = true) (hidle : d.arriving p = none)
    (hids : ∀ g ∈ d.net.frames, g.id < d.net.nextId) (head : List Byte) (back slow : Nat) (read : List BadWord) :
    (d.headArrival p head back slow read).net.nextId = d.net.nextId + 1 ∧
      ∃ g, (d.headArrival p head back slow read).frame? d.net.nextId = some g ∧
        g.received = (d.lineFrame p head back slow).received := by
  rw [Dev.headArrival_line hp hlive hexists hup hidle]
  have hall := Dev.addFrame_only (d := d.noteBad read) (f := d.lineFrame p head back slow) rfl hids
  have hwalk := Dev.startWalk_passed (P := (d.lineFrame p head back slow).received.only) (f := d.lineFrame p head back slow)
    ((d.noteBad read).addFrame (d.lineFrame p head back slow)) read fun _ => rfl
  exact ⟨hwalk.nextId, hwalk.frame?_of_only hall (List.mem_append_right _ (List.mem_singleton_self _))⟩

/-! ### FRAME_TAIL_END of a frame in reception -/

/-- Under precedence k the tail's frame is gone and its port's drop counter of k has advanced. -/
theorem Dev.tailEnd_of_macVerdict {d : Dev} {p k : Nat} {f : Frame} (h : d.arriving p = some f) {rest : List Byte}
    {fcsOk octets codeErr : Bool} (fc : Bool) (read : List BadWord)
    (hk : macVerdict (f.receive rest) (p < 128) (f.receive rest).lenNow fcsOk (octets || p < 128) codeErr
      (validPfc (f.receive rest)) = some k) :
    (d.tailEnd p rest fcsOk octets codeErr fc read).frame? f.id = none ∧
      (d.tailEnd p rest fcsOk octets codeErr fc read).portStat p (0x0F + k) = (d.portStat p (0x0F + k) + 1) % 2 ^ 64 := by
  rw [Dev.tailEnd_of_arriving h]
  simp only [hk]
  refine ⟨List.find?_eq_none.mpr fun g hg hid => ?_, ?_⟩
  · have hid : g.id = f.id := by simpa using hid
    exact Dev.macDropFrame_gone _ _ _ _ _ g hg hid
  · have hf : f.port = p := Dev.port_of_arriving h
    have hport : ({ f.receive rest with counts := [] } : Frame).port = p := hf
    have hdrop := Dev.macDropFrame_portStat (d.countTail (f.receive rest)) { f.receive rest with counts := [] } (k := k)
      (if k = 12 then 0 else (f.receive rest).lenNow) 0
    rw [hport] at hdrop
    rw [hdrop, (Dev.countTail_only ..).portStat]

/-- With no precedence matched, what is left of the tail's frame is whole, unless it is a MAC control frame. -/
theorem Dev.tailEnd_of_no_macVerdict {d : Dev} {p : Nat} {f g : Frame} (h : d.arriving p = some f) {rest : List Byte}
    {fcsOk octets codeErr : Bool} {fc : Bool} {read : List BadWord}
    (hk : macVerdict (f.receive rest) (p < 128) (f.receive rest).lenNow fcsOk (octets || p < 128) codeErr
      (validPfc (f.receive rest)) = none) (hc : (f.receive rest).control = false)
    (hg : (d.tailEnd p rest fcsOk octets codeErr fc read).frame? f.id = some g) : g.whole = true := by
  rw [Dev.tailEnd_of_arriving h] at hg
  simp only [hk, hc] at hg
  exact (Dev.accept_whole _ _ _).of_frame? hg (Dev.id_of_frame? hg)

/-- What a tail meets first changes neither the frames nor a drop counter, while no frame of its port waits. -/
theorem Dev.arriving_portStat_before_tail {d : Dev} {p : Nat} (hw : ∀ g ∈ d.net.frames, g.port = p → g.waiting = false)
    (read : List BadWord) (fec : Nat × Nat) :
    let t := ((d.noteBad read).fecStats p fec).resume p read
    t.arriving p = d.arriving p ∧ ∀ k ≤ 12, t.portStat p (0x0F + k) = d.portStat p (0x0F + k) := by
  have hs : d.SameFrames ((d.noteBad read).fecStats p fec) :=
    (d.noteBad_sameFrames read).trans (.ofOnly (Dev.fecStats_only ..))
  rw [Dev.resume_of_none_waiting (by rwa [hs.frames])]
  refine ⟨by simp only [Dev.arriving, hs.frames], fun k hk => ?_⟩
  rw [Dev.fecStats_portStat _ _ _ (by omega) (by omega), (d.noteBad_only read).portStat]

/-- Settles O23: the front of the frame path keeps what reception wrote of the new frame, the MAC's drop takes out the frame
with its number, and every step after the acceptance keeps it whole. -/
theorem framesArrive : Obligations.FramesArrive := by
  constructor
  · intro p head back slow s hp hlive hexists hup hidle hids stamp
    obtain ⟨hnext, g, hg, hr⟩ := Dev.headArrival_adds (d := s.dev.quiet) hp hlive hexists hup hidle hids head back slow []
    rw [Dev.lineFrame_received] at hr
    injection hr with _ hport hdie htake hstamp hbytes hwhole
    refine ⟨s.dev.quiet.headArrival p head back slow [], ?_, hnext, g, hg, hport, hbytes, hdie, htake, hwhole, hstamp⟩
    have hp' : p.val < 132 := by omega
    simp [exec, execFrameHeadArrival, onDev, State.put, hp']
  · intro p rest fcsOk octets fc code s f hp harr _ hwait r len
    obtain ⟨harriving, hstat⟩ := Dev.arriving_portStat_before_tail (d := s.dev.quiet) (p := p) hwait rest.bad code.fec
    have h := harriving.trans harr
    refine ⟨_, by simp only [exec, execFrameTailEnd, onDev, hp, if_true]; rfl, fun k hk => ?_, fun hk hc g hg => ?_⟩
    · obtain ⟨hgone, hcount⟩ := Dev.tailEnd_of_macVerdict h fc rest.bad hk
      exact ⟨hgone, hcount.trans (by rw [hstat k (macVerdict_le hk)]; rfl)⟩
    · exact Dev.tailEnd_of_no_macVerdict h hk hc hg

end Sys2Proof.Machine
end

section
/-! Proof of the statement on scrub passes and repairs: what a pass writes of a word it finds bad, and which wide values a
block's fall into its safe state may advance. -/

namespace Sys2Proof.Machine

/-! ### The wide values that an outage advances -/

/-- The wide values in which the loss of a port or a lane, and of the frames on it, is counted. -/
def outageWides : List Wide :=
  [.obStat, .swDownBp, .swDownFlush, .swCtAbort, .swCtDiscard, .tmCapOverflow, .aeHostLoop, .aeDropCount, .aeFaultCount,
    .aeCauseCount, .obSample, .obSampleLost, .lnBits, .lnBitErrors, .lnSyncErrors]

/-- Of the wide values only those of events and those of an outage have changed. -/
structure Dev.OutageWides (d t : Dev) : Prop where
  wide : ∀ x w i j, outageWides.contains x = false → ¬ evWide x → t.wide x w i j = d.wide x w i j

namespace Dev.OutageWides

theorem refl (d : Dev) : d.OutageWides d := ⟨fun _ _ _ _ _ _ => rfl⟩

theorem trans {a b c : Dev} (h : a.OutageWides b) (k : b.OutageWides c) : a.OutageWides c :=
  ⟨fun x w i j hx he => (k.wide x w i j hx he).trans (h.wide x w i j hx he)⟩

theorem ite {d a b : Dev} {c : Prop} [Decidable c] (h : d.OutageWides a) (k : d.OutageWides b) :
    d.OutageWides (if c then a else b) := by split <;> assumption

theorem foldl {α : Type} {d t : Dev} {f : Dev → α → Dev} (h : ∀ (e : Dev) a, e.OutageWides (f e a)) (l : List α)
    (k : d.OutageWides t) : d.OutageWides (l.foldl f t) := by
  induction l generalizing t with
  | nil => exact k
  | cons a l ih => exact ih (k.trans (h t a))

/-- The scope of the operation names no other wide values. -/
theorem ofOnly {ps : List Part} {fs : Option (List Fld)} {xs : List Wide} {d t : Dev} (h : Only ps fs (some xs) d t)
    (hx : xs.all outageWides.contains = true := by decide) : d.OutageWides t :=
  ⟨fun x w i j hn he => h.wide xs rfl x w i j (contains_false_of_all hx hn) he⟩

end Dev.OutageWides

theorem Dev.bump_outageWides (d : Dev) {k : WKey} (hk : outageWides.contains k.x = true) (n : Nat) :
    d.OutageWides (d.bump k.x k.w k.i k.j n) :=
  .ofOnly (d.bump_only ..) (by simpa using hk)

section
variable (d : Dev) (f : Frame)

/-! ### The frames on the port -/

theorem Dev.countFor_outageWides {k : WKey} (hk : outageWides.contains k.x = true) : d.OutageWides (d.countFor f k) := by
  unfold Dev.countFor
  split
  · exact .ite (d.bump_outageWides hk 1) (.ofOnly (d.setFrame_only ..))
  · exact d.bump_outageWides hk 1

theorem Dev.countPlace_outageWides {k : WKey} (hk : outageWides.contains k.x = true) :
    d.OutageWides (d.countPlace f k) := by
  unfold Dev.countPlace
  split
  · exact .ite (d.bump_outageWides hk 1) (.ofOnly (d.setFrame_only ..))
  · exact d.bump_outageWides hk 1

theorem Dev.hostLoop_outageWides : d.OutageWides (d.hostLoop f).1 := by
  unfold Dev.hostLoop
  split
  · split
    · exact .trans (.ofOnly (d.setFrame_only ..)) (Dev.countFor_outageWides _ _ rfl)
    · exact .ofOnly (d.setFrame_only ..)
  · exact .ofOnly (d.setFrame_only ..)

theorem Dev.outcome_outageWides : d.OutageWides (d.outcome f) := by
  unfold Dev.outcome
  extract_lets f1
  refine .ite (.ofOnly (d.setFrame_only ..)) ?_
  split
  · exact .trans (.ofOnly (d.setFrame_only ..)) (Dev.countFor_outageWides _ _ rfl)
  · exact d.hostLoop_outageWides f1

theorem Dev.faultAction_outageWides (act cause : Nat) : d.OutageWides (d.faultAction f act cause) := by
  unfold Dev.faultAction
  split
  · exact .ofOnly (d.setFrame_only ..)
  · exact d.outcome_outageWides f
  · exact .ofOnly (d.setFrame_only ..)
  · exact .ite (.ofOnly (d.setFrame_only ..)) (d.hostLoop_outageWides _)

theorem Dev.startProgram_outageWides : d.OutageWides (d.startProgram f) := by
  unfold Dev.startProgram
  dsimp only
  split
  · exact .refl d
  · refine .ite ?sampled (.ite ?parity ?badEntry)
    case sampled =>
      exact (Dev.OutageWides.ofOnly (d.sampleStart_only ..)).trans
        (.trans (.trans (.ofOnly (Dev.withNet_only ..)) (.ofOnly (Dev.setFrame_only ..))) (.ofOnly (Dev.pmc_only ..)))
    case parity => exact .trans (.ofOnly (d.faultReport_only ..)) (Dev.faultAction_outageWides ..)
    case badEntry =>
      refine .trans (.trans ?_ (.ofOnly (Dev.faultReport_only ..))) (Dev.faultAction_outageWides ..)
      exact .ite (.trans (.ofOnly (d.setPd_only ..)) (.ofOnly (Dev.raise_only ..))) (.refl d)

theorem Dev.startReady_outageWides (n p : Nat) : d.OutageWides (d.startReady n p) := by
  refine .foldl (fun e g => ?_) _ (.refl d)
  split
  · exact .ite (e.startProgram_outageWides _) (.refl e)
  · exact .refl e

theorem Dev.freeFrame_outageWides (id : Nat) : d.OutageWides (d.freeFrame id) := by
  unfold Dev.freeFrame
  split
  · exact .trans (.ofOnly (d.freeEngine_only _)) (Dev.startReady_outageWides ..)
  · exact .refl d

theorem Dev.macDropFrame_outageWides (k len cause : Nat) : d.OutageWides (d.macDropFrame f k len cause) := by
  unfold Dev.macDropFrame
  extract_lets d1 d2
  have h1 : d.OutageWides d1 := .trans (.ofOnly (d.macDrop_only ..)) (.ofOnly (Dev.badOutcome_only ..))
  have h2 : d1.OutageWides d2 :=
    .trans (.trans (.ofOnly (d1.dropFrame_only _)) (Dev.freeFrame_outageWides ..)) (.ofOnly (Dev.cellTest_only ..))
  exact .ite ((h1.trans h2).trans (.ofOnly (d2.bpTest_only _))) (h1.trans h2)

theorem Dev.cutReception_outageWides (p k cause : Nat) : d.OutageWides (d.cutReception p k cause) := by
  unfold Dev.cutReception
  split
  · exact d.macDropFrame_outageWides ..
  · exact .refl d

theorem Dev.cutFrames_outageWides (p cause : Nat) : d.OutageWides (d.cutFrames p cause) := by
  have hsent : d.OutageWides (if (d.sending p).isSome then d.cutTransmission p 0x31 else d) :=
    .ite (.ofOnly (d.cutTransmission_only ..)) (.refl d)
  exact .ite hsent (hsent.trans (Dev.cutReception_outageWides ..))

/-! ### The queues of the port -/

theorem Dev.discard_outageWides (c : Copy) {k : WKey} (hk : outageWides.contains k.x = true) :
    d.OutageWides (d.discard c k) := by
  unfold Dev.discard
  split
  · exact .ite (.trans (d.bump_outageWides hk 1) (.ofOnly (Dev.takeOut_only ..)))
      (.trans (d.countPlace_outageWides _ hk) (.ofOnly (Dev.takeOut_only ..)))
  · exact .ofOnly (d.takeOut_only ..)

theorem Dev.flushClass_outageWides (q c : Nat) : d.OutageWides (d.flushClass q c) :=
  .foldl (fun e _ => .ite (.ofOnly (e.raise_only ..)) (.refl e)) _
    (.foldl (fun e x => e.discard_outageWides x rfl) _ (.refl d))

theorem Dev.endHold_outageWides (q c : Nat) : d.OutageWides (d.endHold q c) := by
  unfold Dev.endHold
  exact .trans (.trans (.ofOnly (d.clrBit_only ..)) (.ofOnly (Dev.setBit_only ..))) (Dev.flushClass_outageWides ..)

theorem Dev.outputDown_outageWides (q : Nat) : d.OutageWides (d.outputDown q) := by
  unfold Dev.outputDown
  extract_lets n cs held d1 d2
  have h1 : d.OutageWides d1 := .foldl (fun e c => .ofOnly (e.setBit_only ..)) _ (.refl d)
  have h2 : d.OutageWides d2 := h1.trans (.ofOnly (d1.raise_only ..))
  exact .ite (.refl d) (.trans (.foldl (fun e c => e.endHold_outageWides q c) _ h2) (.ofOnly (Dev.pauseAll_only _)))

/-! ### The port, its group's light and the block of the register -/

theorem Dev.linkDown_outageWides (p cause : Nat) : d.OutageWides (d.linkDown p cause) := by
  unfold Dev.linkDown
  extract_lets n s ms d1 d2
  have h2 : d.OutageWides d2 :=
    .trans (.trans (.ofOnly (d.setLink_only ..)) (.ofOnly (Dev.setPd_only ..))) (.ofOnly (Dev.setPd_only ..))
  exact (((h2.trans (.ofOnly (d2.raise_only ..))).trans (Dev.cutFrames_outageWides ..)).trans
    (Dev.outputDown_outageWides ..)).trans (.ofOnly (Dev.flushOnDown_only ..))

theorem Dev.linkCause_outageWides (p cause : Nat) : d.OutageWides (d.linkCause p cause) :=
  .ite (d.linkDown_outageWides ..) (.ite (.ofOnly (d.setLink_only ..)) (.refl d))

theorem Dev.finishDisable_outageWides (p : Nat) : d.OutageWides (d.finishDisable p) :=
  .ite (d.linkCause_outageWides ..) (.refl d)

theorem Dev.fieldDown_outageWides (p : Nat) : d.OutageWides (d.fieldDown p) :=
  .ite (.trans (.trans (.ofOnly (d.setCd_only ..)) (Dev.outputDown_outageWides ..)) (.ofOnly (Dev.flushOnDown_only ..)))
    (.refl d)

theorem Dev.groupDark_outageWides (g : Nat) : d.OutageWides (d.groupDark g) :=
  .foldl (fun e p => .ite (e.linkCause_outageWides p 7) (.refl e)) _ (.refl d)

theorem Dev.lsEnUpdate_outageWides : d.OutageWides d.lsEnUpdate := by
  unfold Dev.lsEnUpdate
  extract_lets now d1
  have h1 : d.OutageWides d1 := .foldl (fun e k => .ofOnly (e.i2cWrite_only ..)) _ (.refl d)
  exact .ite
    (.foldl (fun e g => .ite (.ofOnly (e.setLight_only ..)) (.refl e)) _ (h1.trans (.ofOnly (d1.setCd_only ..))))
    (.ite (.foldl (fun e g => e.groupDark_outageWides g) _ (.ofOnly (d.setCd_only ..))) (.refl d))

theorem Dev.safeEffect_outageWides (r : Reg) (w i j : Nat) : d.OutageWides (d.safeEffect r w i j) := by
  unfold Dev.safeEffect
  extract_lets q
  split
  · exact d.lsEnUpdate_outageWides
  iterate 4 exact d.finishDisable_outageWides q
  · exact d.fieldDown_outageWides _
  · exact .trans (.ofOnly (d.setPd_only ..)) (.ofOnly (Dev.setGate_only ..))
  · exact .ite (.trans (.ofOnly (d.laneOut_only ..)) (.ofOnly (Dev.setPd_only ..))) (.refl d)
  · exact .ofOnly (d.chHalt_only ..)
  · exact .ofOnly (d.judgePairs_only _)
  · exact .refl d

end

/-! ### A register found bad (R350) -/

/-- A register is in its safe state, and its parity error is recorded, counted and raised. -/
def Dev.parityNoted (d : Dev) (r : Reg) (w i j off : Nat) : Dev :=
  (((((d.withSafe (d.safe ++ [⟨r, w, i, j⟩])).setBit .hiParityStatus_sticky 0 0 0 w).setWide .hiParityLast 0 0 0
    (barOffset 0 w off)).bump .hiParityCount 0 0 0 1).raise 6 0x0D01 [(4, w), (22, off)]).irq 1

/-- A guarded register that was not yet in its safe state is noted before its block takes the safe state's effect. -/
theorem Dev.enterSafe_of_regAt {d : Dev} {r : Reg} {w i j off : Nat} (hr : regAt w off = some (r, i, j))
    (hg : r.guarded = true) (hghost : d.ghost r w i = false) (hsafe : d.inSafe r w i j = false) :
    d.enterSafe w off = (d.parityNoted r w i j off).safeEffect r w i j := by
  simp only [Dev.enterSafe, hr, hg, hghost, hsafe]
  rfl

theorem Dev.parityNoted_inSafe (d : Dev) (r : Reg) (w i j off : Nat) :
    (d.parityNoted r w i j off).inSafe r w i j = true := by
  simp [Dev.parityNoted, Dev.inSafe, Dev.withSafe]

theorem Dev.parityNoted_sticky (d : Dev) (r : Reg) (w i j off : Nat) :
    (d.parityNoted r w i j off).cd .hiParityStatus_sticky = d.cd .hiParityStatus_sticky ||| 2 ^ w := by
  simp [Dev.parityNoted]
  rfl

theorem Dev.parityNoted_count (d : Dev) (r : Reg) (w i j off : Nat) :
    (d.parityNoted r w i j off).wide .hiParityCount 0 =
      (d.wide .hiParityCount 0 + 1) % 2 ^ Wide.hiParityCount.info.width := by
  simp [Dev.parityNoted]
  rfl

theorem bitAt_or_two_pow (v i : Nat) : bitAt (v ||| 2 ^ i) i = 1 := by
  have h : ((v ||| 2 ^ i).testBit i).toNat = 1 := by simp
  rwa [Nat.toNat_testBit, ← Nat.shiftRight_eq_div_pow] at h

/-- What was noted of a register is in no part, field or wide value that the effect on its block changes. -/
theorem Dev.safeEffect_keeps_parity (d : Dev) (r : Reg) (w i j : Nat) :
    (d.safeEffect r w i j).safe = d.safe ∧
    (d.safeEffect r w i j).cd .hiParityStatus_sticky = d.cd .hiParityStatus_sticky ∧
    (d.safeEffect r w i j).wide .hiParityCount 0 = d.wide .hiParityCount 0 := by
  have h := d.safeEffect_only r w i j
  exact ⟨h.part .safe (by decide), h.fld _ rfl _ 0 0 0 (by decide) (by simp),
    (d.safeEffect_outageWides r w i j).wide _ 0 0 0 (by decide) (by simp)⟩

/-! ### A memory word found bad (R118, R164, R183) -/

theorem Dev.mem_noteBad (d : Dev) {b : BadWord} {read : List BadWord} (hb : b ∈ read) : b ∈ (d.noteBad read).net.bad := by
  by_cases h : b ∈ d.net.bad
  · exact List.mem_append_left _ h
  · exact List.mem_append_right _ (List.mem_filter.mpr ⟨hb, by simpa using h⟩)

/-- The device with a word of a table known bad. -/
def Dev.foundBad (d : Dev) (b : BadWord) : Dev :=
  d.withNet { d.net with bad := b :: d.net.bad.filter (· ≠ b) }

theorem Dev.foundBad_badEnt (d : Dev) (n i : Nat) : (d.foundBad (.addr n i)).badEnt n i = true := by
  simp [Dev.foundBad, Dev.badEnt, Dev.withNet]

/-- The alarm of an address word that was not reported: the word is reported from now on, counted and raised. -/
theorem Dev.tableAlarm_addr {d : Dev} {n i : Nat} (h : d.net.alarmed.contains (.addr n i) = false) :
    d.tableAlarm (.addr n i) =
      (((d.withNet { d.net with alarmed := .addr n i :: d.net.alarmed }).bump .fwParity (n + 1) 0 0 1).setPd
        .fwStatus_paritySticky n 1).raise n 0x0603 [(2, 0), (23, i)] := by
  unfold Dev.tableAlarm
  rw [if_neg (ne_true_of_eq_false h)]
  rfl

/-- A table pass leaves a word that was not reported known bad, sets PARITY_STICKY and counts it. -/
theorem Dev.foundBad_tableAlarm {d : Dev} {n i : Nat} (h : d.net.alarmed.contains (.addr n i) = false) :
    ((d.foundBad (.addr n i)).tableAlarm (.addr n i)).badEnt n i = true ∧
    ((d.foundBad (.addr n i)).tableAlarm (.addr n i)).pd .fwStatus_paritySticky n = 1 ∧
    ((d.foundBad (.addr n i)).tableAlarm (.addr n i)).wide .fwParity (n + 1) =
      (d.wide .fwParity (n + 1) + 1) % 2 ^ Wide.fwParity.info.width := by
  rw [Dev.tableAlarm_addr (d := d.foundBad (.addr n i)) h]
  refine ⟨?_, by simp, by simp; rfl⟩
  rw [Dev.badEnt, Dev.raise_net]
  exact d.foundBad_badEnt n i

/-! ### The statement -/

/-- Settles O26: the rewrites mend their word, a memory or table pass notes the word and raises its alarm, and a register
pass notes the register before its block's effect, which keeps what was noted. -/
theorem scrubsAndRepairs : Obligations.ScrubsAndRepairs := by
  refine ⟨fun s => ⟨fun _ _ => rfl, fun _ _ _ => rfl, fun _ _ => rfl, fun _ _ => rfl, fun _ _ => rfl, ?static⟩,
    ?memory, ?table, ?registers⟩
  case static =>
    intro n i e he hstatic
    have hq : s.dev.quiet.entAt n i = some e := he
    simp only [exec, execStaticEntryRewrite, onDev, hq, hstatic, if_true]
    rfl
  case memory =>
    intro n a s
    refine ⟨s.dev.quiet.scrubWord (.prog n a), ?_, ?_, ?_⟩
    · simp [exec, execMemoryScrubPass, onDev, wordDie, State.put]
    · simpa [Dev.scrubWord] using s.dev.quiet.mem_noteBad (List.mem_singleton_self _)
    · simp [Dev.scrubWord]
  case table =>
    intro n a s halarmed
    refine ⟨(s.dev.quiet.foundBad (.addr n a)).tableAlarm (.addr n a), ?_, Dev.foundBad_tableAlarm halarmed⟩
    simp only [exec, execTableScrubPass, onDev, List.foldl_cons, List.foldl_nil, if_true]
    rfl
  case registers =>
    intro w o r i j s hrun hpowered hr hg hghost hsafe
    have hrunq : (s.dev.quiet.boot.run && s.dev.quiet.winPowered w) = true := by
      rw [Bool.and_eq_true]
      exact ⟨hrun, hpowered⟩
    obtain ⟨hkeepsSafe, hkeepsSticky, hkeepsCount⟩ :=
      (s.dev.quiet.parityNoted r w i j o.toNat).safeEffect_keeps_parity r w i j
    refine ⟨s.dev.quiet.enterSafe w o.toNat, ?_, ?_⟩
    · simp only [exec, execCfgScrubPass, onDev, hrunq, if_true, List.foldl_cons, List.foldl_nil]
      rfl
    rw [Dev.enterSafe_of_regAt (d := s.dev.quiet) hr hg hghost hsafe]
    refine ⟨?_, ?_, ?_⟩
    · rw [Dev.inSafe, hkeepsSafe]
      exact Dev.parityNoted_inSafe ..
    · rw [hkeepsSticky, Dev.parityNoted_sticky]
      exact bitAt_or_two_pow ..
    · rw [hkeepsCount, Dev.parityNoted_count]
      rfl

end Sys2Proof.Machine
end

section
/-! Proof of the statement on forwarding tables: what learning, ageing, flushes, pairing and stream resets make of the
tables of a die, and what the fill test, the events and the counters on their way leave of them. -/

namespace Sys2Proof.Machine

/-! ### The tables of a die after an operation -/

theorem Dev.fwOf_congr {d t : Dev} (h : t.fw = d.fw) (n : Nat) : t.fwOf n = d.fwOf n := by
  rw [Dev.fwOf, Dev.fwOf, h]

@[simp] theorem Dev.quiet_fwOf (d : Dev) (n : Nat) : d.quiet.fwOf n = d.fwOf n := rfl

@[simp] theorem Dev.setFld_fwOf (d : Dev) (f : Fld) (w i j v n : Nat) : (d.setFld f w i j v).fwOf n = d.fwOf n := rfl

@[simp] theorem Dev.bump_fwOf (d : Dev) (x : Wide) (w i j v n : Nat) : (d.bump x w i j v).fwOf n = d.fwOf n := rfl

@[simp] theorem Dev.raise_fwOf (d : Dev) (die code : Nat) (pl : List (Nat × Nat)) (n : Nat) :
    (d.raise die code pl).fwOf n = d.fwOf n := Dev.fwOf_congr (d.raise_fw ..) n

@[simp] theorem Dev.raiseOnce_fwOf (d : Dev) (die code key : Nat) (pl : List (Nat × Nat)) (n : Nat) :
    (d.raiseOnce die code key pl).fwOf n = d.fwOf n := Dev.fwOf_congr (d.raiseOnce_fw ..) n

@[simp] theorem Dev.pmc_fwOf (d : Dev) (die ev : Nat) (a b c : Option Nat) (k n : Nat) :
    (d.pmc die ev a b c k).fwOf n = d.fwOf n := Dev.fwOf_congr (d.pmc_fw ..) n

@[simp] theorem Dev.leaveSafe_fwOf (d : Dev) (r : Reg) (w i j n : Nat) : (d.leaveSafe r w i j).fwOf n = d.fwOf n :=
  Dev.fwOf_congr ((d.leaveSafe_only r w i j).part .fw (by decide)) n

/-! What is read of a table depends on the table, the words known bad and the static entries that await their place. -/

theorem Dev.badEnt_congr {d t : Dev} (h : t.net = d.net) (n i : Nat) : t.badEnt n i = d.badEnt n i := by
  rw [Dev.badEnt, Dev.badEnt, h]

theorem Dev.entAt_congr {d t : Dev} {n : Nat} (h : (t.fwOf n).table = (d.fwOf n).table) (i : Nat) :
    t.entAt n i = d.entAt n i := by
  rw [Dev.entAt, Dev.entAt, h]

theorem Dev.hasStatic_congr {d t : Dev} {n : Nat} (h : (t.fwOf n).table = (d.fwOf n).table) (hp : t.plc = d.plc)
    (key : Nat) : t.hasStatic n key = d.hasStatic n key := by
  rw [Dev.hasStatic, Dev.hasStatic, Dev.statics, Dev.statics, h, hp]

theorem Dev.learnedEnt_congr {d t : Dev} {n : Nat} (h : (t.fwOf n).table = (d.fwOf n).table) (hn : t.net = d.net)
    (key : Nat) : t.learnedEnt n key = d.learnedEnt n key := by
  simp only [Dev.learnedEnt, Dev.entsOf, h, Dev.badEnt_congr hn]

theorem Dev.freeSlot_congr {d t : Dev} {n : Nat} (h : (t.fwOf n).table = (d.fwOf n).table) (hn : t.net = d.net)
    (hp : t.plc = d.plc) : t.freeSlot n = d.freeSlot n := by
  funext i
  rw [Dev.freeSlot, Dev.freeSlot, Dev.entAt_congr h, Dev.badEnt_congr hn, hp]

theorem Dev.setFw_net (d : Dev) (n : Nat) (x : Fw) : (d.setFw n x).net = d.net :=
  (d.setFw_only n x).part .net (by decide)

theorem Dev.setFw_plc (d : Dev) (n : Nat) (x : Fw) : (d.setFw n x).plc = d.plc :=
  (d.setFw_only n x).part .plc (by decide)

theorem Dev.setFw_boot (d : Dev) (n : Nat) (x : Fw) : (d.setFw n x).boot = d.boot :=
  (d.setFw_only n x).part .boot (by decide)

theorem Dev.setFw_wide (d : Dev) (n : Nat) (x : Fw) (y : Wide) (w i j : Nat) (h : ¬ evWide y) :
    (d.setFw n x).wide y w i j = d.wide y w i j :=
  (d.setFw_only n x).wide [] rfl y w i j rfl h

theorem Dev.setFw_pd (d : Dev) (n : Nat) (x : Fw) (f : Fld) (m i j : Nat) (h : ¬ evFld f) :
    (d.setFw n x).pd f m i j = d.pd f m i j :=
  (d.setFw_only n x).fld [] rfl f _ i j rfl h

section
variable (d : Dev) (n : Die)

@[simp] theorem Dev.fwOf_setFw (x : Fw) : (d.setFw n x).fwOf n = x := by
  simp [Dev.fwOf, Dev.setFw]

@[simp] theorem Dev.putEnt_fwOf (i : Nat) (e : AddrEnt) :
    (d.putEnt n i e).fwOf n = { d.fwOf n with table := aset (d.fwOf n).table i e } := d.fwOf_setFw n _

@[simp] theorem Dev.delEnt_fwOf (i : Nat) :
    (d.delEnt n i).fwOf n = { d.fwOf n with table := adel (d.fwOf n).table i } := d.fwOf_setFw n _

theorem Dev.putEnt_entAt (i : Nat) (e : AddrEnt) : (d.putEnt n i e).entAt n i = some e := by
  simp [Dev.entAt, aget_aset]

theorem Dev.delEnt_entAt (i : Nat) : (d.delEnt n i).entAt n i = none := by
  simp [Dev.entAt, aget_adel]

@[simp] theorem Dev.putEnt_wide (i : Nat) (e : AddrEnt) (x : Wide) (w a b : Nat) (h : ¬ evWide x) :
    (d.putEnt n i e).wide x w a b = d.wide x w a b :=
  (d.putEnt_only n i e).wide [] rfl x w a b rfl h

@[simp] theorem Dev.delEnt_wide (i : Nat) (x : Wide) (w a b : Nat) (h : ¬ evWide x) :
    (d.delEnt n i).wide x w a b = d.wide x w a b :=
  (d.delEnt_only n i).wide [] rfl x w a b rfl h

/-- The fill test arms or disarms its event and leaves the tables. -/
theorem Dev.fillTest_fwOf : ∃ a, (d.fillTest n).fwOf n = { d.fwOf n with armed := a } := by
  unfold Dev.fillTest
  extract_lets t x
  split
  case isTrue => exact ⟨_, rfl⟩
  case isFalse =>
    split
    case isTrue => exact ⟨false, by simp [x]⟩
    case isFalse =>
      split
      case isTrue => exact ⟨true, by simp [x]⟩
      case isFalse => exact ⟨_, rfl⟩

@[simp] theorem Dev.fillTest_table : ((d.fillTest n).fwOf n).table = (d.fwOf n).table := by
  obtain ⟨a, h⟩ := d.fillTest_fwOf n
  rw [h]

@[simp] theorem Dev.fillTest_queue : ((d.fillTest n).fwOf n).queue = (d.fwOf n).queue := by
  obtain ⟨a, h⟩ := d.fillTest_fwOf n
  rw [h]

@[simp] theorem Dev.fillTest_sweepAt : ((d.fillTest n).fwOf n).sweepAt = (d.fwOf n).sweepAt := by
  obtain ⟨a, h⟩ := d.fillTest_fwOf n
  rw [h]

@[simp] theorem Dev.fillTest_notices : ((d.fillTest n).fwOf n).notices = (d.fwOf n).notices := by
  obtain ⟨a, h⟩ := d.fillTest_fwOf n
  rw [h]

@[simp] theorem Dev.fillTest_wide (x : Wide) (w i j : Nat) (h : ¬ evWide x) :
    (d.fillTest n).wide x w i j = d.wide x w i j :=
  (d.fillTest_only n).wide [] rfl x w i j rfl h

/-! ### Learning (R176, R178, R179) -/

/-- A move of entries leaves the learn queue. -/
theorem Dev.moveEnt_queue (src dst : Nat) : ((d.moveEnt n src dst).fwOf n).queue = (d.fwOf n).queue := by
  unfold Dev.moveEnt
  split
  · rfl
  · dsimp only
    split <;> simp

@[simp] theorem Dev.carryOut_queue (path : List Nat) : ((d.carryOut n path).fwOf n).queue = (d.fwOf n).queue := by
  fun_induction Dev.carryOut d n path with
  | case1 d j i rest ih => rw [ih, Dev.moveEnt_queue]
  | case2 => rfl

/-- The entry that a request makes. -/
def LearnReq.entry (r : LearnReq) : AddrEnt :=
  { mac := r.mac, fid := r.fid, dest := .port r.port, hit := true, sticky := r.sticky, egressLearned := r.egress }

/-- The device with the front of a learn queue taken, and counted by the performance counters. -/
def Dev.dequeued (d : Dev) (n : Nat) (rest : List LearnReq) : Dev :=
  (d.setFw n { d.fwOf n with queue := rest }).pmc n 0x0C none none none 1

variable (rest : List LearnReq)

theorem Dev.dequeued_eq : (d.setFw n { d.fwOf n with queue := rest }).pmc n 0x0C none none none 1 =
    d.dequeued n rest := rfl

@[simp] theorem Dev.dequeued_fwOf : (d.dequeued n rest).fwOf n = { d.fwOf n with queue := rest } := by
  simp [Dev.dequeued]

theorem Dev.dequeued_net : (d.dequeued n rest).net = d.net := by simp [Dev.dequeued, Dev.setFw_net]

theorem Dev.dequeued_plc : (d.dequeued n rest).plc = d.plc := by simp [Dev.dequeued, Dev.setFw_plc]

theorem Dev.dequeued_boot : (d.dequeued n rest).boot = d.boot := by simp [Dev.dequeued, Dev.setFw_boot]

theorem Dev.dequeued_wide (x : Wide) (w i j : Nat) (h : ¬ evWide x) :
    (d.dequeued n rest).wide x w i j = d.wide x w i j := by
  rw [Dev.dequeued, Dev.pmc_wide _ _ _ _ _ _ _ _ _ _ _ h, Dev.setFw_wide _ _ _ _ _ _ _ h]

theorem Dev.dequeued_table : ((d.dequeued n rest).fwOf n).table = (d.fwOf n).table := by rw [Dev.dequeued_fwOf]

theorem Dev.dequeued_hasStatic (key : Nat) : (d.dequeued n rest).hasStatic n key = d.hasStatic n key :=
  Dev.hasStatic_congr (d.dequeued_table n rest) (d.dequeued_plc n rest) key

theorem Dev.dequeued_learnedEnt (key : Nat) : (d.dequeued n rest).learnedEnt n key = d.learnedEnt n key :=
  Dev.learnedEnt_congr (d.dequeued_table n rest) (d.dequeued_net n rest) key

theorem Dev.dequeued_freeSlot : (d.dequeued n rest).freeSlot n = d.freeSlot n :=
  Dev.freeSlot_congr (d.dequeued_table n rest) (d.dequeued_net n rest) (d.dequeued_plc n rest)

end

section
variable {d : Dev} {n : Die} {r : LearnReq} {rest : List LearnReq}

variable (hq : (d.fwOf n).queue = r :: rest) (hs : d.hasStatic n (fwKey r.fid r.mac) = false)
include hq hs

/-- However a request ends, it has left the queue. -/
theorem Dev.applyLearn_queue : ((d.applyLearn n).fwOf n).queue = rest := by
  simp only [Dev.applyLearn, hq, Dev.dequeued_eq, Dev.dequeued_hasStatic, Dev.dequeued_learnedEnt, hs,
    Bool.false_eq_true, if_false]
  cases d.learnedEnt n (fwKey r.fid r.mac) with
  | some found =>
    dsimp only
    by_cases hp : found.2.port = r.port
    · rw [if_pos hp, Dev.hitEnt, Dev.putEnt_fwOf, Dev.dequeued_fwOf]
    · rw [if_neg hp]
      by_cases hsticky : found.2.sticky = true
      · rw [if_pos hsticky, Dev.dequeued_fwOf]
      · rw [if_neg hsticky, Dev.raiseOnce_fwOf, Dev.bump_fwOf, Dev.putEnt_fwOf, Dev.dequeued_fwOf]
  | none =>
    dsimp only
    split
    · rw [Dev.fillTest_queue, Dev.bump_fwOf, Dev.putEnt_fwOf]
      dsimp only
      rw [Dev.carryOut_queue, Dev.dequeued_fwOf]
    · rw [Dev.raiseOnce_fwOf, Dev.setPd_eq, Dev.setFld_fwOf, Dev.bump_fwOf, Dev.dequeued_fwOf]

/-- A request for a learned entry of the same port hits it. -/
theorem Dev.applyLearn_of_same_port {i : Nat} {e : AddrEnt} (hl : d.learnedEnt n (fwKey r.fid r.mac) = some (i, e))
    (hp : e.port = r.port) : d.applyLearn n = (d.dequeued n rest).hitEnt n i e := by
  simp only [Dev.applyLearn, hq, Dev.dequeued_eq, Dev.dequeued_hasStatic, Dev.dequeued_learnedEnt, hs, hl, if_pos hp]
  rfl

/-- A request for a learned entry of another port that is not sticky replaces it, which is counted and raised. -/
theorem Dev.applyLearn_of_other_port {i : Nat} {e : AddrEnt} (hl : d.learnedEnt n (fwKey r.fid r.mac) = some (i, e))
    (hp : e.port ≠ r.port) (hsticky : e.sticky = false) :
    d.applyLearn n = (((d.dequeued n rest).putEnt n i r.entry).bump .fwMove (n + 1) 0 0 1).raiseOnce n 0x0604 0
      [(14, r.fid), (48, r.mac), (8, e.port), (8, r.port)] := by
  simp only [Dev.applyLearn, hq, Dev.dequeued_eq, Dev.dequeued_hasStatic, Dev.dequeued_learnedEnt, hs, hl,
    if_neg hp, hsticky]
  rfl

/-- A request for a key that is not known is written in the first free slot of its buckets and counted, and the fill is
tested. -/
theorem Dev.applyLearn_of_unknown {i : Nat} (hl : d.learnedEnt n (fwKey r.fid r.mac) = none)
    (hi : (slotsOf (nBuckets d.boot.sb.profile) (fwKey r.fid r.mac)).find? (d.freeSlot n) = some i) :
    d.applyLearn n = (((d.dequeued n rest).putEnt n i r.entry).bump .fwLearnCount (n + 1) 0 0 1).fillTest n := by
  have hplace : (d.dequeued n rest).placeFor n (fwKey r.fid r.mac) 4 (fun e => !e.static) = some (i, []) := by
    simp only [Dev.placeFor, Dev.dequeued_boot, Dev.dequeued_freeSlot, hi]
  simp only [Dev.applyLearn, hq, Dev.dequeued_eq, Dev.dequeued_hasStatic, Dev.dequeued_learnedEnt, hs, hl, hplace]
  rfl

end

/-! ### Ageing (R180) -/

/-- The device with the sweep gone on from an index. -/
def Dev.swept (d : Dev) (n i : Nat) : Dev :=
  d.setFw n { d.fwOf n with sweepAt := (i + 1) % (4 * nBuckets d.boot.sb.profile) }

theorem Dev.swept_eq (d : Dev) (n i : Nat) :
    d.setFw n { d.fwOf n with sweepAt := (i + 1) % (4 * nBuckets d.boot.sb.profile) } = d.swept n i := rfl

@[simp] theorem Dev.swept_fwOf (d : Dev) (n : Die) (i : Nat) :
    (d.swept n i).fwOf n = { d.fwOf n with sweepAt := (i + 1) % (4 * nBuckets d.boot.sb.profile) } := by
  simp [Dev.swept]

theorem Dev.swept_entAt (d : Dev) (n : Die) (i : Nat) : (d.swept n i).entAt n i = d.entAt n i :=
  Dev.entAt_congr (by rw [Dev.swept_fwOf]) i

theorem Dev.swept_badEnt (d : Dev) (n : Die) (i : Nat) : (d.swept n i).badEnt n i = d.badEnt n i :=
  Dev.badEnt_congr (d.setFw_net ..) n i

/-- The sweep of an entry of good parity keeps what the visit leaves of it, or removes it and counts it as aged. -/
theorem Dev.sweep_of_entAt {d : Dev} {n : Die} {i : Nat} {e : AddrEnt} (he : d.entAt n i = some e)
    (hb : d.badEnt n i = false) : d.sweep n i =
      if e.static then d.swept n i
      else match visitEnt e with
        | some x => (d.swept n i).putEnt n i x
        | none => (((d.swept n i).delEnt n i).bump .fwAged (n + 1) 0 0 1).fillTest n := by
  simp only [Dev.sweep, Dev.swept_eq, Dev.swept_entAt, Dev.swept_badEnt, he, hb, Bool.false_eq_true, if_false] <;> rfl

/-- What lies in the slot after its sweep is what the visit leaves. -/
theorem Dev.sweep_entAt {d : Dev} {n : Die} {i : Nat} {e : AddrEnt} (he : d.entAt n i = some e)
    (hb : d.badEnt n i = false) : (d.sweep n i).entAt n i = visitEnt e := by
  rw [Dev.sweep_of_entAt he hb]
  split
  case isTrue hstatic => rw [Dev.swept_entAt, he, visitEnt, if_pos hstatic]
  case isFalse =>
    cases visitEnt e with
    | some x => exact Dev.putEnt_entAt ..
    | none => exact (Dev.entAt_congr (Dev.fillTest_table ..) i).trans (Dev.delEnt_entAt ..)

/-- Whatever the visit leaves, the sweep goes on to the next index. -/
theorem Dev.sweep_sweepAt {d : Dev} {n : Die} {i : Nat} {e : AddrEnt} (he : d.entAt n i = some e)
    (hb : d.badEnt n i = false) :
    ((d.sweep n i).fwOf n).sweepAt = (i + 1) % (4 * nBuckets d.boot.sb.profile) := by
  rw [Dev.sweep_of_entAt he hb]
  split
  case isTrue => simp
  case isFalse => cases visitEnt e <;> simp

/-- An entry that the visit removes is counted as aged. -/
theorem Dev.sweep_aged {d : Dev} {n : Die} {i : Nat} {e : AddrEnt} (he : d.entAt n i = some e)
    (hb : d.badEnt n i = false) (hv : visitEnt e = none) :
    (d.sweep n i).wide .fwAged (n + 1) = (d.wide .fwAged (n + 1) + 1) % 2 ^ Wide.fwAged.info.width := by
  rw [Dev.sweep_of_entAt he hb]
  split
  case isTrue hstatic =>
    rw [visitEnt, if_pos hstatic] at hv
    exact absurd hv (by simp)
  case isFalse =>
    rw [hv]
    simp [Dev.swept, Dev.setFw_wide]

/-- The visit of an entry (R180): what it leaves in the slot. -/
theorem visitEnt_eq (e : AddrEnt) : visitEnt e =
    if e.static then some e else if e.hit then some { e with hit := false }
    else if e.strike then none else some { e with strike := true } := by
  unfold visitEnt
  cases e.strike <;> rfl

/-! ### Flushes (R182) -/

/-- A flush by port keeps the static entries and those of other ports. -/
theorem flushHits_port (p : Nat) (e : AddrEnt) :
    (!flushHits (some p) none e) = (e.static || decide (e.port ≠ p)) := by
  simp [flushHits]

/-- A commanded flush keeps the static entries and those that differ in what it names. -/
theorem flushHits_commanded (port fid : Nat) (byPort byFid : Bool) (e : AddrEnt) :
    (!flushHits (if byPort then some port else none) (if byFid then some fid else none) e) =
      (e.static || (byPort && decide (e.port ≠ port)) || (byFid && decide (e.fid ≠ fid))) := by
  cases byPort <;> cases byFid <;> simp [flushHits, Bool.or_assoc]

section
variable (d : Dev) (n : Die) (port fid : Option Nat)

theorem Dev.flush_table : ((d.flush n port fid).1.fwOf n).table =
    (d.fwOf n).table.filter (fun e => !flushHits port fid e.2) := by
  simp [Dev.flush]

theorem Dev.flush_notices : ((d.flush n port fid).1.fwOf n).notices = (d.fwOf n).notices := by
  simp [Dev.flush]

theorem Dev.flush_count :
    (d.flush n port fid).2 = (d.fwOf n).table.length - ((d.flush n port fid).1.fwOf n).table.length := by
  rw [Dev.flush_table]
  rfl

theorem Dev.flush_fld (f : Fld) (w i j : Nat) (hf : f ≠ .fwStatus_fillSticky) (he : ¬ evFld f) :
    (d.flush n port fid).1.fld f w i j = d.fld f w i j :=
  (d.flush_only n port fid).fld _ rfl f w i j (by simp [hf]) he

end

/-- A notice on its way is removed, and the die flushes for its port. -/
theorem Dev.flushNotice_of_contains {d : Dev} {n : Die} {p : Nat} (h : (d.fwOf n).notices.contains p = true) :
    d.flushNotice n p = (d.setFw n { d.fwOf n with notices := (d.fwOf n).notices.erase p }).flushPort n p := by
  rw [Dev.flushNotice, if_pos h]

/-- The fields of a commanded flush stored, and START set. -/
def Dev.flushAsked (d : Dev) (n port fid : Nat) (byPort byFid : Bool) : Dev :=
  ((((d.setPd .fwFlush_port n port).setPd .fwFlush_fid n fid).setPd .fwFlush_byPort n (b2n byPort)).setPd
    .fwFlush_byFid n (b2n byFid)).setPd .fwFlush_start n 1

/-- A commanded flush on a die: what it leaves, and the count of what it removes. -/
def Dev.flushed (d : Dev) (n port fid : Nat) (byPort byFid : Bool) : Dev × Nat :=
  (d.flushAsked n port fid byPort byFid).flush n (if byPort then some port else none) (if byFid then some fid else none)

section
variable (d : Dev) (n : Die) (port fid : Nat) (byPort byFid : Bool)

@[simp] theorem Dev.flushAsked_fwOf : (d.flushAsked n port fid byPort byFid).fwOf n = d.fwOf n := rfl

theorem Dev.flushed_table : ((d.flushed n port fid byPort byFid).1.fwOf n).table = (d.fwOf n).table.filter (fun e =>
    e.2.static || (byPort && decide (e.2.port ≠ port)) || (byFid && decide (e.2.fid ≠ fid))) := by
  simp only [Dev.flushed, Dev.flush_table, Dev.flushAsked_fwOf, flushHits_commanded]

theorem Dev.flushed_count : (d.flushed n port fid byPort byFid).2 =
    (d.fwOf n).table.length - ((d.flushed n port fid byPort byFid).1.fwOf n).table.length :=
  Dev.flush_count ..

theorem Dev.flushed_start : (d.flushed n port fid byPort byFid).1.pd .fwFlush_start n = 1 := by
  simp [Dev.flushed, Dev.flush_fld, Dev.flushAsked]

/-- A commanded flush on a die where none runs. -/
theorem Dev.flushStart_of_idle (h : d.pd .fwFlush_start n ≠ 1) : d.flushStart n port fid byPort byFid =
    (d.flushed n port fid byPort byFid).1.setFw n { (d.flushed n port fid byPort byFid).1.fwOf n with
      flushing := some (if byPort then port else 0xFF, if byFid then fid else 0x3FFF,
        (d.flushed n port fid byPort byFid).2) } := by
  rw [Dev.flushStart, if_neg h]
  rfl

end

/-! ### A register of a powered die -/

theorem Dev.winPowered_die (d : Dev) (n : Die) : d.winPowered (n + 1) = d.railOn n := by
  have := n.isLt
  rw [Dev.winPowered, if_pos (by omega), Nat.add_sub_cancel]

/-- A write that reaches a register of a powered die acts once the register has left its safe state. -/
theorem onWord_of_railOn {n : Die} {s : State} (hup : s.dev.hostUp = true) (hrail : s.dev.railOn n = true) (r : Reg)
    (i j data : Nat) (f : Dev → Dev) :
    onWord (n + 1) r i j data f s = .next (s.put (f (s.dev.quiet.leaveSafe r (n + 1) i j))) := by
  have hq : s.dev.quiet.hostUp = true := hup
  have hw : s.dev.quiet.winPowered (n + 1) = true := (s.dev.quiet.winPowered_die n).trans hrail
  simp only [onWord, onReg, onHost, onDev, Dev.regWrite, hq, hw, if_true]
  rfl

theorem Dev.leaveSafe_fld (d : Dev) (r : Reg) (w i j : Nat) (f : Fld) (w' i' j' : Nat) (h : ¬ evFld f) :
    (d.leaveSafe r w i j).fld f w' i' j' = d.fld f w' i' j' :=
  (d.leaveSafe_only r w i j).fld [] rfl f w' i' j' rfl h

/-! ### Pairing (R188) -/

/-- A port is paired when it is in mode 0, or when its pair port is another port of the same mode whose pair port it is
and whose LAN is the other one. -/
theorem Dev.pairs_iff (d : Dev) (p : Nat) : d.pairs p = true ↔
    d.cfg .fwPrpCtl_mode (p / 32 + 1) (p % 32) = 0 ∨
    d.pairOf p ≠ p ∧
    d.cfg .fwPrpCtl_mode (d.pairOf p / 32 + 1) (d.pairOf p % 32) = d.cfg .fwPrpCtl_mode (p / 32 + 1) (p % 32) ∧
    d.pairOf (d.pairOf p) = p ∧ d.lanOf (d.pairOf p) ≠ d.lanOf p := by
  simp [Dev.pairs, and_assoc]

/-- The pairing is read of the modes, the pairs and the LANs that the ports act with. -/
theorem Dev.pairs_congr {d t : Dev} (hm : ∀ w i, t.cfg .fwPrpCtl_mode w i = d.cfg .fwPrpCtl_mode w i)
    (hp : ∀ w i, t.cfg .fwPrpCtl_pair w i = d.cfg .fwPrpCtl_pair w i)
    (hl : ∀ w i, t.cfg .fwPrpCtl_lan w i = d.cfg .fwPrpCtl_lan w i) (p : Nat) : t.pairs p = d.pairs p := by
  rw [Bool.eq_iff_iff, Dev.pairs_iff, Dev.pairs_iff]
  simp only [Dev.pairOf, Dev.lanOf, hm, hp, hl]

/-- A field that a scope without registers in their safe state does not name acts as before. -/
theorem Only.cfg {ps : List Part} {fs : List Fld} {xs : Option (List Wide)} {d t : Dev} (h : Only ps (some fs) xs d t)
    (hs : ps.contains .safe = false) {f : Fld} (hf : fs.contains f = false) (he : ¬ evFld f) (w i : Nat) :
    t.cfg f w i = d.cfg f w i := by
  have hsafe : t.safe = d.safe := h.part .safe hs
  rw [Dev.cfg, Dev.cfg, Dev.inSafe, Dev.inSafe, hsafe, h.fld fs rfl f w i 0 hf he]

/-- What judges the pairing of a die leaves it. -/
theorem Only.pairs {d t : Dev} (h : Only [.bkts, .obs] (some [.fwPrpCtl_pairErr]) (some []) d t) (p : Nat) :
    t.pairs p = d.pairs p :=
  Dev.pairs_congr (h.cfg rfl rfl (by simp)) (h.cfg rfl rfl (by simp)) (h.cfg rfl rfl (by simp)) p

/-- PAIR_ERR of one port judged, with the alarm where it is newly set. -/
def Dev.judgePair (d : Dev) (n s : Nat) : Dev :=
  if d.pairs (32 * n + s) then d.setPd .fwPrpCtl_pairErr n 0 s
  else if d.pd .fwPrpCtl_pairErr n s = 1 then d
  else (d.setPd .fwPrpCtl_pairErr n 1 s).raise n 0x0609 [(8, 32 * n + s), (5, d.pd .fwPrpCtl_pair n s)]

theorem Dev.judgePairs_eq (d : Dev) (n : Nat) :
    d.judgePairs n = (List.range 32).foldl (fun d s => d.judgePair n s) d := rfl

section
variable (d : Dev) (n s : Nat)

theorem Dev.judgePair_only : Only [.bkts, .obs] (some [.fwPrpCtl_pairErr]) (some []) d (d.judgePair n s) := by
  unfold Dev.judgePair
  split
  case isTrue => exact .wk (d.setPd_only ..) rfl rfl rfl
  case isFalse =>
    split
    case isTrue => exact .refl d
    case isFalse => exact .step (Dev.raise_only ..) rfl rfl rfl (.wk (d.setPd_only ..) rfl rfl rfl)

theorem Dev.judgePair_pairErr : (d.judgePair n s).pd .fwPrpCtl_pairErr n s = if d.pairs (32 * n + s) then 0 else 1 := by
  unfold Dev.judgePair
  split
  case isTrue => simp
  case isFalse =>
    split
    case isTrue h => exact h
    case isFalse => simp

theorem Dev.judgePair_pairErr_other {k : Nat} (h : k ≠ s) :
    (d.judgePair n k).pd .fwPrpCtl_pairErr n s = d.pd .fwPrpCtl_pairErr n s := by
  unfold Dev.judgePair
  split
  case isTrue => simp [h]
  case isFalse =>
    split
    case isTrue => rfl
    case isFalse => simp [h]

theorem Dev.foldl_judgePair_pairErr_other {l : List Nat} (h : s ∉ l) :
    (l.foldl (fun d k => d.judgePair n k) d).pd .fwPrpCtl_pairErr n s = d.pd .fwPrpCtl_pairErr n s := by
  induction l generalizing d with
  | nil => rfl
  | cons k l ih =>
    obtain ⟨hk, hl⟩ : s ≠ k ∧ s ∉ l := by simpa only [List.mem_cons, not_or] using h
    rw [List.foldl_cons, ih (d.judgePair n k) hl, Dev.judgePair_pairErr_other d n s (Ne.symm hk)]

/-- After the ports of a list were judged, PAIR_ERR of each of them says whether it is paired. -/
theorem Dev.foldl_judgePair_pairErr {l : List Nat} (h : s ∈ l) :
    (l.foldl (fun d k => d.judgePair n k) d).pd .fwPrpCtl_pairErr n s = if d.pairs (32 * n + s) then 0 else 1 := by
  induction l generalizing d with
  | nil => exact absurd h List.not_mem_nil
  | cons k l ih =>
    rw [List.foldl_cons]
    by_cases hl : s ∈ l
    · rw [ih (d.judgePair n k) hl, (d.judgePair_only n k).pairs]
    · obtain rfl : s = k := (List.mem_cons.mp h).resolve_right hl
      rw [Dev.foldl_judgePair_pairErr_other _ n s hl, Dev.judgePair_pairErr]

end

theorem Dev.judgePairs_pairErr (d : Dev) (n : Die) (slot : Fin 32) :
    (d.judgePairs n).pd .fwPrpCtl_pairErr n slot = if (d.judgePairs n).pairs (32 * n + slot) then 0 else 1 := by
  rw [(d.judgePairs_only n).pairs, Dev.judgePairs_eq]
  exact d.foldl_judgePair_pairErr n slot (List.mem_range.mpr slot.isLt)

theorem Dev.judgePairs_pd (d : Dev) (n : Nat) (f : Fld) (i j : Nat) (hf : f ≠ .fwPrpCtl_pairErr) (he : ¬ evFld f) :
    (d.judgePairs n).pd f n i j = d.pd f n i j :=
  (d.judgePairs_only n).fld _ rfl f _ i j (by simp [hf]) he

/-- The fields of FW_PRP_CTL stored. -/
def Dev.prpStored (d : Dev) (n slot mode lan pair seq : Nat) : Dev :=
  (((d.setPd .fwPrpCtl_mode n (Fld.store .fwPrpCtl_mode mode) slot).setPd .fwPrpCtl_lan n lan slot).setPd
    .fwPrpCtl_pair n pair slot).setPd .fwPrpCtl_seqIndex n seq slot

section
variable (d : Dev) (n slot mode lan pair seq : Nat)

theorem Dev.prpStored_mode :
    (d.prpStored n slot mode lan pair seq).pd .fwPrpCtl_mode n slot = if mode = 3 then 0 else mode := by
  simp [Dev.prpStored, Fld.store]

theorem Dev.prpStored_lan : (d.prpStored n slot mode lan pair seq).pd .fwPrpCtl_lan n slot = lan := by
  simp [Dev.prpStored]

theorem Dev.prpStored_pair : (d.prpStored n slot mode lan pair seq).pd .fwPrpCtl_pair n slot = pair := by
  simp [Dev.prpStored]

theorem Dev.prpStored_seqIndex : (d.prpStored n slot mode lan pair seq).pd .fwPrpCtl_seqIndex n slot = seq := by
  simp [Dev.prpStored]

end

/-! ### The commands written to a register -/

theorem exec_fwFlushStart {n : Die} {s : State} (hup : s.dev.hostUp = true) (hrail : s.dev.railOn n = true)
    (port : BitVec 8) (fid : BitVec 14) (byPort byFid : Bool) : exec (.fwFlushStart n port fid byPort byFid) s =
      .next (s.put ((s.dev.quiet.leaveSafe .fwFlush (n + 1) 0 0).flushStart n port.toNat fid.toNat byPort byFid)) := by
  simp only [exec, execFwFlushStart, onWord_of_railOn hup hrail]

theorem exec_fwPrpCtlWrite {n : Die} {s : State} (hup : s.dev.hostUp = true) (hrail : s.dev.railOn n = true)
    (slot : Fin 32) (mode lan : Fin 4) (pair : Fin 32) (seq : BitVec 12) :
    exec (.fwPrpCtlWrite n slot mode lan pair seq) s = .next (s.put
      (((s.dev.quiet.leaveSafe .fwPrpCtl (n + 1) slot 0).prpStored n slot mode (lan.val % 2) pair seq.toNat).judgePairs
        n)) := by
  simp only [exec, execFwPrpCtlWrite, onWord_of_railOn hup hrail, Dev.prpStored]

/-! ### The statement -/

/-- Settles O39: a request is written where its lemma says, a visit leaves what `visitEnt` does, a flush filters the
table, and the pairing judged after a write of FW_PRP_CTL is the one that its fields make.  That a visit of another index
changes nothing is the model's choice (log entry 2). -/
theorem entriesAreLearnedAndSwept : Obligations.EntriesAreLearnedAndSwept := by
  intro n s
  refine ⟨?learn, ?sweep, ?otherIndex, ?notice, ?flush, ?complete, ?prp, fun _ => rfl, ?stream⟩
  case learn =>
    intro r rest hq hs
    have hq' : (s.dev.quiet.fwOf n).queue = r :: rest := hq
    have hs' : s.dev.quiet.hasStatic n (fwKey r.fid r.mac) = false := hs
    refine ⟨s.dev.quiet.applyLearn n, rfl, Dev.applyLearn_queue hq' hs', ?_, ?_⟩
    · intro i hl hi
      rw [Dev.applyLearn_of_unknown (d := s.dev.quiet) hq' hs' hl hi]
      constructor
      · rw [Dev.entAt_congr (Dev.fillTest_table ..)]
        exact Dev.putEnt_entAt ..
      · simp [Dev.putEnt_wide, Dev.dequeued_wide]
    · intro i e hl
      constructor
      · intro hp
        rw [Dev.applyLearn_of_same_port (d := s.dev.quiet) hq' hs' hl hp]
        exact Dev.putEnt_entAt ..
      · intro hp hsticky
        rw [Dev.applyLearn_of_other_port (d := s.dev.quiet) hq' hs' hl hp hsticky]
        constructor
        · rw [Dev.entAt_congr (congrArg Fw.table (Dev.raiseOnce_fwOf ..))]
          exact Dev.putEnt_entAt ..
        · simp [Dev.putEnt_wide, Dev.dequeued_wide]
  case sweep =>
    intro i e hlive hat he hb
    refine ⟨s.dev.quiet.sweep n i, ?_, ?_⟩
    · exact congrArg (fun d => Host.Outcome.next (s.put d)) (if_pos ⟨hlive, hat⟩)
    have he' : s.dev.quiet.entAt n i = some e := he
    have hb' : s.dev.quiet.badEnt n i = false := hb
    refine ⟨(Dev.sweep_entAt he' hb').trans (visitEnt_eq e), Dev.sweep_sweepAt he' hb', ?_⟩
    intro hstatic hhit hstrike
    exact Dev.sweep_aged he' hb' (by simp [visitEnt_eq, hstatic, hhit, hstrike])
  case otherIndex =>
    intro i hi
    exact congrArg (fun d => Host.Outcome.next (s.put d)) (if_neg fun h => hi h.2)
  case notice =>
    intro p hp
    refine ⟨s.dev.quiet.flushNotice n p, rfl, ?_⟩
    rw [Dev.flushNotice_of_contains (d := s.dev.quiet) hp]
    simp [Dev.flushPort, Dev.flush_table, Dev.flush_notices, flushHits_port]
  case flush =>
    intro port fid byPort byFid hup hrail hstart
    let d := s.dev.quiet.leaveSafe .fwFlush (n + 1) 0 0
    have hidle : d.pd .fwFlush_start n ≠ 1 := by
      rwa [Dev.pd, Dev.leaveSafe_fld _ _ _ _ _ _ _ _ _ (by simp)]
    let r := d.flushed n port.toNat fid.toNat byPort byFid
    refine ⟨d.flushStart n port.toNat fid.toNat byPort byFid, r.2, exec_fwFlushStart hup hrail .., ?_⟩
    rw [Dev.flushStart_of_idle _ _ _ _ _ _ hidle, Dev.fwOf_setFw, Dev.setFw_pd _ _ _ _ _ _ _ (by simp)]
    have htable := d.flushed_table n port.toNat fid.toNat byPort byFid
    have hcount := d.flushed_count n port.toNat fid.toNat byPort byFid
    rw [Dev.leaveSafe_fwOf] at htable hcount
    exact ⟨Dev.flushed_start .., htable, hcount, rfl⟩
  case complete =>
    intro p x k hf
    have hf' : (s.dev.quiet.fwOf n).flushing = some (p, x, k) := hf
    simp only [exec, execFwFlushComplete, onDev, hf']
    rfl
  case prp =>
    intro slot mode lan pair seq hup hrail
    let d := (s.dev.quiet.leaveSafe .fwPrpCtl (n + 1) slot 0).prpStored n slot mode (lan.val % 2) pair seq.toNat
    refine ⟨d.judgePairs n, exec_fwPrpCtlWrite hup hrail .., ?_, ?_, ?_, ?_, d.judgePairs_pairErr n slot⟩
    all_goals rw [Dev.judgePairs_pd _ _ _ _ _ (by decide) (by simp)]
    · rw [Dev.prpStored_mode]
      have hthree : mode.val = 3 ↔ mode = 3 := (Fin.ext_iff (a := mode) (b := 3)).symm
      by_cases hmode : mode = 3
      · rw [if_pos hmode, if_pos (hthree.mpr hmode)]
      · rw [if_neg hmode, if_neg fun h => hmode (hthree.mp h)]
    · exact Dev.prpStored_lan ..
    · exact Dev.prpStored_pair ..
    · exact Dev.prpStored_seqIndex ..
  case stream =>
    intro id e he
    have he' : (aget (s.dev.quiet.fwOf n).recov id).isSome = true := by simp [he]
    simp only [exec, execStreamReset, onDev, he', if_true]
    rfl

end Sys2Proof.Machine
end

section
/-! Proof of the statement on gates: what a change, its instant, the end of an entry and GATE_EN make of the gate lists of a
port, of its timer entry and of the gates shown. -/

namespace Sys2Proof.Machine

/-! ### The gate lists of a port -/

theorem Dev.gate_congr {d t : Dev} (h : t.net = d.net) (q : Nat) : t.gate q = d.gate q := by
  rw [Dev.gate, Dev.gate, h]

theorem Dev.gate_setGate (d : Dev) (q p : Nat) (g : GateSt) :
    (d.setGate q g).gate p = if q = p then g else d.gate p := by
  simp only [Dev.gate, Dev.setGate, aget_aset]
  split <;> rfl

@[simp] theorem Dev.setFld_gate (d : Dev) (f : Fld) (w i j v q : Nat) : (d.setFld f w i j v).gate q = d.gate q := rfl

@[simp] theorem Dev.raise_gate (d : Dev) (die code : Nat) (pl : List (Nat × Nat)) (q : Nat) :
    (d.raise die code pl).gate q = d.gate q := Dev.gate_congr (d.raise_net ..) q

@[simp] theorem Dev.gateShow_gate (d : Dev) (q p : Nat) : (d.gateShow q).gate p = d.gate p := rfl

/-! ### GATE_CONFIG_CHANGE (R228) -/

/-- A write that reaches a register of a powered die acts. -/
theorem onReg_of_railOn {n : Die} {s : State} (hup : s.dev.hostUp = true) (hrail : s.dev.railOn n = true) (r : Reg)
    (i j data : Nat) (f : Dev → Dev) : onReg (n + 1) r i j data f s = .next (s.put (f s.dev.quiet)) := by
  have hq : s.dev.quiet.hostUp = true := hup
  have hw : s.dev.quiet.winPowered (n + 1) = true := (s.dev.quiet.winPowered_die n).trans hrail
  simp only [onReg, onHost, onDev, Dev.regWrite, hq, hw, if_true]
  rfl

/-- The die of a line port. -/
def dieOfLine (q : LinePort) : Die := ⟨q.val / 32, by omega⟩

section
variable {s : State} {q : LinePort} (hup : s.dev.hostUp = true) (hrail : s.dev.railOn (q.val / 32) = true)
include hup hrail

theorem exec_gateConfigChange : exec (.gateConfigChange q) s = .next (s.put (s.dev.quiet.gateChange q)) :=
  onReg_of_railOn (n := dieOfLine q) hup hrail ..

theorem exec_gateEnWrite (en : Bool) : exec (.gateEnWrite q en) s = .next (s.put (s.dev.quiet.gateEnable q en)) :=
  onReg_of_railOn (n := dieOfLine q) hup hrail ..

end

section
variable {d : Dev} {q : Nat} (hp : (d.gate q).pending = none)
include hp

theorem Dev.gateCancel_of_none_pending (code : Nat) : d.gateCancel q code = d := by
  simp only [Dev.gateCancel, hp]

theorem Dev.gateChange_of_badList (hb : d.badList q = true) : d.gateChange q = d.gateRefuse q 4 := by
  simp only [Dev.gateChange, Dev.gateCancel_of_none_pending hp, hb, if_true]

theorem Dev.gateChange_of_none_free (hb : d.badList q = false) (hk : d.freeTimer = none) :
    d.gateChange q = d.gateRefuse q 3 := by
  simp only [Dev.gateChange, Dev.gateCancel_of_none_pending hp, hb, hk, Bool.false_eq_true, if_false]

/-- A legal change with a timer entry free books that entry for its change time and is shown pending. -/
theorem Dev.gateChange_of_freeTimer {k : Nat} (hb : d.badList q = false) (hk : d.freeTimer = some k) :
    d.gateChange q =
      let t := changeTime (d.wide .egGateBase (q / 32 + 1) (q % 32)) (d.adminCycle q) (d.now (q / 32))
      (((d.bookTimer k { kind := 2, t := t, arg := q }).setGate q { d.gate q with pending := some (t, k) }).setWide
        .egGateChange (q / 32 + 1) (q % 32) 0 t).setPd .egGateStatus_code (q / 32) 2 (q % 32) := by
  simp only [Dev.gateChange, Dev.gateCancel_of_none_pending hp, hb, hk, Bool.false_eq_true, if_false]

end

/-! ### GATE_LIST_OPERATIONAL (R228) -/

/-- The gate lists of a port once its admin list has become operational at an instant. -/
def Dev.newGate (d : Dev) (q at_ : Nat) : GateSt :=
  { running := d.gating q, len := d.cfg .egGateCtl_adminLen (q / 32 + 1) (q % 32), cycle := d.adminCycle q, start := at_ }

/-- The lists of a port exchanged: the timer entry is free and the admin list operational, with code 1. -/
def Dev.swapLists (d : Dev) (q at_ k : Nat) : Dev :=
  (((d.dropTimer k).setGate q (d.newGate q at_)).setPd .egGateStatus_operList (q / 32) (d.adminList q) (q % 32)).setPd
    .egGateStatus_code (q / 32) 1 (q % 32)

theorem Dev.swapLists_operList (d : Dev) (q at_ k : Nat) :
    (d.swapLists q at_ k).pd .egGateStatus_operList (q / 32) (q % 32) = d.adminList q := by
  simp [Dev.swapLists]

theorem Dev.swapLists_code (d : Dev) (q at_ k : Nat) :
    (d.swapLists q at_ k).pd .egGateStatus_code (q / 32) (q % 32) = 1 := by
  simp [Dev.swapLists]

theorem Dev.swapLists_timer (d : Dev) (q at_ k : Nat) : aget (d.swapLists q at_ k).tm.ta k = none :=
  (aget_adel ..).trans (if_pos rfl)

theorem Dev.swapLists_gate (d : Dev) (q at_ k p : Nat) :
    (d.swapLists q at_ k).gate p = if q = p then d.newGate q at_ else d.gate p := Dev.gate_setGate ..

/-- A pending change that becomes operational exchanges the lists; the gates shown and the event leave the rest. -/
theorem Dev.gateOperational_of_pending {d : Dev} {q at_ k : Nat} (hp : (d.gate q).pending = some (at_, k)) (late : Bool) :
    Only [.bkts, .obs] (some [.egGateStatus_gates, .egGateStatus_entry]) (some []) (d.swapLists q at_ k)
      (d.gateOperational q late) := by
  simp only [Dev.gateOperational, hp]
  refine .step (Dev.raise_only ..) rfl rfl rfl ?_
  split
  · exact .wk (Dev.gateShow_only ..) rfl rfl rfl
  · exact .refl _

theorem exec_gateListOperational {q : LinePort} {s : State} {at_ k : Nat} (hp : (s.dev.gate q).pending = some (at_, k))
    (ht : 0 ≤ diff64 (s.dev.now (q.val / 32)) at_) :
    exec (.gateListOperational q) s = .next (s.put (s.dev.quiet.gateOperational q false)) := by
  have hp' : (s.dev.quiet.gate q).pending = some (at_, k) := hp
  have ht' : 0 ≤ diff64 (s.dev.quiet.now (q.val / 32)) at_ := ht
  simp only [exec, execGateListOperational, onDev, hp', if_pos ht']
  rfl

/-! ### GATE_ENTRY_ADVANCE (R227) -/

theorem Dev.gateShow_entry (d : Dev) (q : Nat) : (d.gateShow q).pd .egGateStatus_entry (q / 32) (q % 32) =
    segAt (d.operSegs q) (d.gatePos q (d.now (q / 32))) 0 := by
  simp [Dev.gateShow]

theorem Dev.gateShow_gates (d : Dev) (q : Nat) : (d.gateShow q).pd .egGateStatus_gates (q / 32) (q % 32) =
    (((d.operSegs q)[segAt (d.operSegs q) (d.gatePos q (d.now (q / 32))) 0]?).map (·.1)).getD 0 := by
  simp [Dev.gateShow]

/-- What was on the outputs of the last step has no part in a list. -/
theorem Dev.quiet_segments (d : Dev) (q l len cycle k acc : Nat) :
    d.quiet.segments q l len cycle k acc = d.segments q l len cycle k acc := by
  induction k generalizing acc with
  | zero => rfl
  | succ k ih =>
    simp only [Dev.segments, ih]
    rfl

theorem Dev.quiet_operSegs (d : Dev) (q : Nat) : d.quiet.operSegs q = d.operSegs q := d.quiet_segments ..

theorem exec_gateEntryAdvance {q : LinePort} {s : State} (hr : (s.dev.gate q).running = true)
    (hg : s.dev.gating q = true) : exec (.gateEntryAdvance q) s = .next (s.put (s.dev.quiet.gateShow q)) := by
  have h : ((s.dev.quiet.gate q).running && s.dev.quiet.gating q) = true := by
    rw [Bool.and_eq_true]
    exact ⟨hr, hg⟩
  simp only [exec, execGateEntryAdvance, onDev, h, if_true]
  rfl

/-! ### GATE_EN_WRITE (R229) -/

/-- GATE_EN written, with the gates shown from then on and no list running. -/
def Dev.gatesHeld (d : Dev) (q gates : Nat) (en : Bool) : Dev :=
  ((d.setPd .egGateCtl_gateEn (q / 32) (b2n en) (q % 32)).setPd .egGateStatus_gates (q / 32) gates (q % 32)).setGate q
    { d.gate q with running := false }

theorem Dev.gateEnable_false (d : Dev) (q : Nat) : d.gateEnable q false = d.gatesHeld q 0xFF false := rfl

/-- Gating turned on where it was off holds ADMIN_GATES. -/
theorem Dev.gateEnable_true {d : Dev} {q : Nat} (h : d.pd .egGateCtl_gateEn (q / 32) (q % 32) ≠ 1) :
    d.gateEnable q true = d.gatesHeld q (d.cfg .egGateCtl_adminGates (q / 32 + 1) (q % 32)) true := by
  rw [Dev.gateEnable, if_pos rfl, if_neg fun h' => h h'.1]
  rfl

theorem Dev.gatesHeld_spec (d : Dev) (q gates : Nat) (en : Bool) :
    (d.gatesHeld q gates en).pd .egGateCtl_gateEn (q / 32) (q % 32) = b2n en ∧
    (d.gatesHeld q gates en).pd .egGateStatus_gates (q / 32) (q % 32) = gates ∧
    (d.gatesHeld q gates en).gate q = { d.gate q with running := false } := by
  refine ⟨by simp [Dev.gatesHeld], by simp [Dev.gatesHeld], ?_⟩
  rw [Dev.gatesHeld, Dev.gate_setGate, if_pos rfl]

/-! ### The statement on gates -/

/-- Settles O37: with no change pending a change only reads the list and the timers, what shows the gates after the lists
were exchanged leaves them exchanged, and GATE_EN holds the gates it shows.  The widths of the event's payload are the
model's reading (log entry 43). -/
theorem gatesFollowTheirLists : Obligations.GatesFollowTheirLists := by
  intro q s n i g
  refine ⟨?change, ?operational, ?advance, ?enable⟩
  case change =>
    intro hup hrail hp
    have hq : (s.dev.quiet.gate q).pending = none := hp
    rw [exec_gateConfigChange hup hrail]
    refine ⟨fun k hb hk => ?_, fun hb => ?_, fun hb hk => ?_⟩
    · rw [Dev.gateChange_of_freeTimer (d := s.dev.quiet) hq hb hk]
      rfl
    · rw [Dev.gateChange_of_badList (d := s.dev.quiet) hq hb]
      rfl
    · rw [Dev.gateChange_of_none_free (d := s.dev.quiet) hq hb hk]
      rfl
  case operational =>
    intro at_ k hp ht
    have h := Dev.gateOperational_of_pending (d := s.dev.quiet) hp false
    have hfld (f : Fld) (hf : [Fld.egGateStatus_gates, .egGateStatus_entry].contains f = false) (he : ¬ evFld f) :=
      h.fld _ rfl f (n + 1) i 0 hf he
    have htm := h.part .tm rfl
    have hgate := Dev.gate_congr (h.part .net rfl)
    refine ⟨_, exec_gateListOperational hp ht, ?_, ?_, ?_, ?_⟩
    · exact (hfld .egGateStatus_operList rfl (by simp)).trans (Dev.swapLists_operList ..)
    · exact (hfld .egGateStatus_code rfl (by simp)).trans (Dev.swapLists_code ..)
    · exact (congrArg (aget ·.ta k) htm).trans (Dev.swapLists_timer ..)
    · have hswap := s.dev.quiet.swapLists_gate q at_ k
      rw [(hgate q).trans ((hswap q).trans (if_pos rfl))]
      exact ⟨rfl, rfl, rfl, fun p hne => (hgate p).trans ((hswap p).trans (if_neg (Ne.symm hne)))⟩
  case advance =>
    intro hr hg
    have hentry := s.dev.quiet.gateShow_entry q
    have hgates := s.dev.quiet.gateShow_gates q
    rw [Dev.quiet_operSegs] at hentry hgates
    exact ⟨_, _, exec_gateEntryAdvance hr hg, rfl, hentry, hgates, rfl⟩
  case enable =>
    intro hup hrail
    constructor
    · intro hoff
      refine ⟨_, exec_gateEnWrite hup hrail true, ?_⟩
      rw [Dev.gateEnable_true (d := s.dev.quiet) hoff]
      exact Dev.gatesHeld_spec ..
    · refine ⟨_, exec_gateEnWrite hup hrail false, ?_⟩
      rw [Dev.gateEnable_false]
      exact Dev.gatesHeld_spec ..

end Sys2Proof.Machine
end

section
/-! Proof of the statement on mirror deferral: which copies stand in the queues after deferred copies have entered their VOQ
or were discarded, and what the tests of R200 and the counters on the way leave of them. -/

namespace Sys2Proof.Machine

/-! ### Operations that leave the copies alone -/

/-- The copies, and the number of the next one, are what they were. -/
structure Dev.SameCopies (d t : Dev) : Prop where
  copies : t.net.copies = d.net.copies
  nextCopy : t.net.nextCopy = d.net.nextCopy

namespace Dev.SameCopies

theorem refl (d : Dev) : d.SameCopies d := ⟨rfl, rfl⟩

theorem trans {a b c : Dev} (h : a.SameCopies b) (k : b.SameCopies c) : a.SameCopies c :=
  ⟨k.copies.trans h.copies, k.nextCopy.trans h.nextCopy⟩

theorem ite {d a b : Dev} {c : Prop} [Decidable c] (h : d.SameCopies a) (k : d.SameCopies b) :
    d.SameCopies (if c then a else b) := by split <;> assumption

theorem foldl {α : Type} {d t : Dev} {f : Dev → α → Dev} (h : ∀ (e : Dev) a, e.SameCopies (f e a)) (l : List α)
    (k : d.SameCopies t) : d.SameCopies (l.foldl f t) :=
  List.foldlRecOn l f k fun e he a _ => he.trans (h e a)

/-- The copies lie in the part `net`. -/
theorem ofOnly {ps : List Part} {fs : Option (List Fld)} {xs : Option (List Wide)} {d t : Dev} (h : Only ps fs xs d t)
    (hn : ps.contains .net = false := by decide) : d.SameCopies t :=
  have e : t.net = d.net := h.part .net hn
  ⟨by rw [e], by rw [e]⟩

end Dev.SameCopies

section
variable (d : Dev)

theorem Dev.setTx_sameCopies (p : Nat) (x : PortTx) : d.SameCopies (d.setTx p x) := ⟨rfl, rfl⟩

theorem Dev.setFrame_sameCopies (f : Frame) : d.SameCopies (d.setFrame f) := ⟨rfl, rfl⟩

theorem Dev.dropFrame_sameCopies (id : Nat) : d.SameCopies (d.dropFrame id) := ⟨rfl, rfl⟩

theorem Dev.pauseRaise_sameCopies (n inp c : Nat) : d.SameCopies (d.pauseRaise n inp c) := by
  unfold Dev.pauseRaise
  extract_lets d1 d2 d3 p x
  have h1 : d.SameCopies d1 := .foldl (fun e a => .ofOnly (e.setBit_only ..)) _ (.refl d)
  have h2 : d.SameCopies d2 := h1.trans (.ofOnly (d1.pmc_only ..))
  have h3 : d.SameCopies d3 := .ite (h2.trans (.ofOnly (d2.bump_only ..))) h2
  exact .ite (.ite (h3.trans (d3.setTx_sameCopies ..)) h3) h3

theorem Dev.pauseDrop_sameCopies (n inp c : Nat) : d.SameCopies (d.pauseDrop n inp c) := by
  have h : d.SameCopies ((inputPorts n inp).foldl (fun d p => d.clrBit .swPortStatus_xoff (n + 1) (idxOf p) 0 c) d) :=
    .foldl (fun e a => .ofOnly (e.clrBit_only ..)) _ (.refl d)
  exact .ite (h.trans (Dev.setTx_sameCopies ..)) h

theorem Dev.pauseTest_sameCopies (n inp c : Nat) : d.SameCopies (d.pauseTest n inp c) :=
  .ite (.ite (d.pauseDrop_sameCopies n inp c) (.refl d)) (.ite (d.pauseRaise_sameCopies n inp c) (.refl d))

theorem Dev.pauseInput_sameCopies (n inp : Nat) : d.SameCopies (d.pauseInput n inp) := by
  have h : d.SameCopies ((List.range 8).foldl (fun d c => d.pauseTest n inp c) d) :=
    .foldl (fun e c => e.pauseTest_sameCopies n inp c) _ (.refl d)
  exact .ite h (h.trans (.ofOnly (Dev.setPd_only ..)))

theorem Dev.globalTest_sameCopies (n : Nat) : d.SameCopies (d.globalTest n) := by
  have inputs {t : Dev} (h : d.SameCopies t) : d.SameCopies ((inputsOf n).foldl (fun d i => d.pauseInput n i) t) :=
    .foldl (fun e i => e.pauseInput_sameCopies n i) _ h
  exact .ite (inputs (.trans (.ofOnly (d.setPd_only ..)) (.ofOnly (Dev.raise_only ..))))
    (.ite (inputs (.ofOnly (d.setPd_only ..))) (.refl d))

theorem Dev.cellTest_sameCopies (n p : Nat) : d.SameCopies (d.cellTest n p) :=
  (d.pauseInput_sameCopies ..).trans (Dev.globalTest_sameCopies ..)

theorem Dev.reap_sameCopies (id : Nat) : d.SameCopies (d.reap id) := by
  unfold Dev.reap
  split
  · exact .ite ((d.dropFrame_sameCopies id).trans (Dev.cellTest_sameCopies ..)) (d.cellTest_sameCopies ..)
  · exact .refl d

theorem Dev.countFor_sameCopies (f : Frame) (k : WKey) : d.SameCopies (d.countFor f k) := by
  unfold Dev.countFor
  split
  · exact .ite (.ofOnly (d.bump_only ..)) (d.setFrame_sameCopies _)
  · exact .ofOnly (d.bump_only ..)

theorem Dev.countPlace_sameCopies (f : Frame) (k : WKey) : d.SameCopies (d.countPlace f k) := by
  unfold Dev.countPlace
  split
  · exact .ite (.ofOnly (d.bump_only ..)) (d.setFrame_sameCopies _)
  · exact .ofOnly (d.bump_only ..)

theorem Dev.countUnqueued_sameCopies (f : Frame) (r : CopyReq) (k : WKey) : d.SameCopies (d.countUnqueued f r k) :=
  .trans (.ite (d.countPlace_sameCopies f k) (.ofOnly (d.bump_only ..))) (.ofOnly (Dev.captureLost_only ..))

theorem Dev.countMirror_sameCopies (f : Frame) (k : CopyKind) : d.SameCopies (d.countMirror f k) := by
  unfold Dev.countMirror
  split
  · exact d.countFor_sameCopies ..
  · exact .refl d

theorem Dev.countPair_sameCopies (f : Frame) (r : CopyReq) : d.SameCopies (d.countPair f r) :=
  .ite (d.countFor_sameCopies ..) (.refl d)

/-! ### VOQ entry (R208) -/

/-- The device with the copy of a request added to its VOQ, before the counters and the tests. -/
def Dev.inVoq (f : Frame) (r : CopyReq) : Dev := d.addCopy (mkCopy d f r false)

/-- The counters and the tests that follow a copy into its VOQ leave the copies. -/
theorem Dev.afterEntry_sameCopies (f : Frame) (r : CopyReq) :
    d.SameCopies (((d.countMirror f r.kind).countPair f r).cellTest f.die f.port) :=
  ((d.countMirror_sameCopies ..).trans (Dev.countPair_sameCopies ..)).trans (Dev.cellTest_sameCopies ..)

variable {d}

/-- On a unit that discards neither the port's copies nor those of its class, a copy that enters its VOQ is queued. -/
theorem Dev.enterVoq_of_room {f : Frame} {r : CopyReq} (hs : d.standsBy = false)
    (ho : d.outBit .swPortStatus_discarding r.port r.tc = false) : (d.inVoq f r).SameCopies (d.enterVoq f r) := by
  simp only [Dev.enterVoq, hs, ho, Bool.false_eq_true, false_and, if_false]
  exact Dev.afterEntry_sameCopies ..

/-- A copy that enters its VOQ is queued, or discarded. -/
theorem Dev.enterVoq_cases (d : Dev) (f : Frame) (r : CopyReq) :
    (d.inVoq f r).SameCopies (d.enterVoq f r) ∨ d.SameCopies (d.enterVoq f r) := by
  unfold Dev.enterVoq
  split
  · exact .inr (d.countUnqueued_sameCopies ..)
  · split
    · exact .inr (d.countUnqueued_sameCopies ..)
    · exact .inl (Dev.afterEntry_sameCopies ..)

end

/-! ### MIRROR_DEFER_RELEASE (R240) -/

/-- The request that a deferred copy stands for. -/
def Copy.request (c : Copy) : CopyReq :=
  { kind := c.kind, port := c.port, tc := c.tc, trunc := c.trunc, slot := c.slot, seq := c.seq, group := c.group }

/-- The device without the copies of a number. -/
def Dev.withoutCopy (d : Dev) (id : Nat) : Dev :=
  { d with net := { d.net with copies := d.net.copies.filter (fun x => x.id ≠ id) } }

/-- A deferred copy of a frame leaves its list and enters its VOQ, past the host policer when it is for the host port. -/
def Dev.releaseOne (d : Dev) (f : Frame) (c : Copy) : Dev :=
  let gone := d.withoutCopy c.id
  let d1 := if c.port = 132 then
      (if (gone.hostPolice f c.request).2 then (gone.hostPolice f c.request).1.enterVoq f c.request
       else (gone.hostPolice f c.request).1)
    else gone.enterVoq f c.request
  d1.reap f.id

theorem Dev.releaseDeferred_cons {d : Dev} {n : Nat} {c : Copy} {f : Frame} (hf : d.frame? c.frame = some f)
    (cs : List Copy) : d.releaseDeferred n (c :: cs) =
      if d.voqFull n c.request then d else (d.releaseOne f c).releaseDeferred n cs := by
  rw [Dev.releaseDeferred, hf]
  rfl

/-- Copy y stands in the device, no copy of number i does, and i was given to a copy before. -/
structure Dev.InPlaceOf (y : Copy) (i : Nat) (d : Dev) : Prop where
  mem : y ∈ d.net.copies
  gone : ∀ x ∈ d.net.copies, x.id ≠ i
  old : i < d.net.nextCopy

section
variable {y : Copy} {i : Nat} {d t : Dev}

theorem Dev.SameCopies.inPlaceOf (h : d.SameCopies t) (k : d.InPlaceOf y i) : t.InPlaceOf y i :=
  ⟨h.copies ▸ k.mem, h.copies ▸ k.gone, h.nextCopy ▸ k.old⟩

theorem Dev.InPlaceOf.withoutCopy (k : d.InPlaceOf y i) {j : Nat} (hj : y.id ≠ j) : (d.withoutCopy j).InPlaceOf y i :=
  ⟨List.mem_filter.mpr ⟨k.mem, by simpa using hj⟩, fun x hx => k.gone x (List.mem_filter.mp hx).1, k.old⟩

/-- A copy that is queued has a number of its own. -/
theorem Dev.InPlaceOf.inVoq (k : d.InPlaceOf y i) (f : Frame) (r : CopyReq) : (d.inVoq f r).InPlaceOf y i := by
  refine ⟨List.mem_append_left _ k.mem, fun x hx => ?_, Nat.lt_succ_of_lt k.old⟩
  obtain hx | hx := List.mem_append.mp hx
  · exact k.gone x hx
  · rw [List.mem_singleton.mp hx]
    exact (Nat.ne_of_lt k.old).symm

theorem Dev.InPlaceOf.enterVoq (k : d.InPlaceOf y i) (f : Frame) (r : CopyReq) : (d.enterVoq f r).InPlaceOf y i := by
  obtain h | h := d.enterVoq_cases f r
  · exact h.inPlaceOf (k.inVoq f r)
  · exact h.inPlaceOf k

theorem Dev.InPlaceOf.releaseOne (k : d.InPlaceOf y i) (f : Frame) {c : Copy} (hc : y.id ≠ c.id) :
    (d.releaseOne f c).InPlaceOf y i := by
  have h := k.withoutCopy hc
  have hpoliced := (SameCopies.ofOnly ((d.withoutCopy c.id).hostPolice_only f c.request)).inPlaceOf h
  refine (Dev.reap_sameCopies ..).inPlaceOf ?_
  split
  · split
    · exact hpoliced.enterVoq f c.request
    · exact hpoliced
  · exact h.enterVoq f c.request

/-- The release of further copies keeps one that is none of them. -/
theorem Dev.InPlaceOf.releaseDeferred (k : d.InPlaceOf y i) (n : Nat) {cs : List Copy} (hcs : ∀ c ∈ cs, y.id ≠ c.id) :
    (d.releaseDeferred n cs).InPlaceOf y i := by
  induction cs generalizing d with
  | nil => exact k
  | cons c cs ih =>
    obtain ⟨hc, hcs⟩ := List.forall_mem_cons.mp hcs
    cases hf : d.frame? c.frame with
    | none =>
      rw [Dev.releaseDeferred, hf]
      exact ih k hcs
    | some f =>
      rw [Dev.releaseDeferred_cons hf]
      split
      · exact k
      · exact ih (k.releaseOne f hc) hcs

end

/-- A copy for a line or field port that is released where its VOQ takes it stands there under the next number. -/
theorem Dev.releaseOne_inPlaceOf {d : Dev} {c : Copy} (f : Frame) (hport : c.port < 132) (hs : d.standsBy = false)
    (ho : d.outBit .swPortStatus_discarding c.port c.tc = false) (hold : c.id < d.net.nextCopy) :
    (d.releaseOne f c).InPlaceOf (mkCopy d f c.request false) c.id := by
  have hne : c.port ≠ 132 := by omega
  have hone : d.releaseOne f c = ((d.withoutCopy c.id).enterVoq f c.request).reap f.id := by
    simp only [Dev.releaseOne, if_neg hne]
  have hq : ((d.withoutCopy c.id).inVoq f c.request).InPlaceOf (mkCopy d f c.request false) c.id := by
    refine ⟨List.mem_append_right _ (List.mem_singleton_self _), fun x hx => ?_, Nat.lt_succ_of_lt hold⟩
    obtain hx | hx := List.mem_append.mp hx
    · simpa using (List.mem_filter.mp hx).2
    · rw [List.mem_singleton.mp hx]
      exact (Nat.ne_of_lt hold).symm
  rw [hone]
  exact (Dev.reap_sameCopies ..).inPlaceOf
    ((Dev.enterVoq_of_room (d := d.withoutCopy c.id) (r := c.request) hs ho).inPlaceOf hq)

theorem Dev.mem_of_mem_deferrals {d : Dev} {n m : Nat} {c : Copy} (h : c ∈ d.deferrals n m) : c ∈ d.net.copies :=
  (List.mem_filter.mp h).1

theorem exec_mirrorDeferRelease (n : Die) (m : Fin 16) (s : State) : exec (.mirrorDeferRelease n m) s =
    .next (s.put (s.dev.quiet.releaseDeferred n (s.dev.quiet.deferrals n m))) := rfl

/-! ### The end of a copy -/

/-- The numbers of the copies, in their order. -/
def Dev.copyIds (d : Dev) : List Nat := d.net.copies.map (·.id)

theorem Dev.SameCopies.copyIds {d t : Dev} (h : d.SameCopies t) : t.copyIds = d.copyIds := by
  rw [Dev.copyIds, Dev.copyIds, h.copies]

theorem Dev.setCopy_copyIds (d : Dev) (c : Copy) : (d.setCopy c).copyIds = d.copyIds := by
  simp only [Dev.copyIds, Dev.setCopy, List.map_map]
  refine List.map_congr_left fun x _ => ?_
  by_cases h : x.id = c.id <;> simp [h]

theorem Dev.placeCopies_copyIds (d : Dev) (l : List Copy) : (d.placeCopies l).copyIds = d.copyIds := by
  induction l generalizing d with
  | nil => rfl
  | cons c cs ih =>
    unfold Dev.placeCopies
    split
    · rfl
    · rw [ih, Dev.setCopy_copyIds]
      rfl

theorem Dev.copyIds_filter (d : Dev) (i : Nat) :
    (d.net.copies.filter (fun x => x.id ≠ i)).map (·.id) = d.copyIds.filter (· ≠ i) := by
  rw [Dev.copyIds, List.filter_map]
  rfl

/-- A copy taken out leaves the copies of the other numbers. -/
theorem Dev.takeOut_copyIds (d : Dev) (c : Copy) (sentOut : Bool) :
    (d.takeOut c sentOut).copyIds = d.copyIds.filter (· ≠ c.id) := by
  unfold Dev.takeOut
  extract_lets net d1
  have h1 : d1.copyIds = d.copyIds.filter (· ≠ c.id) := d.copyIds_filter c.id
  split
  next f _ =>
    have h2 : d1.SameCopies ((if sentOut then d1 else d1.captureLost f c.port).slotMeasure f c) :=
      .trans (.ite (.refl d1) (.ofOnly (d1.captureLost_only ..))) (.ofOnly (Dev.slotMeasure_only ..))
    rw [(Dev.reap_sameCopies ..).copyIds, Dev.placeCopies_copyIds, h2.copyIds, h1]
  next => exact h1

/-! ### DEFERRAL_AGE_SCAN (R240) -/

/-- The head of a deferral list is counted as dropped for age, and taken out. -/
def Dev.ageDrop (d : Dev) (n m : Nat) (c : Copy) : Dev :=
  let d1 := d.bump .miCounters (n + 1) m 2 1
  (d1.raiseOnce n 0x0808 m [(4, m), (64, d1.wide .miCounters (n + 1) m 2)]).takeOut c false

section
variable (d : Dev) (n m : Nat) (c : Copy)

theorem Dev.ageDrop_copyIds : (d.ageDrop n m c).copyIds = d.copyIds.filter (· ≠ c.id) := by
  rw [Dev.ageDrop, Dev.takeOut_copyIds, (SameCopies.ofOnly (Dev.raiseOnce_only ..)).copyIds]
  rfl

/-- MI_DEFER_DROP of a session after a drop for age. -/
theorem Dev.ageDrop_dropped (k : Nat) : (d.ageDrop n m c).wide .miCounters (n + 1) k 2 =
    if m = k then (d.wide .miCounters (n + 1) m 2 + 1) % 2 ^ Wide.miCounters.info.width
    else d.wide .miCounters (n + 1) k 2 := by
  rw [Dev.ageDrop, (Dev.takeOut_only ..).wide _ rfl _ _ _ _ (by decide) (by simp), Dev.raiseOnce_wide (h := by simp),
    Dev.wide_bump]
  simp

end

/-- A head past the age limit of its session is dropped. -/
theorem Dev.ageDeferred_of_ageBad {d : Dev} {n m : Nat} {c : Copy} {f : Frame} {r : MirrorRec}
    (hf : d.frame? c.frame = some f) (hr : d.mirror? f.take m = some r) (ha : ageBad (d.ageOf n f) r.age = true)
    (cs : List Copy) : d.ageDeferred n m (c :: cs) = (d.ageDrop n m c).ageDeferred n m cs := by
  simp only [Dev.ageDeferred, hf, hr, ha, if_true]
  rfl

/-- A scan of the head of another session's list, and of the next ones, leaves MI_DEFER_DROP of a session, and adds no
copy. -/
theorem Dev.ageDeferred_other (d : Dev) (n : Nat) {k m : Nat} (hk : k ≠ m) (cs : List Copy) :
    (d.ageDeferred n k cs).copyIds ⊆ d.copyIds ∧
      (d.ageDeferred n k cs).wide .miCounters (n + 1) m 2 = d.wide .miCounters (n + 1) m 2 := by
  induction cs generalizing d with
  | nil => exact ⟨List.Subset.refl _, rfl⟩
  | cons c cs ih =>
    unfold Dev.ageDeferred
    split
    · exact ⟨List.Subset.refl _, rfl⟩
    · split
      · exact ⟨List.Subset.refl _, rfl⟩
      · split
        · obtain ⟨hids, hcount⟩ := ih (d.ageDrop n k c)
          rw [Dev.ageDrop_copyIds] at hids
          rw [Dev.ageDrop_dropped, if_neg hk] at hcount
          exact ⟨fun x hx => (List.mem_filter.mp (hids hx)).1, hcount⟩
        · exact ⟨List.Subset.refl _, rfl⟩

/-- The scan of the deferral list of a session. -/
def Dev.ageSession (n : Nat) (d : Dev) (m : Nat) : Dev := d.ageDeferred n m (d.deferrals n m)

theorem Dev.foldl_ageSession_of_empty {d : Dev} {n : Nat} {l : List Nat} (h : ∀ k ∈ l, d.deferrals n k = []) :
    l.foldl (Dev.ageSession n) d = d := by
  induction l with
  | nil => rfl
  | cons k l ih =>
    obtain ⟨hk, hl⟩ := List.forall_mem_cons.mp h
    have hd : Dev.ageSession n d k = d := by rw [Dev.ageSession, hk, Dev.ageDeferred]
    rw [List.foldl_cons, hd, ih hl]

theorem Dev.foldl_ageSession_other (d : Dev) (n : Nat) {m : Nat} {l : List Nat} (h : m ∉ l) :
    (l.foldl (Dev.ageSession n) d).copyIds ⊆ d.copyIds ∧
      (l.foldl (Dev.ageSession n) d).wide .miCounters (n + 1) m 2 = d.wide .miCounters (n + 1) m 2 := by
  induction l generalizing d with
  | nil => exact ⟨List.Subset.refl _, rfl⟩
  | cons k l ih =>
    obtain ⟨hk, hl⟩ : m ≠ k ∧ m ∉ l := by simpa only [List.mem_cons, not_or] using h
    obtain ⟨hids, hcount⟩ := d.ageDeferred_other n (Ne.symm hk) (d.deferrals n k)
    obtain ⟨hrestIds, hrestCount⟩ := ih (Dev.ageSession n d k) hl
    exact ⟨List.Subset.trans hrestIds hids, hrestCount.trans hcount⟩

/-- With one copy deferred on a die, past the age limit of its session, a scan of the sessions of a list without
repetition drops that copy alone. -/
theorem Dev.foldl_ageSession_of_ageBad {d : Dev} {n m : Nat} {l : List Nat} (hnd : l.Nodup) (hm : m ∈ l) {c : Copy}
    {f : Frame} {r : MirrorRec} (hc : d.deferrals n m = [c]) (hother : ∀ k ∈ l, k ≠ m → d.deferrals n k = [])
    (hf : d.frame? c.frame = some f) (hr : d.mirror? f.take m = some r) (ha : ageBad (d.ageOf n f) r.age = true) :
    (∀ x ∈ (l.foldl (Dev.ageSession n) d).net.copies, x.id ≠ c.id) ∧
      (l.foldl (Dev.ageSession n) d).wide .miCounters (n + 1) m 2 =
        (d.wide .miCounters (n + 1) m 2 + 1) % 2 ^ Wide.miCounters.info.width := by
  obtain ⟨before, after, rfl⟩ := List.append_of_mem hm
  obtain ⟨-, hrest, hapart⟩ := List.nodup_append.mp hnd
  have hbefore : m ∉ before := fun h => hapart m h m List.mem_cons_self rfl
  have hafter : m ∉ after := (List.nodup_cons.mp hrest).1
  have hempty : ∀ k ∈ before, d.deferrals n k = [] := fun k hk =>
    hother k (List.mem_append_left _ hk) fun hkm => hbefore (hkm ▸ hk)
  have hdrop : Dev.ageSession n d m = d.ageDrop n m c := by
    rw [Dev.ageSession, hc, Dev.ageDeferred_of_ageBad hf hr ha, Dev.ageDeferred]
  rw [List.foldl_append, Dev.foldl_ageSession_of_empty hempty, List.foldl_cons, hdrop]
  obtain ⟨hids, hcount⟩ := (d.ageDrop n m c).foldl_ageSession_other n hafter
  rw [Dev.ageDrop_copyIds] at hids
  rw [Dev.ageDrop_dropped, if_pos rfl] at hcount
  exact ⟨fun x hx => by simpa using (List.mem_filter.mp (hids (List.mem_map_of_mem hx))).2, hcount⟩

theorem exec_deferralAgeScan (n : Die) (s : State) :
    exec (.deferralAgeScan n) s = .next (s.put ((List.range 16).foldl (Dev.ageSession n) s.dev.quiet)) := rfl

/-! ### The statement on mirror deferral -/

/-- Settles O38: the oldest copy enters its VOQ under a number that no later release gives or takes out, and the scan drops
the one head that is too old while it passes over the other sessions. -/
theorem deferredMirrorsGo : Obligations.DeferredMirrorsGo := by
  intro n m s c f hf
  constructor
  · intro cs hdef hport hs ho hids hroom
    have hmem {x : Copy} (hx : x ∈ c :: cs) : x.id < s.dev.quiet.net.nextCopy :=
      hids x (Dev.mem_of_mem_deferrals (hdef ▸ hx))
    have hroom' : ¬ s.dev.quiet.voqFull n c.request = true := fun h =>
      absurd (of_decide_eq_true h) (Nat.not_le.mpr hroom)
    have hfirst := Dev.releaseOne_inPlaceOf (d := s.dev.quiet) f hport hs ho (hmem List.mem_cons_self)
    have hlast := hfirst.releaseDeferred n (cs := cs) fun x hx => (Nat.ne_of_lt (hmem (List.mem_cons_of_mem _ hx))).symm
    have hexec := exec_mirrorDeferRelease n m s
    have hdef' : s.dev.quiet.deferrals n m = c :: cs := hdef
    rw [hdef', Dev.releaseDeferred_cons (d := s.dev.quiet) hf, if_neg hroom'] at hexec
    exact ⟨_, _, hexec, hlast.mem, rfl, Dev.id_of_frame? hf, rfl, rfl, rfl, hlast.gone⟩
  · intro r hdef hother hr ha
    have hdef' : s.dev.quiet.deferrals n m = [c] := hdef
    exact ⟨_, exec_deferralAgeScan n s, Dev.foldl_ageSession_of_ageBad List.nodup_range (List.mem_range.mpr m.isLt) hdef'
      (fun k hk => hother k (List.mem_range.mp hk)) hf hr ha⟩

end Sys2Proof.Machine
end
